-- ==== Sys2Proof/Word.lean ====
section
/-!
DEFINITION. The word types and the sparse table every indexed part of the machine is held in.
-/
namespace Sys2Proof

/-- A byte of a memory, a message or an image. -/
abbrev Byte := BitVec 8
/-- The bits of an IEEE binary32 value (02_numeric_formats.md R46). -/
abbrev FP32 := BitVec 32

/-- A table of entries by number in one canonical form: keys strictly rising, and no entry equal to what an
unlisted key reads as.  Its operations are in Machine/Tables.lean. -/
abbrev Tbl (α : Type) := List (Nat × α)

end Sys2Proof
end

