-- ==== Sys2Proof/Syntax.lean ====
section
/-!
DEFINITION. The commands: one constructor for each row of spec/opcode_table.json, with the operands an occurrence of
the step has: which part it happens to, and what comes from outside the module with it (a word written, a message, a
measured value).  What the module itself decides or computes is no operand (DESIGN CHOICE; log entry 1).
-/
namespace Sys2Proof

/-- What a plan fixes for firmware without a place in its container's field maps (R276 to R278, R310; DESIGN CHOICE; log entry 20):
the key-value geometry, the sampling arrays, the reading arrays of the lane groups, the value scales by lane and dimension. -/
structure PlanX where
  layers   : Nat := 0
  heads    : Nat := 0
  dim      : Nat := 64
  keyFmt   : Nat := 1
  valFmt   : Nat := 1
  lanes    : Nat := 1
  sampling : List Nat := []
  readers  : List Nat := []
  vscales  : List Nat := []
  deriving DecidableEq, Repr

/-- The network headers of a frame as a port receives it (R457): kind 0 UDP, 1 ARP request, 2 ICMP or ICMPv6 echo request,
3 neighbour solicitation, 4 anything else; the tag; whether headers, sizes and checksum are as the port supports. -/
structure Net where
  kind  : Nat := 0
  vlan  : Option Nat := none
  v6    : Bool := false
  dst   : Nat := 0
  dport : Nat := 0
  src   : Nat := 0
  sport : Nat := 0
  ok    : Bool := true
  deriving DecidableEq, Repr

/-- What the last course of a step leaves for one of its rows in home granules, as firmware reads it at the commit point (R229, R398,
R448; DESIGN CHOICE; log entry 12): the embedding's bytes, the code, the lists of a centroid scorer's top-k job, the score, and whether a numeric fault
was counted for the row. -/
structure StepOut where
  embed    : List (BitVec 8) := []
  code     : Nat := 0
  lists    : List Nat := []
  score    : BitVec 32 := 0
  numfault : Bool := false
  deriving DecidableEq, Repr

/-- The commands of the module (spec/opcode_table.json); each docstring names the rule that governs the step. -/
inductive Instr where
  /-- BEAT_BOUNDARY (R663): At each beat boundary the count advances and the scheduled work of the tier and index tables runs in order on the state as it stood before the boundary -/
  | beatBoundary (waits : List Nat) (smp : List (Nat × Nat)) (inlet : Int) (watts : Nat)
  /-- SYNC_MARK_FALL (R641): The SYNC_MARK pulse ends 1 µs after it rose -/
  | syncMarkFall
  /-- STANDBY_POWER_APPLIED (R618): The 12 V input is applied and start-up begins at step 1 in the always-on domain -/
  | standbyPowerApplied
  /-- START_UP_STEP_ADVANCE (R618): When a start-up step has met its condition, the next step begins and BOOT_STEP advances -/
  | startUpStepAdvance (bad : Fin 3) (lost : List Nat) (mv : Fin 65536) (badStacks : List (Fin 8))
  /-- IMAGE_ATTEMPT_TIMEOUT (R623): A firmware image that has not reached step 11 within 300 s fails, and the next image is tried from step 8 -/
  | imageAttemptTimeout
  /-- STANDBY_POWER_LOSS (R616): Both inputs are lost; the supercapacitor holds the always-on domain while keeper 0 completes its record and writes STANDBY_LOSS -/
  | standbyPowerLoss
  /-- MAIN_POWER_LOSS (R588): The 54 V input falls below its loss threshold, and all 98 switched domains lose their volatile state -/
  | mainPowerLoss
  /-- MAIN_OVERVOLTAGE (R651): MAIN_54V above 60.0 V for 1 µs opens the main input switch as on a loss of main power -/
  | mainOvervoltage
  /-- COOLANT_INTERLOCK_OPEN (R582): Flow below FLOW_MIN for 100 ms opens the interlock, slows every die to 800 MHz and stops array wakes and ramp-ups -/
  | coolantInterlockOpen (flow : Nat)
  /-- INTERLOCK_OPEN_TIMEOUT (R582): An interlock still open after 2 s powers down every array domain and abandons running courses -/
  | interlockOpenTimeout
  /-- COOLANT_INTERLOCK_CLOSE (R582): The interlock closes and wakes and ramp-ups are granted again -/
  | coolantInterlockClose (flow : Nat)
  /-- INLET_OVER_MAX (R582): An inlet temperature above INLET_MAX is treated as an opened interlock -/
  | inletOverMax (temp : Int)
  /-- THERMAL_TRIP_DIE (R582): A compute die at or above 105.0 °C powers down its array domains at once without quiesce -/
  | thermalTripDie (d : Fin 4) (temp : Int)
  /-- THERMAL_TRIP_CLEAR (R582): A tripped die that has cooled below 95.0 °C may again be granted wakes -/
  | thermalTripClear (d : Fin 4) (temp : Int)
  /-- THERMAL_TRIP_MODULE (R582): Any die at or above 115.0 °C powers down every switched domain -/
  | thermalTripModule (d : Fin 6) (temp : Int)
  /-- FAST_POWER_COMPARATOR (R580): A 1 µs main-input average above 1.15 × POWER_LIMIT_W sets the cap clock to THROTTLE_MHZ within 2 µs -/
  | fastPowerComparator (avgW : Nat)
  /-- THROTTLE_ASSERT (R581): The filtered THROTTLE_N input asserts, and every compute die runs at THROTTLE_MHZ or lower within 2 µs -/
  | throttleAssert
  /-- THROTTLE_DEASSERT (R581): The filtered THROTTLE_N input deasserts, and the clocks return to the other terms of R577 -/
  | throttleDeassert
  /-- ACLK_CHANGE (R578): A decided change of a die's effective array clock takes effect glitch-free within 1 µs -/
  | aclkChange (d : Fin 4)
  /-- WAKE_GRANT (R573): The die's wake ledger grants a queued domain wake within its spacing and order rules -/
  | wakeGrant (d : Fin 6) (t : Nat)
  /-- WAKE_COMPLETE (R574): A granted domain wake completes its switch, rail, isolation, clock and reset sequence and the domain becomes ON -/
  | wakeComplete (p : Fin 98)
  /-- RAMP_UP_GRANT (R573): The wake ledger grants an array ramp-up within the limit of two per 100 ns window -/
  | rampUpGrant (d : Fin 6) (t : Nat)
  /-- RAMP_COMPLETE (R85): A ramp-up or ramp-down finishes its 8 stages of 4 cycles and the array is FULL or OFF -/
  | rampComplete (a : Fin 32)
  /-- RAMP_DOWN_START (R87): After ARRAY_BUBBLE_FILL consecutive bubble cycles the array enters RAMP_DOWN -/
  | rampDownStart (a : Fin 32) (bubbles : Nat)
  /-- IDLE_POWER_DOWN (R571): An AUTO array domain idle for 1 024 beats is powered down, or a SerDes group whose ports are all disabled -/
  | idlePowerDown (p : Fin 98)
  /-- QUIESCE_COMPLETE (R590): A QUIESCING domain finishes its outstanding work, or after 20 µs ends it with RETRY, and leaves QUIESCING -/
  | quiesceComplete (p : Fin 98)
  /-- DOMAIN_RESET (R588): A domain or die reset clears the state of its parts and advances its epoch -/
  | domainReset (p : Fin 98) (orderly : Bool)
  /-- DOMAIN_RESET_COMPLETE (R569): A domain leaves IN_RESET and its wake is queued ahead of every other wake of its die -/
  | domainResetComplete (p : Fin 98)
  /-- DOMAIN_FAILURE (R569): A domain whose switch or rail faults, or fails 3 wake attempts, becomes FAILED and its parts leave service -/
  | domainFailure (p : Fin 98) (attempt : Bool)
  /-- MIRROR_COPY (R616): Keeper 0 copies records from MRAM to the NOR mirror in groups of 16 -/
  | mirrorCopy (outcome : Fin 3)
  /-- HANG_WATCHDOG (R586): An access outstanding 10 µs into a stopped clock makes the keeper watchdog reset the initiator's domain -/
  | hangWatchdog (init : Fin 98) (target : Fin 98)
  /-- PART_RESET (R604): A unit inside an ON domain is cleared, its epoch advances and its outstanding requests complete with RETRY -/
  | partReset (kind : Fin 9) (unit : Nat) (ns : Nat)
  /-- KEEPER_HEARTBEAT (R153): Each keeper writes a heartbeat word into the other keeper's heartbeat window every 10 000 KCLK cycles -/
  | keeperHeartbeat (k : Fin 2) (w : Nat)
  /-- KEEPER_HEARTBEAT_MISS (R153): Three missed heartbeats make a keeper reset the other and take over its duties -/
  | keeperHeartbeatMiss (k : Fin 2)
  /-- KEEPER_DUAL_TIMEOUT (R153): The always-on timer resets both keeper cores when neither has written a heartbeat for 10 ms -/
  | keeperDualTimeout
  /-- SPINE_OWNER_WRITE (R147): A write of the SPINE_OWNER CSR sets the stake whose slots carry the core's later accesses -/
  | spineOwnerWrite (c : Fin 144) (v : Nat)
  /-- CORE_HOLD_LIMIT (R147): An access held CORE_HOLD_LIMIT SCLK cycles for lack of slots ends with an access-fault exception -/
  | coreHoldLimit (c : Fin 144)
  /-- MBOX_POP (R149): A write to MBOX_POP removes the head entry of the mailbox -/
  | mboxPop (c : Fin 146) (n : Fin 8)
  /-- MBOX_STATUS_WRITE (R149): A write of MBOX_STATUS sets IRQ_EN or clears OVERFLOW by writing 1 -/
  | mboxStatusWrite (c : Fin 146) (n : Fin 8) (v : Nat)
  /-- POST_WINDOW_WRITE (R151): A 16-byte write into a core's post window posts a CORE_MSG to the addressed mailbox -/
  | postWindowWrite (c : Fin 144) (t : Fin 144) (off : Nat) (bytes : Nat) (w : Nat)
  /-- BUNDLE (R106): A BUNDLE header written to a bundle port locks the port to its writer, or is answered PORT_BUSY -/
  | bundle (a : Fin 32) (c : Fin 144) (w : Nat) (ds : List (Nat × Nat)) (kv : List (Nat × Nat)) (fill : List (Nat × List Byte))
  /-- BUNDLE_WORD_WRITE (R146): A 16-byte write delivers an instruction word to a locked bundle port; writes of other sizes are dropped and counted -/
  | bundleWordWrite (a : Fin 32) (c : Fin 144) (bytes : Nat) (w : Nat)
  /-- BUNDLE_PORT_TIMEOUT (R106): A locked port without a word for 256 SCLK cycles discards the partial bundle and answers INCOMPLETE -/
  | bundlePortTimeout (a : Fin 32)
  /-- BUNDLE_COMPLETE (R109): When every word of a bundle has completed, the status word is posted to the named mailbox -/
  | bundleComplete (a : Fin 32) (key : Nat)
  /-- TLOAD (R116): Loads a stationary tile with its scales and checksum vectors into the shadow registers -/
  | tload (a : Fin 32)
  /-- FETCH_COMPLETE (R194): An on-demand fetch has placed its last byte in near store and the waiting load starts -/
  | fetchComplete (a : Fin 32)
  /-- FEED (R117): Fills one stream buffer half with rows, scale rows and row attribute words -/
  | feed (a : Fin 32)
  /-- SKLD (R118): Loads a skein tile into a position of one skein buffer half -/
  | skld (a : Fin 32)
  /-- MMA (R122): Streams rows through the grid and runs the edge-unit stages to accumulate, export or finish them -/
  | mma (a : Fin 32) (upsets : List (Nat × Nat))
  /-- IMPORT (R126): Adds an exported block's sums to the owner's accumulators in block order -/
  | importBlk (a : Fin 32)
  /-- ESTATE (R128): Initialises softmax state and row statistics of the resident's rows -/
  | estate (a : Fin 32)
  /-- SMRES (R129): Rescales accumulator rows and their reference sums after a softmax update -/
  | smres (a : Fin 32)
  /-- NORM (R130): Applies RMS, layer normalization or softmax division to finished rows -/
  | norm (a : Fin 32)
  /-- TKSUB (R132): Submits a PORT or SLICE job to a channel of the array's top-k unit -/
  | tksub (a : Fin 32)
  /-- TOPK_JOB_COMPLETE (R305): A top-k job writes its last index after the tournament tree has produced its winners -/
  | topkJobComplete (a : Fin 32) (c : Fin 4)
  /-- WAIT (R134): Waits until a local sync counter reaches VALUE and subtracts it -/
  | wait (a : Fin 32)
  /-- SIGNAL (R134): Increments a sync counter of the same resident on an array of the stake -/
  | signal (a : Fin 32)
  /-- FENCE (R136): Waits for earlier instructions to complete and optionally posts a payload to a mailbox -/
  | fence (a : Fin 32)
  /-- INSTRUCTION_COMPLETE (R136): An issued instruction completes its last write, export, rescale or index, with DSIG increments where set -/
  | instructionComplete (a : Fin 32) (n : Nat)
  /-- SYNC_INCREMENT_ARRIVAL (R135): A SIGNAL, export or completion increment arrives and is kept or dropped as stale by its epoch -/
  | syncIncrementArrival (n : Nat)
  /-- ABANDON (R141): The abandon command clears every issued, queued and loading word of a resident's epoch -/
  | abandon (a : Fin 32) (r : Fin 4) (epoch : Nat)
  /-- WAIT_LIMIT (R138): The head of a compute queue not issued for ARRAY_WAIT_LIMIT beats ends its bundle with WAIT_LIMIT -/
  | waitLimit (a : Fin 32) (beats : Nat)
  /-- ECC_FAULT (R596): An uncorrectable error in accumulator, edge-unit state or a queue ends the bundle and resets the array domain -/
  | eccFault (a : Fin 32) (mem : Fin 3) (key : Nat) (addr : Nat)
  /-- LIVE_TABLE_ERROR (R169): An uncorrectable live-table entry idles the instance's slots and starts a reload from the ledger -/
  | liveTableError (kind : Nat) (inst : Nat) (slot : Fin 256)
  /-- LIVE_TABLE_RELOAD_DONE (R169): The live table is reloaded within 2 frames and the instance carries traffic again -/
  | liveTableReloadDone (kind : Nat) (inst : Nat) (ns : Nat)
  /-- SLOT_LEDGER_ERROR (R169): An uncorrectable ledger error stops loads and unloads until keeper 0 rebuilds the ledger -/
  | slotLedgerError (addr : Nat)
  /-- TIER_DECISION (R187): At each beat multiple of 1 024 the tier directory drops cold copies and queues promotions per slice -/
  | tierDecision
  /-- HEAT_HALVING (R185): At each beat multiple of 16 384 every page, granule, list, chunk and group heat counter is halved -/
  | heatHalving
  /-- MIGRATION_COMPLETE (R189): A queued piece migration finishes and the granule becomes TIERED -/
  | migrationComplete (sl : Fin 32)
  /-- PAGE_WRITE_COMPLETE (R282): A page writer copy into a home page completes, with VALID and the checksum vectors updated -/
  | pageWriteComplete (a : Fin 32) (r : Fin 4) (q : Fin 4096) (draft : Bool) (g : Nat) (pos : Nat) (n : Nat) (keyA : Nat) (keyS : Nat) (valA : Nat) (sr : Bool)
  /-- GRANULE_ECC_ERROR (R205): An uncorrectable error in a granule retires it and recovers by its kind -/
  | granuleEccError (g : Fin 16384) (off : Fin 65536) (tag : Bool)
  /-- STACK_PAGE_ECC_ERROR (R205): An uncorrectable error in a stack page retires it and refetches or loses its content by CLASS -/
  | stackPageEccError (p : Fin 196608) (pc : Fin 64) (dir : Bool) (both : Bool) (index : Bool)
  /-- PAGE_REFETCH_COMPLETE (R205): An object's bytes refetched from its origin are in a new page and the maps are rewritten -/
  | pageRefetchComplete (p : Fin 196608) (bytes : List Byte)
  /-- PSEUDO_CHANNEL_RETIRE (R206): A retired pseudo-channel fails every page of its stack, which continues on 63 channels -/
  | pseudoChannelRetire (h : Fin 8) (n : Fin 64) (trigger : Fin 3)
  /-- PATROL_SCRUB_PASS (R605): The patrol scrub reads every page once per 2^24 beats, writes back corrections and acts on error counts -/
  | patrolScrubPass (h : Fin 8) (channels : List (Nat × Nat)) (pages : List (Nat × Nat))
  /-- STACK_FAILURE (R606): A failed stack or controller fails all its pages; PINNED pages are refetched elsewhere and HOME pages lost -/
  | stackFailure (h : Fin 8)
  /-- MODEL_LOAD (R217): MODEL_COMMAND LOAD runs the load checks and starts the copy of the plan tiles -/
  | modelLoad (m : Fin 64) (x : PlanX)
  /-- TILE_COPY_COMPLETE (R217): The copy of TILES into PINNED pages ends and the slot load check follows -/
  | tileCopyComplete (m : Fin 64) (ok : Bool)
  /-- MODEL_LOAD_COMMIT (R167): A passed load commits at a beat boundary, writing its shares into ledger and live tables -/
  | modelLoadCommit (m : Fin 64)
  /-- MODEL_UNLOAD (R220): MODEL_COMMAND UNLOAD sets the model UNLOADING and stops new admissions that name it -/
  | modelUnload (m : Fin 64)
  /-- MODEL_UNLOAD_COMMIT (R220): The unload commits once no request binds the model and no step of it remains, releasing its resources -/
  | modelUnloadCommit (m : Fin 64)
  /-- MODEL_CLEAR (R221): MODEL_COMMAND CLEAR unloads a FAILED model at once and returns it to EMPTY -/
  | modelClear (m : Fin 64)
  /-- MODEL_FAIL (R221): A model whose stakes cannot take a step for MODEL_FAIL_BEATS beats becomes FAILED -/
  | modelFail (m : Fin 64)
  /-- COURSE_END (R228): Every array of the stake has completed the course, and the next course is issued or the step commits -/
  | courseEnd (k : Nat) (cycles : Nat) (outs : List StepOut)
  /-- REMOTE_WAIT_LIMIT (R233): A remote wait lasting REMOTE_NS plus REMOTE_GRACE_NS beyond its projected start abandons the course for replay -/
  | remoteWaitLimit (k : Nat) (ns : Nat)
  /-- SKEIN_LOAD (R241): SKEIN_COMMAND LOAD seeks a slot and quota, then copies the skein tiles -/
  | skeinLoad (m : Fin 64) (pages : Nat)
  /-- SKEIN_WAIT_EXPIRY (R241): A skein LOAD still waiting after WAIT_BEATS is refused for lack of slot or quota -/
  | skeinWaitExpiry (m : Fin 64)
  /-- SKEIN_COPY_COMPLETE (R241): The skein tiles are in PINNED pages and the slot becomes ACTIVE at the next beat boundary -/
  | skeinCopyComplete (m : Fin 64) (ok : Bool) (baseId : Nat) (tiles : List (Nat × Nat))
  /-- SKEIN_REMOVE (R242): SKEIN_COMMAND REMOVE sets the active slot RETIRING or answers NOT_FOUND -/
  | skeinRemove (m : Fin 64)
  /-- SKEIN_SLOT_FREE (R242): A RETIRING or FAILED slot becomes FREE at the first boundary with no references -/
  | skeinSlotFree (k : Fin 512)
  /-- GATE_DECISION (R254): The admission gate decides a granted request by its checks and admits it or refuses it -/
  | gateDecision (port : Fin 3)
  /-- DEFER_LIMIT_EXPIRY (R259): A held request reaching DEFER_LIMIT or an unmeetable projection completes with REFUSED_OVERLOAD -/
  | deferLimitExpiry (r : Nat)
  /-- DEADLINE_EXPIRY (R265): A request not complete at its end-to-end deadline ends as if cancelled with DEADLINE_MISSED -/
  | deadlineExpiry (r : Nat)
  /-- PREFIX_RELEASE (R295): An unreferenced prefix entry is released when its pages are cold or a quota needs them -/
  | prefixRelease (p : Nat)
  /-- DETOKENIZE_STREAM (R298): Committed tokens are detokenized and streamed once every message up to the commit stamp is processed -/
  | detokenizeStream (q : Fin 4096)
  /-- DICE_JOB (R313): A dice job masks, tempers and ranks a position's logits and draws or verifies tokens -/
  | diceJob (a : Fin 32) (ws : List Nat)
  /-- DICE_JOB_COMPLETE (R310): A dice job writes its result, and the LAST job increments counter 15 of its array -/
  | diceJobComplete (a : Fin 32)
  /-- MASK_FRAME_COMPLETE (R349): A mask engine completes a frame, allowing the position's dice feed to start -/
  | maskFrameComplete (a : Fin 32)
  /-- RNG_KEY_REPLACE (R322): After 2^20 blocks under a key the generator takes a fresh or ratcheted key and increments its epoch -/
  | rngKeyReplace (u : Fin 8)
  /-- RNG_CONDITIONED_KEY (R323): 1 536 raw bits passing the health tests are conditioned with SHA-384 into a key -/
  | rngConditionedKey (u : Fin 8) (raw : Nat)
  /-- VOCAB_LOAD (R333): VOCAB_COMMAND LOAD loads a vocabulary image into an EMPTY or READY slot -/
  | vocabLoad (v : Fin 16) (ok : Bool)
  /-- VOCAB_LOAD_DONE (R333): A loaded vocabulary becomes READY or takes over a replaced slot at a boundary with no references -/
  | vocabLoadDone (v : Fin 16)
  /-- VOCAB_CLOSE (R333): VOCAB_COMMAND CLOSE sets a READY slot CLOSING -/
  | vocabClose (v : Fin 16)
  /-- VOCAB_CLOSE_DONE (R333): A CLOSING vocabulary slot becomes EMPTY at the first boundary with no references -/
  | vocabCloseDone (v : Fin 16)
  /-- GRAMMAR_LOAD (R347): GRAMMAR_COMMAND LOAD loads and checks a grammar image into a slot -/
  | grammarLoad (g : Fin 64) (ok : Bool)
  /-- GRAMMAR_LOAD_DONE (R347): A loaded grammar becomes READY or replaces the slot content at a boundary with no references -/
  | grammarLoadDone (g : Fin 64)
  /-- GRAMMAR_CLOSE (R347): GRAMMAR_COMMAND CLOSE sets a READY grammar slot CLOSING -/
  | grammarClose (g : Fin 64)
  /-- GRAMMAR_CLOSE_DONE (R347): A CLOSING grammar slot becomes EMPTY at the first boundary with no references -/
  | grammarCloseDone (g : Fin 64)
  /-- CERTIFICATION_RECOMPUTE (R353): Grammar certification is recomputed for every class at the boundary after a relevant change -/
  | certificationRecompute
  /-- TOKENIZE_JOB (R335): A queued tokenization job starts on a free trie unit and tokenizes its text by longest match -/
  | tokenizeJob (die : Fin 2) (busy : List Nat)
  /-- INDEX_FORMAT (R363): INDEX_COMMAND FORMAT erases the index and text regions and applies the region sizes -/
  | indexFormat
  /-- INDEX_MOUNT (R364): INDEX_COMMAND MOUNT reads the checkpoint, replays the journal and places the index stake -/
  | indexMount
  /-- INDEX_UNMOUNT (R394): INDEX_COMMAND UNMOUNT takes effect once no admitted request uses the index and merges have flipped -/
  | indexUnmount
  /-- SIDE_FLUSH_TIMEOUT (R371): The oldest staged append waiting SIDE_FLUSH_BEATS forces a side page to be formed and programmed -/
  | sideFlushTimeout
  /-- SIDE_PAGE_PROGRAM_DONE (R371): A side page program completes with pass status and its appends become committed -/
  | sidePageProgramDone (n : Nat) (core : Nat) (mb : Nat)
  /-- PROGRAM_FAILURE (R361): A failed NAND program retires its block and the page is written again at the next free page -/
  | programFailure (kind : Fin 3) (n : Nat) (core : Nat) (mb : Nat)
  /-- STRIPE_CLOSE_TIMEOUT (R372): A stripe open SIDE_STRIPE_CLOSE_BEATS is padded with empty pages and its parity programmed -/
  | stripeCloseTimeout
  /-- CHECKPOINT (R364): A checkpoint of the whole index directory is written every CHECKPOINT_BEATS -/
  | checkpoint
  /-- TEXT_PAGE_PROGRAM_DONE (R379): A text page program completes and the frames in it are durable -/
  | textPageProgramDone (g : Nat)
  /-- TEXT_READ_DONE (R380): A text read returns its frame decompressed with a per-passage status -/
  | textReadDone (r : Nat) (cd : Nat) (core : Nat) (mb : Nat)
  /-- TEXT_DICT_LOAD (R379): DICT_COMMAND LOAD loads a Zstandard dictionary into a text dictionary slot -/
  | textDictLoad (k : Fin 64)
  /-- TEXT_DICT_REMOVE (R379): DICT_COMMAND REMOVE empties a text dictionary slot -/
  | textDictRemove (k : Fin 64)
  /-- COMPACTION (R381): With free text segments below 2 %, live frames of the emptiest segment are copied and it is erased -/
  | compaction
  /-- READ_RECONSTRUCT (R383): Unreadable bytes are rebuilt by XOR from the other pages of the stripe -/
  | readReconstruct (kind : Fin 4) (n : Nat) (page : Nat) (c : Fin 32) (cw : Nat) (ok : Bool) (core : Nat) (mb : Nat)
  /-- DIE_FAILURE (R384): A failed NAND die is read by reconstruction and its blocks are rebuilt into spares -/
  | dieFailure (c : Fin 32) (d : Fin 12) (ms : Nat) (core : Nat) (mb : Nat)
  /-- REBUILD_BLOCK_DONE (R384): A rebuilt block's last page is programmed and its remap entry made -/
  | rebuildBlockDone
  /-- CHANNEL_FAILURE (R385): A failed channel is reconstructed on every read and new stripes use 31 channels -/
  | channelFailure (c : Fin 32) (core : Nat) (mb : Nat)
  /-- WINDOW_CLOSE (R400): A search window closes at a multiple of SEARCH_WINDOW_BEATS and takes its view beat -/
  | windowClose
  /-- WINDOW_START (R402): A closed window starts its scan when every spoke has contexts and top-k room for it -/
  | windowStart
  /-- CONTEXT_DONE (R390): A spoke finishes a context's lists, writes its results and reads their records -/
  | contextDone (sp : Fin 32) (r : Nat) (core : Nat) (mb : Nat)
  /-- RIM_MERGE (R409): With every spoke done and probes finished, a query's candidates are merged to k on RN -/
  | rimMerge (r : Nat)
  /-- LIST_CACHE_DECISION (R411): At each beat multiple of 1 024 hot uncached lists are admitted to the list cache -/
  | listCacheDecision
  /-- LIST_CACHE_FILL_DONE (R412): Every main page of a marked version is cached and the copy serves windows -/
  | listCacheFillDone (l : Nat)
  /-- MERGE_PROGRAMMED (R419): A merge's last page and journal record are programmed and the list flips at the next boundary -/
  | mergeProgrammed (l : Nat)
  /-- LIST_FLIP (R419): The list's new version becomes current with its new side floor -/
  | listFlip (l : Nat)
  /-- SIDE_FLOOR_RAISE (R421): A sweep finding nothing to drop raises the list's side floor without writing -/
  | sideFloorRaise (l : Nat)
  /-- TOMBSTONE_RETIRE (R422): Swept tombstones leave the table once older windows have ended -/
  | tombstoneRetire
  /-- VERSION_RELEASE (R420): An old list version and its cached copy are released after the last window reading them ends -/
  | versionRelease (l : Nat)
  /-- TABLE_LOAD (R431): TABLE_COMMAND LOAD reads and checks an embedding table image from the pool -/
  | tableLoad (t : Fin 64) (hdr : List Byte) (l1 : List Byte) (dflt : List Byte) (counts : List Nat) (ok : Bool)
  /-- TABLE_LOAD_DONE (R431): A loaded table becomes READY or replaces the slot at a boundary with no references -/
  | tableLoadDone (t : Fin 64)
  /-- TABLE_CLOSE (R431): TABLE_COMMAND CLOSE sets a READY table slot CLOSING -/
  | tableClose (t : Fin 64)
  /-- TABLE_CLOSE_DONE (R431): A CLOSING table slot becomes EMPTY at the first boundary with no references -/
  | tableCloseDone (t : Fin 64)
  /-- POOL_READ_REPLY (R501): A pool read reply arrives; valid data complete the read, stale tags are dropped -/
  | poolReadReply (tag : Fin 4096) (data : List Byte)
  /-- POOL_READ_TIMEOUT (R501): A pool read without reply or with poison fails and its tag is quarantined -/
  | poolReadTimeout (tag : Fin 4096) (poison : Bool)
  /-- POOL_TAG_QUARANTINE_END (R501): A quarantined tag returns to use after POOL_TAG_QUARANTINE_NS -/
  | poolTagQuarantineEnd (tag : Fin 4096)
  /-- POOL_LINK_DOWN (R503): While the pool link is down every read fails at once -/
  | poolLinkDown
  /-- BAG_POOL (R434): A pooling unit sums a bag's weighted widened rows and writes the vector to a feature page -/
  | bagPool (r : Nat) (c : Nat) (f : Nat)
  /-- ROW_CACHE_DECISION (R443): At each beat multiple of 1 024 hot table chunks are admitted to the row cache -/
  | rowCacheDecision
  /-- CHUNK_FILL_DONE (R443): An admitted chunk is filled from the pool and serves reads -/
  | chunkFillDone (t : Fin 64) (c : Nat) (bytes : List Byte)
  /-- PROMPT_PACK (R453): Stage 15 packs the question and the best passages into the template under the budget -/
  | promptPack (r : Nat)
  /-- DATAGRAM_ARRIVAL (R458): A datagram arrives, passes the readability checks and is queued for verification, or is dropped -/
  | datagramArrival (port : Fin 2) (net : Net) (bytes : List (BitVec 8))
  /-- REQUEST_FRAGMENT (R464): A verified REQUEST fragment starts or joins an assembly under the identifier window -/
  | requestFragment (port : Fin 2) (hint : Nat)
  /-- REASSEMBLY_TIMEOUT (R465): An assembly incomplete after REASSEMBLY_BEATS is discarded with NOTICE REASSEMBLY_TIMEOUT -/
  | reassemblyTimeout (t : Fin 256) (id : Nat)
  /-- CANCEL (R476): A CANCEL acts on the request's commits by stamp, or is held as a pre-cancel, or is unmatched -/
  | cancel (port : Fin 3) (f : Fin 256)
  /-- PRE_CANCEL_EXPIRY (R476): A pre-cancel held for REASSEMBLY_BEATS lapses -/
  | preCancelExpiry (t : Fin 256) (id : Nat)
  /-- FREE (R482): A FREE checks and frees the named RELEASED buffers and answers FREE_RESULT -/
  | free (port : Fin 3) (f : Fin 256) (list : List (BitVec 8))
  /-- FETCH (R477): A FETCH resends named buffers' DATA messages or a request's response and completion -/
  | fetch (port : Fin 3) (f : Fin 256) (list : List (BitVec 8))
  /-- OUTPUT_RETAIN_EXPIRY (R481): A RELEASED buffer not freed within OUTPUT_RETAIN_BEATS is freed by the module -/
  | outputRetainExpiry (b : Fin 65536)
  /-- TENANT_DISABLE (R484): A tenant reaching FOREIGN_FREE_LIMIT is disabled at the next boundary and its requests ended -/
  | tenantDisable (t : Fin 256)
  /-- SUBMISSION_ENTRY_WRITE (R493): Host writes into a submission entry mark its bytes written -/
  | submissionEntryWrite (f : Fin 256) (off : Fin 16384) (bytes : List (BitVec 8))
  /-- SUB_TAIL_DOORBELL (R493): A SUB_TAIL write accepts whole submission entries up to the new tail -/
  | subTailDoorbell (f : Fin 256) (tail : Fin 512)
  /-- BODY_DMA_COMPLETE (R493): A request body read through TA-DMA completes or fails, and the request reaches the gate -/
  | bodyDmaComplete (r : Nat) (ok : Bool) (bytes : List (BitVec 8)) (hint : Nat)
  /-- FN_CONTROL_WRITE (R491): A FN_CONTROL write enables or disables the function's rings, or sets CONFIG_ERROR -/
  | fnControlWrite (f : Fin 256) (v : BitVec 32) (cplBase : BitVec 64) (outBase : BitVec 64)
  /-- CPL_HEAD_WRITE (R495): The host advances CPL_HEAD, freeing completion ring space for waiting entries -/
  | cplHeadWrite (f : Fin 256) (v : Fin 131072) (cycles : Nat)
  /-- HOT_RESET (R498): A hot reset stops DMA of every function and ends ring-bound requests with HOST_RESET -/
  | hotReset
  /-- FLR (R498): A function level reset does the same for one function -/
  | flr (f : Fin 256)
  /-- PCIE_LINK_DOWN (R498): Loss of the PCIe link acts on every function and ends the mailbox session -/
  | pcieLinkDown
  /-- FUNCTION_READY (R498): READY returns to 1 within 100 µs of the end of the reset -/
  | functionReady (f : Fin 256) (rate : Fin 256) (lanes : Fin 256)
  /-- MB_GO (R534): A write of GO to MB_CONTROL submits the mailbox message to keeper 0 -/
  | mbGo (bytes : List (BitVec 8))
  /-- PEER_STEP_START (R224): A STEP_START flit tells a segment to start a step at its beat under its epoch -/
  | peerStepStart (l : Fin 8) (hdr : BitVec 128) (start : Nat) (fold : Nat)
  /-- PEER_DATA (R505): A DATA flit writes into a staging area and increments a counter if its epoch is current -/
  | peerData (l : Fin 8) (hdr : BitVec 128) (payload : List (BitVec 8)) (ref : BitVec 32) (mag : BitVec 32) (sk : List (BitVec 32)) (reply : Bool)
  /-- PEER_INCREMENT (R505): An INCREMENT flit increments a sync counter on the receiving array -/
  | peerIncrement (l : Fin 8) (hdr : BitVec 128)
  /-- PEER_COURSE_END (R505): A COURSE_END flit reports a segment's end of course to the lead -/
  | peerCourseEnd (l : Fin 8) (hdr : BitVec 128)
  /-- PEER_LINK_CONTROL (R505): A LINK_CONTROL flit carries link management in the service reserve -/
  | peerLinkControl (l : Fin 8) (hdr : BitVec 128) (ack : Fin 65536)
  /-- PEER_FLIT_CRC_FAIL (R504): A flit CRC failure is recovered by go-back-N replay -/
  | peerFlitCrcFail (l : Fin 8)
  /-- PEER_LANE_FAULT (R508): A lane fault retrains the peer link to the largest width its good lanes allow -/
  | peerLaneFault (l : Fin 8) (bad : Fin 9) (good : Fin 9)
  /-- PEER_RETRAIN_DONE (R508): The retrained link sends its first flit at the new width and replays held flits -/
  | peerRetrainDone (l : Fin 8) (lane : Fin 8) (ns : Nat)
  /-- PEER_LINK_FAIL (R509): A link untrainable for 100 µs or disabled is FAILED and its stakes DEGRADED -/
  | peerLinkFail (l : Fin 8)
  /-- SPINE_FLIT_RESEND (R597): An uncorrectable spine flit is sent again -/
  | spineFlitResend (inst : Nat) (ns : Nat)
  /-- D2D_FLIT_RETRY (R597): A die-to-die flit CRC failure is replayed -/
  | d2dFlitRetry (inst : Nat) (ns : Nat)
  /-- LINK_LANE_REPAIR (R607): A lane failing three retries is replaced, or its module disabled, or the link fails -/
  | linkLaneRepair (inst : Nat) (module : Nat) (lane : Nat) (spare : Nat) (ns : Nat)
  /-- FRAME_REPEAT (R518): The repeater forwards a chain frame to the other port once its header has arrived -/
  | frameRepeat (up : Bool) (hdr : BitVec 128) (payload : List (BitVec 8)) (fcs : Bool)
  /-- ENUMERATE (R522): An ENUMERATE gives the module its address and beat delay, is forwarded, and is answered with ENUM_REPLY -/
  | enumerate (hop : Fin 256) (acc : Fin 4294967296)
  /-- PROBE (R521): A PROBE from the downstream neighbour is answered with ECHO -/
  | probe (src : Fin 128)
  /-- ECHO (R521): An ECHO completes the upstream delay measurement -/
  | echo (delay : Fin 4294967296) (src : Fin 128)
  /-- PATH_DOWN (R525): A PATH_DOWN breaks the module's chain-held lock and is forwarded downstream -/
  | pathDown (src : Fin 128)
  /-- UPSTREAM_LINK_UP (R521): The upstream chain link comes up and the upstream delay is measured -/
  | upstreamLinkUp
  /-- UPSTREAM_LINK_DOWN (R525): Loss of the upstream link breaks the chain lock, sends PATH_DOWN and enters HOLD -/
  | upstreamLinkDown (cutUp : Bool) (cutDown : Bool)
  /-- ADDRESS_HOLD_EXPIRY (R525): A module in HOLD for ADDRESS_HOLD_BEATS takes address 0 -/
  | addressHoldExpiry
  /-- BEAT_WORD (R526): A beat word arrives on the beat input and advances lock, holdover exit or error counts -/
  | beatWord (word : BitVec 64) (off : Int) (gap : Nat)
  /-- BEAT_MARKER_MISSING (R528): No marker within 1.5 periods in LOCKED puts the module in HOLDOVER -/
  | beatMarkerMissing
  /-- HOLDOVER_LIMIT (R529): HOLDOVER_BEATS reaching HOLDOVER_LIMIT stops spanning stakes -/
  | holdoverLimit
  /-- DICT_READ (R537): A READ returns an object's value -/
  | dictRead (path : Fin 2) (hdr : BitVec 128) (payload : List (BitVec 8)) (full : Nat)
  /-- DICT_WRITE (R537): A WRITE sets an RW or WO object, or stages an RWL or RWP write, for objects without a row of their own -/
  | dictWrite (path : Fin 2) (hdr : BitVec 128) (payload : List (BitVec 8)) (full : Nat)
  /-- SEG_READ_INIT (R540): Opens a segmented read with a snapshot of the BLOB and returns its length -/
  | segReadInit (path : Fin 2) (hdr : BitVec 128) (payload : List (BitVec 8)) (full : Nat)
  /-- SEG_READ (R540): Returns one 1 024-byte segment of the snapshot -/
  | segRead (path : Fin 2) (hdr : BitVec 128) (payload : List (BitVec 8)) (full : Nat)
  /-- SEG_WRITE_INIT (R540): Opens a segmented write of a BLOB of given length -/
  | segWriteInit (path : Fin 2) (hdr : BitVec 128) (payload : List (BitVec 8)) (full : Nat)
  /-- SEG_WRITE (R540): Delivers one write segment; the last one triggers the object's own checks -/
  | segWrite (path : Fin 2) (hdr : BitVec 128) (payload : List (BitVec 8)) (full : Nat)
  /-- SEG_ABORT (R540): Discards the path's open segmented transfer -/
  | segAbort (path : Fin 2) (hdr : BitVec 128) (payload : List (BitVec 8)) (full : Nat)
  /-- SEG_TIMEOUT (R540): A transfer idle for SEG_TIMEOUT_BEATS is discarded -/
  | segTimeout (path : Fin 2)
  /-- LOCK_ACQUIRE (R543): Grants the session lock with a new handle and lease, or answers LOCK_HELD -/
  | lockAcquire (path : Fin 2) (hdr : BitVec 128) (payload : List (BitVec 8)) (full : Nat)
  /-- LOCK_RENEW (R543): Restarts the lease of the held lock -/
  | lockRenew (path : Fin 2) (hdr : BitVec 128) (payload : List (BitVec 8)) (full : Nat)
  /-- LOCK_COMMIT (R542): Fixes the staged set for application at the next beat boundary -/
  | lockCommit (path : Fin 2) (hdr : BitVec 128) (payload : List (BitVec 8)) (full : Nat)
  /-- COMMIT_APPLY (R542): At the boundary the fixed set is checked in order and applied whole or refused whole -/
  | commitApply
  /-- LOCK_ABORT (R543): Discards the staged set and keeps the lock -/
  | lockAbort (path : Fin 2) (hdr : BitVec 128) (payload : List (BitVec 8)) (full : Nat)
  /-- LOCK_RELEASE (R543): Discards the staged set and frees the lock -/
  | lockRelease (path : Fin 2) (hdr : BitVec 128) (payload : List (BitVec 8)) (full : Nat)
  /-- LOCK_BREAK (R543): BREAK over the chain breaks a lock held by either path -/
  | lockBreak (path : Fin 2) (hdr : BitVec 128) (payload : List (BitVec 8)) (full : Nat)
  /-- LOCK_LEASE_EXPIRY (R544): The lock breaks at the first boundary at which its lease has run out -/
  | lockLeaseExpiry
  /-- AGEING_SAMPLE (R609): Every AGEING_PERIOD_BEATS each ON monitored domain is sampled for V_min -/
  | ageingSample (d : Fin 38) (vmin : Fin 65536) (vmin50 : Fin 65536) (supply : Fin 65536)
  /-- UPDATE_ACTIVATE (R630): UPDATE_COMMAND ACTIVATE starts a drain, then a restart into the verified image on trial -/
  | updateActivate
  /-- UPDATE_CONFIRM (R630): UPDATE_COMMAND CONFIRM makes the trial image preferred -/
  | updateConfirm
  /-- UPDATE_CANCEL (R630): UPDATE_COMMAND CANCEL ends a drain or a trial -/
  | updateCancel
  /-- DRAIN_END (R631): At the first boundary with nothing in flight the drain ends and the restart follows -/
  | drainEnd
  /-- PIN_HOLD_END (R646): The neutral hold of a switched pin ends and its new function starts -/
  | pinHoldEnd (n : Fin 12)
  /-- FAULT_PULSE_END (R641): The 10 ms assertion of FAULT_N or ALERT_N after an event ends -/
  | faultPulseEnd (alert : Bool)
  /-- UART_TAP_RESTART (R645): A restart frame on UART_RX restarts the record tap at a given number -/
  | uartTapRestart (frame : List Byte)
  /-- TAP_RESET (R648): TRST_N low or five TCK cycles with TMS high reset the TAP -/
  | tapReset
  /-- BYPASS (R648): The BYPASS instruction, also taken for every unimplemented code -/
  | bypass
  /-- IDCODE (R648): The IDCODE instruction returns 0xB838_4001 -/
  | idcode
  /-- SAMPLE_PRELOAD (R648): The SAMPLE/PRELOAD instruction samples the boundary-scan register -/
  | samplePreload (outside : BitVec 17) (preload : BitVec 17)
  /-- EXTEST (R648): EXTEST drives the boundary-scan pins while the main switch is open -/
  | extest
  /-- CLAMP (R648): CLAMP holds the boundary-scan pins while the main switch is open -/
  | clamp
  /-- HIGHZ (R648): HIGHZ floats the boundary-scan pins while the main switch is open -/
  | highz
  /-- DOWNSTREAM_LINK_DOWN (R519): The downstream chain link goes down; a frame being forwarded on it is ended with a corrupt FCS, LINK_STATE bit 1 clears and a CHAIN_LINK record is written -/
  | downstreamLinkDown (cutUp : Bool) (cutDown : Bool)
  /-- DOWNSTREAM_LINK_UP (R523): The downstream chain link comes up, LINK_STATE bit 1 sets, the module is no longer the tail and a CHAIN_LINK record is written -/
  | downstreamLinkUp
  /-- POOL_LINK_UP (R503): The CXL pool link trains, POOL_LINK reports it trained, and pool reads and table loads no longer fail at once -/
  | poolLinkUp (rate : Nat) (lanes : Nat)
  /-- PEER_LINK_TRAINED (R509): A peer link finishes training, becomes UP and records the chain address and link number of the other end in PEER_REMOTE -/
  | peerLinkTrained (l : Fin 8) (good : Fin 9) (addr : Fin 256) (num : Fin 256)
  /-- ETHERNET_LINK_DOWN (R583): An Ethernet port's link goes down, its recovered ECLK stops and the crossings of its MAC and PCS reset under R587 -/
  | ethernetLinkDown (port : Fin 2)
  /-- ETHERNET_LINK_UP (R583): An Ethernet port's link comes up, ECLK is recovered again and the port's crossings reopen -/
  | ethernetLinkUp (port : Fin 2)
  /-- INLET_TEMP_RECOVERED (R656): After an excursion above 45.0 °C the inlet has stayed at or below 45.0 °C for 100 ms, and array domains may be woken again -/
  | inletTempRecovered (temp : Int)
  /-- DATAGRAM_AUTH_FAIL (R463): A queued datagram's trailer fails HMAC verification; it is dropped without reply, takes no ingress number and counts in AUTH_FAILS -/
  | datagramAuthFail (port : Fin 2)
  /-- BOOT_CORE_EXCEPTION (R623): A reed core takes an exception before step 11, failing the image attempt; domains are reset and the next image is tried -/
  | bootCoreException
  /-- SLOT_LEDGER_REBUILT (R169): Keeper 0 finishes rebuilding the slot ledger from all live tables, and loads and unloads are served again -/
  | slotLedgerRebuilt
  /-- INDEX_DIRECTORY_REBUILT (R608): The index directory rebuilt from its checkpoint and journal after both copies were lost is complete, and windows start again -/
  | indexDirectoryRebuilt
  /-- TEXT_FLUSH_TIMEOUT (R378): A text page whose first frame has waited SIDE_FLUSH_BEATS is programmed although not full -/
  | textFlushTimeout
  /-- VF_ENABLE_CHANGE (R488): A configuration write of VF Enable or NumVFs changes which tenants have an enabled virtual function on the PCIe port -/
  | vfEnableChange (en : Bool) (n : Fin 256)
  deriving DecidableEq, Repr

end Sys2Proof
end

