-- ==== Sys2Proof/Decode.lean ====
section
/-!
DEFINITION. The commands that words spell: spec/opcode_table.json gives none of its rows any bits, because a command is
an occurrence of a step of the module and not a word in a memory, so no word spells a command.
-/
namespace Sys2Proof

/-- The command a word of the opcode table spells: none, because no row has bits. -/
def decodeTableWord (_nbits _w : Nat) : Option Instr := none

end Sys2Proof
end

