-- ==== Sys2Proof/Config.lean ====
section
/-!
DEFINITION. What the spec leaves to the device or leaves open: every constant here is OPAQUE, so no proof can lean on
a value of it, and a statement about it holds whatever it is.  Each is named in notes/assumptions.
-/
namespace Sys2Proof.Config

/-- A value the spec does not fix, one for each time it is asked for; State.freeCtr says which (DESIGN CHOICE; log entry 3). -/
opaque freeValue : Nat → Nat

/-- The edge unit's exp: a fixed function of its FP32 input bits, within 2 units in the last place (R58, DESIGN CHOICE; log entry 4). -/
opaque expFn : FP32 → FP32
/-- The edge unit's GELU (R58). -/
opaque geluFn : FP32 → FP32
/-- The edge unit's SiLU (R58). -/
opaque siluFn : FP32 → FP32
/-- The edge unit's reciprocal square root, within 2 units in the last place (R130). -/
opaque rsqrtFn : FP32 → FP32

/-- The digest of the boot ROM, fixed for each ROM revision (R625). -/
opaque romDigest : Nat

/-- The Device ID and the Vendor ID of the PCIe functions (R487, R514; DESIGN CHOICE; log entry 52). -/
opaque pcieIds : Nat

/-- The frame a compressor forms from a text with the bytes of a dictionary (R379). -/
opaque zstdEncode : List Byte → List Byte → List Byte

/-- The tokens a projection counts for a text that no trie unit has tokenized yet, by its bytes (R262, DEDUCED; log entry 34). -/
opaque guessTokens : Nat → Nat

end Sys2Proof.Config
end

