-- ==== Sys2Proof/Machine/Tables.lean ====
section
/-!
DEFINITION. Operations on the sparse tables of the state, and the bit-field and byte-order helpers every chapter uses.
-/
namespace Sys2Proof.Machine

section
variable {α : Type}

/-- What a table reads at a key: the listed entry, or `d`, what an unlisted key reads as. -/
def tGet (d : α) : Tbl α → Nat → α
  | [], _ => d
  | (j, w) :: r, k => if j = k then w else tGet d r k

/-- Whether a key is listed. -/
def tHas : Tbl α → Nat → Bool
  | [], _ => false
  | (j, _) :: r, k => j == k || tHas r k

/-- The table with key `k` unlisted. -/
def tDel (k : Nat) : Tbl α → Tbl α
  | [] => []
  | (j, w) :: r => if j = k then tDel k r else (j, w) :: tDel k r

/-- The table with `v` listed under `k`, in rising order of keys. -/
def tIns (k : Nat) (v : α) : Tbl α → Tbl α
  | [] => [(k, v)]
  | (j, w) :: r =>
    if k < j then (k, v) :: (j, w) :: r
    else if k = j then (k, v) :: r
    else (j, w) :: tIns k v r

/-- Writing `v` at `k`, in canonical form: writing what an unlisted key reads as removes the entry. -/
def tSet [DecidableEq α] (d : α) (t : Tbl α) (k : Nat) (v : α) : Tbl α :=
  if v = d then tDel k t else tIns k v t

/-- Changing the entry at `k` by `f`. -/
def tMod [DecidableEq α] (d : α) (t : Tbl α) (k : Nat) (f : α → α) : Tbl α :=
  tSet d t k (f (tGet d t k))

/-- The table with every listed entry whose key meets `p` unlisted. -/
def tDrop (p : Nat → Bool) (t : Tbl α) : Tbl α := t.filter fun e => !p e.1

/-- The table with every listed entry changed by `f`, unlisting those that become `d`. -/
def tMap [DecidableEq α] (d : α) (t : Tbl α) (f : Nat → α → α) : Tbl α :=
  (t.map fun e => (e.1, f e.1 e.2)).filter fun e => decide (e.2 ≠ d)

/-- The listed keys whose entry meets `p`, rising. -/
def tKeys (t : Tbl α) (p : Nat → α → Bool) : List Nat :=
  (t.filter fun e => p e.1 e.2).map (·.1)

/-- The keys are strictly rising from a lower bound. -/
def risingFrom : Nat → Tbl α → Bool
  | _, [] => true
  | n, (j, _) :: r => decide (n ≤ j) && risingFrom (j + 1) r

/-- The canonical form of a table: keys strictly rising, and no entry equal to what an unlisted key reads as. -/
def tWf [DecidableEq α] (d : Nat → α) (t : Tbl α) : Bool :=
  risingFrom 0 t && t.all fun e => decide (e.2 ≠ d e.1)

end

/-- Bits [h:l] of a number (R9). -/
def bits (v h l : Nat) : Nat := v / 2 ^ l % 2 ^ (h + 1 - l)

/-- Bit i of a number, as a Bool (R9). -/
def bitAt (v i : Nat) : Bool := v / 2 ^ i % 2 == 1

/-- A number with bit i set to b. -/
def setBitTo (v i : Nat) (b : Bool) : Nat :=
  let c := if bitAt v i then v - 2 ^ i else v
  if b then c + 2 ^ i else c

/-- A Bool as 0 or 1. -/
def b2n (b : Bool) : Nat := if b then 1 else 0

/-- Ceiling division. -/
def cdiv (a b : Nat) : Nat := (a + b - 1) / b

/-- The number of set bits of the low `n` bits of `v`. -/
def popCount : Nat → Nat → Nat
  | 0, _ => 0
  | n + 1, v => v % 2 + popCount n (v / 2)

/-- The positions of the set bits of the low `n` bits of `v`, rising. -/
def setBits (n v : Nat) : List Nat := (List.range n).filter fun i => bitAt v i

/-- Fields of a field map, most significant first, as one number (R13): each a width and a value. -/
def packFields (fs : List (Nat × Nat)) : Nat :=
  fs.foldl (fun acc f => acc * 2 ^ f.1 + f.2 % 2 ^ f.1) 0

/-- The total width of a list of fields. -/
def fieldsWidth (fs : List (Nat × Nat)) : Nat := fs.foldl (fun acc f => acc + f.1) 0

/-- The bytes of a number, least significant first (R11). -/
def leBytes : Nat → Nat → List Byte
  | 0, _ => []
  | n + 1, v => BitVec.ofNat 8 v :: leBytes n (v / 256)

/-- The bytes of a number, most significant first (R12). -/
def beBytes (n v : Nat) : List Byte := (leBytes n v).reverse

/-- The number bytes spell, least significant first (R11). -/
def leNat : List Byte → Nat
  | [] => 0
  | b :: r => b.toNat + 256 * leNat r

/-- The number bytes spell, most significant first (R12). -/
def beNat (bs : List Byte) : Nat := bs.foldl (fun acc b => acc * 256 + b.toNat) 0

/-- `n` bytes from offset `o`, absent bytes reading 0. -/
def sliceB (bs : List Byte) (o n : Nat) : List Byte :=
  let r := (bs.drop o).take n
  r ++ List.replicate (n - r.length) 0

/-- The little-endian number of `n` bytes at offset `o`. -/
def leAt (bs : List Byte) (o n : Nat) : Nat := leNat (sliceB bs o n)

/-- The big-endian number of `n` bytes at offset `o`. -/
def beAt (bs : List Byte) (o n : Nat) : Nat := beNat (sliceB bs o n)

/-- Bits [h:l] of a little-endian structure held in bytes (R9, R11). -/
def leBits (bs : List Byte) (h l : Nat) : Nat := bits (leNat bs) h l

/-- Saturating to `w` bits. -/
def sat (w v : Nat) : Nat := min v (2 ^ w - 1)

/-- The 16-bit two's-complement reading of an object of type I16. -/
def i16 (v : Nat) : Int := if v % 65536 < 32768 then (v % 65536 : Nat) else ((v % 65536 : Nat) : Int) - 65536

/-- The object bits of an I16 value. -/
def ofI16 (v : Int) : Nat := (v % 65536).toNat

/-- The object bits of an I32 value. -/
def ofI32 (v : Int) : Nat := (v % 4294967296).toNat

/-- Apply `f` along a list of inputs. -/
def applyAll {σ β : Type} (f : σ → β → σ) (s : σ) (xs : List β) : σ := xs.foldl f s

/-- The first `n` entries of a list, and the rest. -/
def insertBy {β : Type} (lt : β → β → Bool) (x : β) : List β → List β
  | [] => [x]
  | y :: r => if lt x y then x :: y :: r else y :: insertBy lt x r

/-- A stable insertion sort: entries that compare equal keep their order. -/
def sortBy {β : Type} (lt : β → β → Bool) (xs : List β) : List β :=
  xs.foldl (fun acc x => insertBy lt x acc) []

/-- Lexicographic order on keys written as lists of numbers. -/
def lexLt : List Nat → List Nat → Bool
  | [], [] => false
  | [], _ :: _ => true
  | _ :: _, [] => false
  | a :: x, b :: y => if a < b then true else if b < a then false else lexLt x y

end Sys2Proof.Machine
end

