-- ==== Sys2Proof/Machine/Num.lean ====
section
/-!
DEFINITION. Numeric formats and arithmetic (02_numeric_formats.md R39 to R68): exact values, the formats' encodings,
rounding, and the FP32 operations the arrays, edge units, pooling units and dice units perform.
-/
namespace Sys2Proof.Machine

/-- An exact value: a NaN, an infinity, or (-1)^neg * m * 2^e.  A zero keeps its sign. -/
inductive Val where
  | nan
  | inf (neg : Bool)
  | fin (neg : Bool) (m : Nat) (e : Int)
  deriving DecidableEq, Repr

/-- +0. -/
def Val.zero : Val := .fin false 0 0

/-- A format with sign, `eb` exponent bits and `mb` mantissa bits; the largest finite magnitude code, and how the
codes above it read (R44, R47). -/
structure Fmt where
  eb     : Nat
  mb     : Nat
  bias   : Nat
  maxC   : Nat
  hasInf : Bool
  hasNan : Bool
  deriving DecidableEq, Repr

def fmtE4M3 : Fmt := ⟨4, 3, 7, 0x7E, false, true⟩
def fmtE5M2 : Fmt := ⟨5, 2, 15, 0x7B, true, true⟩
def fmtE3M2 : Fmt := ⟨3, 2, 3, 0x1F, false, false⟩
def fmtE2M3 : Fmt := ⟨2, 3, 1, 0x1F, false, false⟩
def fmtE2M1 : Fmt := ⟨2, 1, 1, 0x7, false, false⟩
def fmtBF16 : Fmt := ⟨8, 7, 127, 0x7F7F, true, true⟩
def fmtFP16 : Fmt := ⟨5, 10, 15, 0x7BFF, true, true⟩
def fmtFP32 : Fmt := ⟨8, 23, 127, 0x7F7FFFFF, true, true⟩

/-- The sign bit's position. -/
def Fmt.sb (f : Fmt) : Nat := f.eb + f.mb

/-- The value of a code of a format; subnormals are honoured (R44). -/
def Fmt.dec (f : Fmt) (c : Nat) : Val :=
  let neg := bitAt c f.sb
  let mag := c % 2 ^ f.sb
  if mag ≤ f.maxC then
    let ex := mag / 2 ^ f.mb
    let mt := mag % 2 ^ f.mb
    if ex = 0 then .fin neg mt (1 - (f.bias : Int) - f.mb)
    else .fin neg (2 ^ f.mb + mt) ((ex : Int) - f.bias - f.mb)
  else if f.hasInf && mag == f.maxC + 1 then .inf neg
  else .nan

/-- `m * 2^k` as an integer, rounded to nearest with ties to even when k is negative (R59). -/
def rneShift (m : Nat) (k : Int) : Nat :=
  match k with
  | .ofNat j => m * 2 ^ j
  | .negSucc j =>
    let q := m / 2 ^ (j + 1)
    let r := m % 2 ^ (j + 1)
    if 2 * r < 2 ^ (j + 1) then q
    else if 2 ^ (j + 1) < 2 * r then q + 1
    else q + q % 2

/-- `m * 2^k` as an integer, rounded stochastically with the 16-bit draw `n` (R65). -/
def srShift (m : Nat) (k : Int) (n : Nat) : Nat :=
  match k with
  | .ofNat j => m * 2 ^ j
  | .negSucc j =>
    let q := m / 2 ^ (j + 1)
    let r := m % 2 ^ (j + 1)
    if 65536 ≤ r * 65536 / 2 ^ (j + 1) + n then q + 1 else q

/-- The exponent of the spacing of a format's values at `m * 2^e` (m positive). -/
def Fmt.quantum (f : Fmt) (m : Nat) (e : Int) : Int :=
  max ((Nat.log2 m : Int) + e) (1 - (f.bias : Int)) - f.mb

/-- The magnitude code of `m * 2^e` before the range check: beyond `maxC` it lies beyond the largest finite value. -/
def Fmt.magCode (f : Fmt) (m : Nat) (e : Int) (sr : Option Nat) : Nat :=
  if m = 0 then 0 else
    let q := f.quantum m e
    let n := match sr with
      | none => rneShift m (e - q)
      | some d => srShift m (e - q) d
    ((q + f.mb + f.bias - 1).toNat) * 2 ^ f.mb + n

/-- A code with its sign. -/
def Fmt.withSign (f : Fmt) (neg : Bool) (mag : Nat) : Nat := if neg then 2 ^ f.sb + mag else mag

/-- The canonical NaN of a format (R48). -/
def Fmt.nanC (f : Fmt) : Nat :=
  if f = fmtE4M3 then 0x7F else if f = fmtE5M2 then 0x7E else f.maxC + 1 + 2 ^ (f.mb - 1)

/-- Rounding an exact value to FP32 by RNE with IEEE overflow to infinity (R53, R54); a zero keeps its sign. -/
def rne32 (v : Val) : FP32 :=
  match v with
  | .nan => 0x7FC00000#32
  | .inf n => if n then 0xFF800000#32 else 0x7F800000#32
  | .fin n m e => BitVec.ofNat 32 (fmtFP32.withSign n (min (fmtFP32.magCode m e none) 0x7F800000))

/-- The exact value of FP32 bits. -/
def val32 (b : FP32) : Val := fmtFP32.dec b.toNat

/-- +0, 1, −∞, +∞ and the canonical NaN in FP32. -/
def f32zero : FP32 := 0x00000000#32
def f32one : FP32 := 0x3F800000#32
def f32ninf : FP32 := 0xFF800000#32
def f32inf : FP32 := 0x7F800000#32
def f32nan : FP32 := 0x7FC00000#32

def Val.isNan : Val → Bool | .nan => true | _ => false
def Val.isFin : Val → Bool | .fin _ _ _ => true | _ => false
def Val.isZero : Val → Bool | .fin _ m _ => m == 0 | _ => false
def isNan32 (b : FP32) : Bool := (val32 b).isNan

/-- A signed dyadic as an exact value; an exact zero is +0 (R55). -/
def ofDyadic (m : Int) (e : Int) : Val := .fin (decide (m < 0)) m.natAbs e

/-- The signed mantissa. -/
def sgn (neg : Bool) (m : Nat) : Int := if neg then -(m : Int) else m

/-- The exact sum; +0 when it is zero, whatever the signs (R55); ∞ − ∞ is NaN (R67). -/
def Val.add : Val → Val → Val
  | .nan, _ => .nan
  | _, .nan => .nan
  | .inf a, .inf b => if a = b then .inf a else .nan
  | .inf a, .fin _ _ _ => .inf a
  | .fin _ _ _, .inf b => .inf b
  | .fin na ma ea, .fin nb mb eb =>
    if ma = 0 then (if mb = 0 then .zero else .fin nb mb eb)
    else if mb = 0 then .fin na ma ea
    else
      let e := min ea eb
      ofDyadic (sgn na ma * 2 ^ (ea - e).toNat + sgn nb mb * 2 ^ (eb - e).toNat) e

/-- The negated value. -/
def Val.neg : Val → Val
  | .nan => .nan
  | .inf a => .inf (!a)
  | .fin n m e => .fin (!n) m e

/-- The magnitude. -/
def Val.abs : Val → Val
  | .nan => .nan
  | .inf _ => .inf false
  | .fin _ m e => .fin false m e

/-- The exact product; 0 × ∞ is NaN (R67). -/
def Val.mul : Val → Val → Val
  | .nan, _ => .nan
  | _, .nan => .nan
  | .inf a, .inf b => .inf (a != b)
  | .inf a, .fin n m _ => if m = 0 then .nan else .inf (a != n)
  | .fin n m _, .inf b => if m = 0 then .nan else .inf (n != b)
  | .fin na ma ea, .fin nb mb eb => .fin (na != nb) (ma * mb) (ea + eb)

/-- The value times 2^k. -/
def Val.scale (v : Val) (k : Int) : Val :=
  match v with
  | .fin n m e => .fin n m (e + k)
  | w => w

/-- The quotient to more bits than any format keeps, with a sticky last bit, so that rounding it is rounding the
exact quotient (the divisions of R130, correctly rounded). -/
def Val.div : Val → Val → Val
  | .nan, _ => .nan
  | _, .nan => .nan
  | .inf _, .inf _ => .nan
  | .inf a, .fin n _ _ => .inf (a != n)
  | .fin n _ _, .inf b => .fin (n != b) 0 0
  | .fin na ma ea, .fin nb mb eb =>
    if mb = 0 then (if ma = 0 then .nan else .inf (na != nb))
    else
      let k := 320 + Nat.log2 mb
      let q := ma * 2 ^ k / mb
      let st := if ma * 2 ^ k % mb = 0 then 0 else 1
      .fin (na != nb) (2 * q + st) (ea - eb - k - 1)

/-- a < b as numbers; −0 equals +0 (R68).  A NaN is less than nothing and nothing is less than it. -/
def Val.lt : Val → Val → Bool
  | .nan, _ => false
  | _, .nan => false
  | .inf a, .inf b => a && !b
  | .inf a, .fin _ _ _ => a
  | .fin _ _ _, .inf b => !b
  | .fin na ma ea, .fin nb mb eb =>
    let e := min ea eb
    decide (sgn na ma * 2 ^ (ea - e).toNat < sgn nb mb * 2 ^ (eb - e).toNat)

/-- FP32 addition with one RNE rounding (R55). -/
def add32 (a b : FP32) : FP32 := rne32 ((val32 a).add (val32 b))
/-- FP32 subtraction with one RNE rounding. -/
def sub32 (a b : FP32) : FP32 := rne32 ((val32 a).add (val32 b).neg)
/-- FP32 multiplication with one RNE rounding. -/
def mul32 (a b : FP32) : FP32 := rne32 ((val32 a).mul (val32 b))
/-- FP32 division, correctly rounded. -/
def div32 (a b : FP32) : FP32 := rne32 ((val32 a).div (val32 b))
/-- a < b in FP32. -/
def lt32 (a b : FP32) : Bool := (val32 a).lt (val32 b)
/-- The larger of two; NaN if either is (R68, online softmax maximum). -/
def max32 (a b : FP32) : FP32 :=
  if isNan32 a || isNan32 b then f32nan else if lt32 a b then b else a
/-- A natural number in FP32. -/
def ofNat32 (n : Nat) : FP32 := rne32 (.fin false n 0)

/-- Whether an addition of two finite values overflowed to an infinity (R54). -/
def overflowed (a b r : FP32) : Bool :=
  (val32 a).isFin && (val32 b).isFin && !(val32 r).isFin && !isNan32 r

/-- The edge-unit functions; NaN gives NaN (R67), exp of −∞ is weight 0 (R68). (DESIGN CHOICE; log entry 4) -/
def exp32 (x : FP32) : FP32 :=
  if isNan32 x then f32nan else if x = f32ninf then f32zero else Config.expFn x
def gelu32 (x : FP32) : FP32 := if isNan32 x then f32nan else Config.geluFn x
def silu32 (x : FP32) : FP32 := if isNan32 x then f32nan else Config.siluFn x
def rsqrt32 (x : FP32) : FP32 := if isNan32 x then f32nan else Config.rsqrtFn x

/-- The format codes of R112. -/
def fmtBits (code : Nat) : Nat :=
  match code with
  | 1 => 8 | 2 => 8 | 3 => 6 | 4 => 6 | 5 => 4 | 6 => 8 | 7 => 16 | 8 => 16 | 9 => 32 | 10 => 1 | 11 => 32
  | _ => 0

/-- Whether a format code names a format with E8M0 block scales (R39). -/
def fmtScaled (code : Nat) : Bool := decide (1 ≤ code ∧ code ≤ 6)

/-- The value of an element code of a format (R44, R45, R47); MXINT8 is two's complement times 2^−6. -/
def decElem (fmt c : Nat) : Val :=
  match fmt with
  | 1 => fmtE4M3.dec c
  | 2 => fmtE5M2.dec c
  | 3 => fmtE3M2.dec c
  | 4 => fmtE2M3.dec c
  | 5 => fmtE2M1.dec c
  | 6 => if c < 128 then .fin false c (-6) else .fin true (256 - c) (-6)
  | 7 => fmtBF16.dec c
  | 8 => fmtFP16.dec c
  | 9 => fmtFP32.dec c
  | _ => .zero

/-- An element with its block's scale byte: 0xFF is NaN for every element (R41). -/
def decScaled (fmt c e : Nat) : Val :=
  if fmtScaled fmt then
    (if e = 255 then .nan else (decElem fmt c).scale ((e : Int) - 127))
  else decElem fmt c

/-- The element formats of an MX block, with emax (R62). -/
def emaxOf (fmt : Nat) : Int :=
  match fmt with
  | 1 => 8 | 2 => 15 | 3 => 4 | 4 => 2 | 5 => 2 | _ => 0

def fmtOf (fmt : Nat) : Fmt :=
  match fmt with
  | 1 => fmtE4M3 | 2 => fmtE5M2 | 3 => fmtE3M2 | 4 => fmtE2M3 | 5 => fmtE2M1 | 7 => fmtBF16 | 8 => fmtFP16
  | _ => fmtFP32

/-- What a narrowing conversion gives: a code, or "the whole block's scale becomes 0xFF" (R61). -/
inductive Conv where
  | code (c : Nat)
  | blockNan
  deriving DecidableEq, Repr

/-- Conversion of a value to a floating element or word format, with the overflow mode (prop) and the rounding (R59
to R61, R65). -/
def convFloat (f : Fmt) (prop : Bool) (sr : Option Nat) (v : Val) : Conv :=
  let beyond (neg : Bool) : Conv :=
    if prop then
      (if f.hasInf then .code (f.withSign neg (f.maxC + 1))
       else if f.hasNan then .code f.nanC else .blockNan)
    else .code (f.withSign neg f.maxC)
  match v with
  | .nan => if f.hasNan then .code f.nanC else .blockNan
  | .inf n => beyond n
  | .fin n m e =>
    let c := f.magCode m e sr
    if c ≤ f.maxC then .code (f.withSign n c) else beyond n

/-- Conversion to MXINT8, saturating to the symmetric range (R45, R60: one zero). -/
def convInt8 (prop : Bool) (sr : Option Nat) (v : Val) : Conv :=
  match v with
  | .nan => .blockNan
  | .inf n => if prop then .blockNan else .code (if n then 129 else 127)
  | .fin n m e =>
    let q := match sr with
      | none => rneShift m (e + 6)
      | some d => srShift m (e + 6) d
    if q ≤ 127 then .code (if n then (256 - q) % 256 else q)
    else if prop then .blockNan else .code (if n then 129 else 127)

/-- Conversion of one value to an element or word of a format (R61). -/
def convElem (fmt : Nat) (prop : Bool) (sr : Option Nat) (v : Val) : Conv :=
  if fmt = 6 then convInt8 prop sr v else convFloat (fmtOf fmt) prop sr v

/-- floor(log2) of the largest finite magnitude of a block's inputs, if any is non-zero. -/
def amaxLog (xs : List Val) : Option Int :=
  xs.foldl (fun acc v => match v with
    | .fin _ m e => if m = 0 then acc else
        let l := (Nat.log2 m : Int) + e
        (match acc with
         | none => some l
         | some a => some (max a l))
    | _ => acc) none

/-- The scale exponent of a block (R62). -/
def blockExp (fmt : Nat) (xs : List Val) : Int :=
  match amaxLog xs with
  | none => -127
  | some l => min (max (l - emaxOf fmt) (-127)) 127

/-- Conversion of one block to an MX format: the scale byte and the element codes (R62, R63).  A block with an
element that turns its scale into NaN has scale 0xFF and every element 0. -/
def convBlock (fmt : Nat) (prop : Bool) (srs : List (Option Nat)) (xs : List Val) : Nat × List Nat :=
  let e := match amaxLog xs with
    | none => 0
    | some _ => blockExp fmt xs
  let sb := match amaxLog xs with
    | none => 0
    | some _ => (e + 127).toNat
  let cs := (xs.zip srs).map fun p => convElem fmt prop p.2 (p.1.scale (-e))
  if cs.any (fun c => c == .blockNan) then (255, xs.map fun _ => 0)
  else (sb, cs.map fun c => match c with | .code k => k | .blockNan => 0)

/-- Widening to FP32, exact (R59). -/
def widen (fmt c e : Nat) : FP32 := rne32 (decScaled fmt c e)

/-- The exact sum of the products of one group (R53): pairs of element values. -/
def groupSum (ps : List (Val × Val)) : Val :=
  ps.foldl (fun acc p => acc.add (p.1.mul p.2)) .zero

/-- One cell pass: out = rne(in + scale × G) (R53). -/
def cellPass (inp : FP32) (g : Val) : FP32 := rne32 ((val32 inp).add g)

/-- Order of values in a top-k channel: larger first; NaN below −∞ on channels 0 to 2, above +∞ on channel 3; equal
values to the lower index (R68). -/
def topkBefore (ch3 : Bool) (a b : FP32 × Nat) : Bool :=
  let na := isNan32 a.1
  let nb := isNan32 b.1
  if na && nb then decide (a.2 < b.2)
  else if na then ch3
  else if nb then !ch3
  else if lt32 b.1 a.1 then true
  else if lt32 a.1 b.1 then false
  else decide (a.2 < b.2)

/-- An E8M0-free reading of an embedding element greater than zero (R51). -/
def positive32 (x : FP32) : Bool :=
  match val32 x with
  | .inf n => !n
  | .fin n m _ => !n && m != 0
  | .nan => false

/-- Popcount distance of two codes of width w (R50). -/
def hamming (w a b : Nat) : Nat := popCount w (Nat.xor a b)

end Sys2Proof.Machine
end

