-- ==== Sys2Proof/Machine/Objects.lean ====
section
/-!
DEFINITION. The object dictionary as the spec lays it out (18_dictionary_map.md R547 and the object tables of each
chapter): the families, every object's type, access kind and default, and a name for every object's key.
A key is index * 256 + subindex (R16).  Every register of the machine that the spec gives as an object of the
dictionary lives in State.od under its key; what this file gives is its width and its reset value (R15, R17).
-/
namespace Sys2Proof.Machine

/-- The types of R17. -/
inductive ObjTy where
  | u8 | u16 | u32 | u64 | i16 | i32 | f32 | bool
  | octets (n : Nat) | text (n : Nat) | blob
  deriving DecidableEq, Repr

/-- The width in bytes of a value of the type; a BLOB has none (R537). -/
def ObjTy.bytes : ObjTy → Nat
  | .u8 => 1 | .u16 => 2 | .u32 => 4 | .u64 => 8 | .i16 => 2 | .i32 => 4 | .f32 => 4 | .bool => 1
  | .octets n => n | .text n => n | .blob => 0

/-- The access kinds of R17. -/
inductive Acc where
  | ro | rw | wo | rwl | rwp
  deriving DecidableEq, Repr

/-- How the Default column of an object table gives a reset value: one constant for every instance, one for
instance 0 and another for the rest, the instance number modulo m, one value for each subindex, only bit t of
tenant t's own mask set (R373), or none ("—": the object is computed when it is read, or starts empty). -/
inductive Dflt where
  | const (v : Nat) | first (v0 v : Nat) | inst (m : Nat) | subs (vs : List Nat) | tenantBit | none
  deriving DecidableEq, Repr

/-- One row of an object table: the first and last subindex, type, access, default. -/
structure ObjRow where
  lo   : Nat
  hi   : Nat
  ty   : ObjTy
  acc  : Acc
  dflt : Dflt
  deriving DecidableEq, Repr

/-- One family of R547: first index, last index, what subindex 00 reads, and its other subindices. -/
structure ObjFam where
  base : Nat
  last : Nat
  sub0 : Nat
  rows : List ObjRow
  deriving DecidableEq, Repr

def rows1000 : List ObjRow := [
  ⟨0x01, 0x01, .u32, .ro, .const 0x80384⟩,
  ⟨0x02, 0x02, .u16, .ro, .const 177⟩,
  ⟨0x03, 0x03, .u32, .ro, .none⟩,
  ⟨0x04, 0x04, (.text 16), .ro, .const 0x59696C6D65646F6E⟩,
  ⟨0x05, 0x05, (.text 16), .ro, .const 0x566F6C72696C20565238⟩,
  ⟨0x06, 0x06, (.text 16), .ro, .const 0x5652382D3338344C⟩,
  ⟨0x07, 0x07, .u16, .ro, .const 1⟩,
  ⟨0x08, 0x08, (.octets 16), .ro, .const 0x20082008404010404020020010002000⟩]

def rows1100 : List ObjRow := [
  ⟨0x01, 0x01, .u8, .ro, .const 0⟩,
  ⟨0x02, 0x02, .u8, .ro, .const 0⟩,
  ⟨0x03, 0x03, .u32, .ro, .const 0⟩,
  ⟨0x04, 0x04, .u32, .ro, .const 0⟩,
  ⟨0x05, 0x05, .u8, .ro, .const 0⟩,
  ⟨0x06, 0x06, .u32, .rw, .const 10000⟩,
  ⟨0x07, 0x07, .u32, .ro, .const 0⟩,
  ⟨0x08, 0x08, .u64, .ro, .const 0⟩,
  ⟨0x09, 0x09, .u64, .ro, .const 0⟩,
  ⟨0x10, 0x10, .u8, .ro, .const 0⟩,
  ⟨0x11, 0x11, .u64, .ro, .const 0⟩,
  ⟨0x12, 0x12, .u8, .ro, .const 10⟩,
  ⟨0x13, 0x13, .u32, .rw, .const 100000⟩,
  ⟨0x14, 0x14, .u32, .ro, .const 0⟩,
  ⟨0x15, 0x15, .bool, .ro, .const 0⟩,
  ⟨0x16, 0x16, .u32, .ro, .const 0⟩,
  ⟨0x17, 0x17, .u64, .ro, .const 0⟩,
  ⟨0x18, 0x18, .i32, .ro, .const 0⟩,
  ⟨0x19, 0x19, .u8, .rwl, .const 0⟩,
  ⟨0x1A, 0x1A, .bool, .rwp, .const 0⟩,
  ⟨0x1B, 0x1B, .u8, .rwp, .const 10⟩,
  ⟨0x1C, 0x1C, .u32, .ro, .const 0⟩,
  ⟨0x20, 0x20, .u8, .rwp, .const 7⟩,
  ⟨0x21, 0x21, .u64, .ro, .const 0⟩,
  ⟨0x22, 0x22, .u64, .ro, .const 0⟩,
  ⟨0x23, 0x23, .u64, .ro, .const 0⟩,
  ⟨0x24, 0x24, .u32, .rw, .const 100000⟩]

def rows1200 : List ObjRow := [
  ⟨0x01, 0x01, .u8, .ro, .const 0⟩,
  ⟨0x02, 0x02, .u16, .ro, .const 0⟩,
  ⟨0x03, 0x03, .u32, .rw, .const 100000⟩,
  ⟨0x04, 0x04, .u32, .ro, .const 0⟩,
  ⟨0x05, 0x05, .u16, .ro, .const 0⟩,
  ⟨0x06, 0x06, .u32, .ro, .const 0⟩,
  ⟨0x07, 0x07, (.octets 16), .ro, .const 0⟩,
  ⟨0x08, 0x08, .bool, .ro, .const 0⟩,
  ⟨0x09, 0x09, .u32, .ro, .const 0⟩,
  ⟨0x0A, 0x0A, (.octets 16), .ro, .const 0⟩]

def rows2000 : List ObjRow := [
  ⟨0x01, 0x62, .u8, .ro, .const 0⟩]

def rows2001 : List ObjRow := [
  ⟨0x01, 0x62, .u8, .rwl, .const 0⟩]

def rows2002 : List ObjRow := [
  ⟨0x01, 0x62, .u16, .ro, .const 0⟩]

def rows2003 : List ObjRow := [
  ⟨0x01, 0x01, .u32, .ro, .const 5000⟩,
  ⟨0x02, 0x02, .u32, .ro, .const 100⟩,
  ⟨0x03, 0x03, .u8, .ro, .const 2⟩,
  ⟨0x04, 0x09, .u8, .ro, .const 0⟩,
  ⟨0x0A, 0x0A, .u64, .ro, .const 0⟩,
  ⟨0x0B, 0x0B, .u32, .ro, .const 12000⟩,
  ⟨0x0C, 0x0C, .u32, .ro, .const 0⟩]

def rows2010 : List ObjRow := [
  ⟨0x01, 0x01, .u16, .rw, .const 256⟩,
  ⟨0x02, 0x02, .u16, .rw, .const 8⟩,
  ⟨0x03, 0x03, .u32, .rw, .const 16000⟩]

def rows2100 : List ObjRow := [
  ⟨0x01, 0x04, .u16, .ro, .const 1200⟩,
  ⟨0x05, 0x08, .u16, .rwl, .const 1500⟩,
  ⟨0x09, 0x09, .u16, .rw, .const 800⟩,
  ⟨0x0A, 0x0A, .bool, .ro, .const 0⟩,
  ⟨0x0B, 0x0B, .u16, .ro, .const 1600⟩,
  ⟨0x0C, 0x0C, .u16, .ro, .const 1800⟩,
  ⟨0x0D, 0x0D, .u16, .ro, .const 200⟩]

def rows2101 : List ObjRow := [
  ⟨0x01, 0x26, .i16, .ro, .const 0⟩]

def rows2102 : List ObjRow := [
  ⟨0x01, 0x26, .u32, .ro, .const 0xFFFFFFFF⟩]

def rows2103 : List ObjRow := [
  ⟨0x01, 0x26, .u16, .ro, .const 0⟩]

def rows2104 : List ObjRow := [
  ⟨0x01, 0x01, .u16, .rwp, .const 25⟩,
  ⟨0x02, 0x02, .u32, .ro, .const 1048576⟩,
  ⟨0x03, 0x03, .u32, .ro, .const 0⟩,
  ⟨0x04, 0x04, (.octets 16), .ro, .const 0⟩]

def rows2200 : List ObjRow := [
  ⟨0x01, 0x01, .bool, .ro, .const 0⟩,
  ⟨0x02, 0x02, .u16, .ro, .const 0⟩,
  ⟨0x03, 0x03, .u16, .ro, .const 2000⟩,
  ⟨0x04, 0x04, .i16, .ro, .const 0⟩,
  ⟨0x05, 0x05, .i16, .ro, .const 0⟩,
  ⟨0x06, 0x06, .i16, .ro, .const 0⟩,
  ⟨0x07, 0x07, .i16, .ro, .const 400⟩,
  ⟨0x08, 0x08, .i16, .ro, .const 450⟩,
  ⟨0x09, 0x0E, .i16, .ro, .const 32768⟩,
  ⟨0x0F, 0x0F, .u16, .ro, .const 1800⟩,
  ⟨0x10, 0x10, .u16, .ro, .const 0⟩,
  ⟨0x11, 0x11, .u16, .ro, .const 0⟩,
  ⟨0x12, 0x12, .u16, .ro, .const 0⟩,
  ⟨0x13, 0x13, .u32, .ro, .const 0⟩,
  ⟨0x14, 0x14, .u32, .ro, .const 0⟩,
  ⟨0x15, 0x15, .u8, .ro, .const 0⟩]

def rows3000 : List ObjRow := [
  ⟨0x01, 0x01, .u8, .rwl, .first 1 0⟩,
  ⟨0x02, 0x02, .u16, .rwl, .first 8192 0⟩,
  ⟨0x03, 0x03, .u16, .ro, .const 0⟩,
  ⟨0x10, 0x10, .u16, .rwl, .first 16384 0⟩,
  ⟨0x11, 0x11, .u16, .ro, .const 0⟩,
  ⟨0x12, 0x12, .u16, .ro, .const 0⟩,
  ⟨0x13, 0x13, .u32, .rwl, .first 120832 0⟩,
  ⟨0x14, 0x14, .u32, .ro, .const 0⟩,
  ⟨0x15, 0x15, .u32, .ro, .const 0⟩,
  ⟨0x16, 0x16, .u32, .ro, .const 0⟩,
  ⟨0x18, 0x18, .u32, .rwl, .first 4294967295 0⟩,
  ⟨0x19, 0x19, .u32, .ro, .const 0⟩,
  ⟨0x1A, 0x1A, (.octets 32), .rwl, .tenantBit⟩,
  ⟨0x1B, 0x1B, .u8, .rwl, .const 255⟩,
  ⟨0x1C, 0x1C, .u16, .rwl, .const 0⟩,
  ⟨0x1D, 0x1D, .u64, .ro, .const 0⟩,
  ⟨0x20, 0x20, (.octets 32), .wo, .const 0⟩,
  ⟨0x21, 0x21, (.octets 32), .wo, .const 0⟩,
  ⟨0x22, 0x22, .u8, .ro, .const 0⟩,
  ⟨0x23, 0x23, .u32, .rwl, .first 65536 0⟩,
  ⟨0x24, 0x24, .u32, .ro, .const 0⟩,
  ⟨0x25, 0x25, .u32, .ro, .const 0⟩,
  ⟨0x26, 0x26, .u32, .ro, .const 0⟩,
  ⟨0x27, 0x27, .u32, .ro, .const 0⟩,
  ⟨0x28, 0x28, .u32, .ro, .const 0⟩,
  ⟨0x29, 0x29, .u32, .ro, .const 0⟩,
  ⟨0x2A, 0x2A, .u32, .ro, .const 0⟩,
  ⟨0x2B, 0x2B, .u32, .ro, .const 0⟩,
  ⟨0x2C, 0x2C, .u32, .ro, .const 0⟩,
  ⟨0x2D, 0x2D, .u8, .ro, .const 0⟩]

def rows3100 : List ObjRow := [
  ⟨0x01, 0x01, .u8, .rwl, .const 0⟩,
  ⟨0x02, 0x02, .u8, .rwl, .const 0⟩,
  ⟨0x03, 0x03, .u8, .rwl, .const 0⟩,
  ⟨0x04, 0x04, .u8, .rwl, .const 0⟩,
  ⟨0x05, 0x05, (.octets 32), .rwl, .const 0⟩,
  ⟨0x06, 0x06, .u32, .rwl, .const 0⟩,
  ⟨0x07, 0x07, .u32, .rwl, .const 0⟩,
  ⟨0x08, 0x08, .u16, .rwl, .const 4⟩,
  ⟨0x09, 0x09, .u16, .rwl, .const 8192⟩,
  ⟨0x0A, 0x0A, .u32, .rwl, .const 1000⟩,
  ⟨0x0B, 0x0B, .u8, .rwl, .const 0⟩,
  ⟨0x0C, 0x0C, .f32, .rwl, .const 0x40000000⟩,
  ⟨0x10, 0x10, (.octets 16), .rwl, .const 0⟩,
  ⟨0x11, 0x11, (.octets 16), .rwl, .const 0⟩,
  ⟨0x12, 0x12, (.octets 16), .rwl, .const 0⟩,
  ⟨0x13, 0x13, (.octets 16), .rwl, .const 0⟩,
  ⟨0x20, 0x20, .u64, .ro, .const 0⟩,
  ⟨0x21, 0x21, .u64, .ro, .const 0⟩,
  ⟨0x22, 0x22, (.octets 64), .ro, .const 0⟩,
  ⟨0x23, 0x23, .u64, .ro, .const 0⟩,
  ⟨0x24, 0x24, .u64, .ro, .const 0⟩,
  ⟨0x25, 0x25, .u64, .ro, .const 0⟩,
  ⟨0x26, 0x26, .u16, .ro, .const 0⟩]

def rows31F0 : List ObjRow := [
  ⟨0x01, 0x01, .u16, .ro, .const 8192⟩,
  ⟨0x02, 0x02, .u16, .rw, .const 6144⟩,
  ⟨0x03, 0x03, .u16, .rw, .const 7680⟩,
  ⟨0x04, 0x04, .u16, .ro, .const 1024⟩,
  ⟨0x05, 0x05, .u16, .rw, .const 100⟩,
  ⟨0x06, 0x06, .u32, .rw, .const 65536⟩,
  ⟨0x07, 0x07, .u8, .ro, .const 0⟩,
  ⟨0x08, 0x08, .u8, .ro, .const 0⟩,
  ⟨0x09, 0x09, .u16, .ro, .const 0⟩,
  ⟨0x0A, 0x0A, .u16, .ro, .const 0⟩,
  ⟨0x0B, 0x0B, .u16, .ro, .const 0⟩,
  ⟨0x0C, 0x0C, .u64, .ro, .const 0⟩,
  ⟨0x0D, 0x0D, .u64, .ro, .const 0⟩,
  ⟨0x0E, 0x0E, .u16, .rw, .const 360⟩,
  ⟨0x0F, 0x0F, .u16, .rw, .const 20⟩,
  ⟨0x10, 0x10, .u16, .rw, .const 2⟩,
  ⟨0x11, 0x11, .u16, .rw, .const 1⟩,
  ⟨0x12, 0x12, .f32, .ro, .const 0x37AE7BA9⟩,
  ⟨0x13, 0x13, .f32, .ro, .const 0x30972ECF⟩,
  ⟨0x14, 0x14, .f32, .ro, .const 0x3ECCCCCD⟩]

def rows31F1 : List ObjRow := [
  ⟨0x01, 0x01, .u16, .rwl, .const 47100⟩,
  ⟨0x02, 0x02, .u16, .rw, .const 1000⟩,
  ⟨0x03, 0x03, .u32, .rw, .const 100000⟩,
  ⟨0x04, 0x04, .u16, .rw, .const 8⟩,
  ⟨0x05, 0x05, .u16, .rw, .const 4096⟩,
  ⟨0x06, 0x06, .u32, .ro, .const 65536⟩,
  ⟨0x0A, 0x0A, .u64, .ro, .const 0⟩,
  ⟨0x0B, 0x0B, .u64, .ro, .const 0⟩,
  ⟨0x0C, 0x0C, .u64, .ro, .const 0⟩,
  ⟨0x0D, 0x0D, .u32, .ro, .const 0⟩,
  ⟨0x10, 0x10, (.octets 4), .rwl, .const 0⟩,
  ⟨0x11, 0x11, (.octets 16), .rwl, .const 0⟩,
  ⟨0x12, 0x12, .u16, .rwl, .const 0xFFFF⟩,
  ⟨0x13, 0x13, (.octets 4), .rwl, .const 0⟩,
  ⟨0x14, 0x14, (.octets 16), .rwl, .const 0⟩,
  ⟨0x15, 0x15, .u16, .rwl, .const 0xFFFF⟩,
  ⟨0x16, 0x16, .u64, .ro, .const 0⟩]

def rows31F2 : List ObjRow := [
  ⟨0x01, 0x01, .u32, .ro, .const 0⟩,
  ⟨0x02, 0x02, .u16, .ro, .const 0⟩,
  ⟨0x03, 0x03, .u32, .ro, .const 0⟩,
  ⟨0x04, 0x04, .u32, .ro, .const 0⟩,
  ⟨0x05, 0x05, .u64, .ro, .const 0⟩,
  ⟨0x06, 0x06, .u64, .ro, .const 0⟩,
  ⟨0x07, 0x07, .u64, .ro, .const 0⟩,
  ⟨0x08, 0x08, .u64, .ro, .const 0⟩,
  ⟨0x09, 0x09, .u64, .ro, .const 0⟩,
  ⟨0x0A, 0x0A, .u32, .ro, .none⟩]

def rows4000 : List ObjRow := [
  ⟨0x01, 0x01, .u8, .rw, .const 32⟩,
  ⟨0x02, 0x02, .u8, .rw, .const 16⟩,
  ⟨0x03, 0x03, .u8, .rw, .const 4⟩,
  ⟨0x04, 0x04, .u16, .ro, .const 1024⟩,
  ⟨0x05, 0x05, .u8, .ro, .const 16⟩,
  ⟨0x06, 0x06, .u32, .rwl, .const 65536⟩,
  ⟨0x07, 0x07, .u32, .rwl, .const 8192⟩,
  ⟨0x08, 0x08, .u32, .ro, .const 2048⟩,
  ⟨0x09, 0x09, .u32, .ro, .const 196608⟩,
  ⟨0x0A, 0x0A, .u16, .ro, .const 16384⟩,
  ⟨0x10, 0x10, .u64, .ro, .const 0⟩,
  ⟨0x11, 0x11, .u64, .ro, .const 0⟩,
  ⟨0x12, 0x12, .u64, .ro, .const 0⟩,
  ⟨0x13, 0x13, .u64, .ro, .const 0⟩,
  ⟨0x14, 0x14, .u64, .ro, .const 0⟩,
  ⟨0x15, 0x15, .u64, .ro, .const 0⟩,
  ⟨0x16, 0x16, .u64, .ro, .const 0⟩,
  ⟨0x20, 0x20, .u32, .rw, .const 0⟩,
  ⟨0x21, 0x21, (.octets 12), .ro, .none⟩,
  ⟨0x22, 0x22, .u16, .rw, .const 0⟩,
  ⟨0x23, 0x23, (.octets 8), .ro, .none⟩]

def rows5000 : List ObjRow := [
  ⟨0x01, 0x01, .u8, .ro, .const 0⟩,
  ⟨0x02, 0x02, .u8, .rwl, .const 0⟩,
  ⟨0x03, 0x03, .u32, .rwl, .const 0⟩,
  ⟨0x04, 0x04, .u8, .rwl, .const 0⟩,
  ⟨0x05, 0x05, (.octets 256), .rwl, .const 0⟩,
  ⟨0x06, 0x06, .u8, .ro, .const 0⟩,
  ⟨0x07, 0x07, (.octets 16), .ro, .const 0xFFFFFFFFFFFFFFFFFFFFFFFFFFFFFFFF⟩,
  ⟨0x08, 0x08, .u32, .ro, .const 0⟩,
  ⟨0x09, 0x09, .u32, .ro, .const 0⟩,
  ⟨0x0A, 0x0A, .blob, .ro, .none⟩,
  ⟨0x0B, 0x0B, .u64, .ro, .const 0⟩,
  ⟨0x0C, 0x0C, .u64, .ro, .const 0⟩,
  ⟨0x0D, 0x0D, .u64, .ro, .const 0⟩,
  ⟨0x0E, 0x0E, .u64, .ro, .const 0⟩,
  ⟨0x0F, 0x0F, .u64, .ro, .const 0⟩,
  ⟨0x20, 0x20, (.octets 16), .rwl, .const 0⟩,
  ⟨0x21, 0x21, (.octets 16), .ro, .const 0⟩]

def rows50F0 : List ObjRow := [
  ⟨0x01, 0x01, .u8, .rw, .const 4⟩,
  ⟨0x02, 0x02, .u32, .rw, .const 40000⟩,
  ⟨0x03, 0x03, .u32, .rw, .const 100000⟩,
  ⟨0x04, 0x04, .u64, .ro, .const 0⟩,
  ⟨0x05, 0x05, .u64, .ro, .const 0⟩]

def rows50F1 : List ObjRow := [
  ⟨0x01, 0x01, .u16, .ro, .const 4096⟩,
  ⟨0x02, 0x02, .u16, .ro, .const 0⟩,
  ⟨0x03, 0x03, .u8, .rw, .const 15⟩,
  ⟨0x04, 0x04, .u8, .rw, .const 4⟩,
  ⟨0x05, 0x05, .u32, .ro, .const 65536⟩,
  ⟨0x06, 0x06, .u32, .ro, .const 0⟩,
  ⟨0x07, 0x07, .u64, .ro, .const 0⟩,
  ⟨0x08, 0x08, .u64, .ro, .const 0⟩,
  ⟨0x09, 0x09, .u64, .ro, .const 0⟩,
  ⟨0x0A, 0x0A, .u64, .ro, .const 0⟩,
  ⟨0x0B, 0x0B, .u64, .ro, .const 0⟩,
  ⟨0x0C, 0x0C, .u64, .ro, .const 0⟩,
  ⟨0x0D, 0x0D, .u16, .rw, .const 0⟩,
  ⟨0x0E, 0x0E, (.octets 32), .ro, .none⟩]

def rows5100 : List ObjRow := [
  ⟨0x01, 0x01, .u16, .rw, .const 0⟩,
  ⟨0x02, 0x02, (.octets 16), .ro, .none⟩]

def rows51F0 : List ObjRow := [
  ⟨0x01, 0x01, .u32, .rw, .const 0⟩,
  ⟨0x02, 0x02, .blob, .ro, .none⟩]

def rows51F1 : List ObjRow := [
  ⟨0x01, 0x01, (.octets 16), .ro, .const 0⟩]

def rows51F8 : List ObjRow := [
  ⟨0x01, 0x01, .u8, .ro, .const 0⟩,
  ⟨0x02, 0x02, .u8, .ro, .const 0⟩,
  ⟨0x03, 0x03, .u16, .ro, .const 0xFFFF⟩,
  ⟨0x04, 0x04, .bool, .rwl, .const 1⟩,
  ⟨0x05, 0x05, .u64, .ro, .const 0⟩,
  ⟨0x06, 0x06, .u64, .ro, .const 0⟩,
  ⟨0x07, 0x07, .u64, .ro, .const 0⟩,
  ⟨0x08, 0x08, .u32, .ro, .const 0⟩,
  ⟨0x09, 0x09, .u64, .ro, .const 0⟩,
  ⟨0x0A, 0x0A, .u32, .ro, .const 0⟩]

def rows5200 : List ObjRow := [
  ⟨0x01, 0x01, .u8, .ro, .const 0⟩,
  ⟨0x02, 0x02, .u8, .ro, .const 0⟩,
  ⟨0x03, 0x03, .u8, .ro, .const 0⟩,
  ⟨0x04, 0x04, .u16, .ro, .const 0⟩,
  ⟨0x05, 0x05, .u8, .ro, .const 0⟩,
  ⟨0x06, 0x06, .u32, .ro, .const 0⟩,
  ⟨0x07, 0x07, .u16, .ro, .const 0⟩,
  ⟨0x08, 0x08, .u32, .ro, .const 0⟩,
  ⟨0x09, 0x09, .u32, .ro, .const 0⟩,
  ⟨0x0A, 0x0A, .u64, .ro, .const 0⟩]

def rows6000_0 : List ObjRow := [
  ⟨0x01, 0x01, .u8, .ro, .const 0⟩,
  ⟨0x02, 0x02, .u8, .rwl, .const 0⟩,
  ⟨0x03, 0x03, .u16, .rwl, .const 1024⟩,
  ⟨0x04, 0x04, .u32, .rwl, .const 262144⟩,
  ⟨0x05, 0x05, .u16, .rwl, .const 160⟩,
  ⟨0x06, 0x06, .u16, .rwl, .const 1560⟩,
  ⟨0x07, 0x07, .u16, .rwl, .const 480⟩,
  ⟨0x08, 0x08, .u16, .ro, .const 3261⟩,
  ⟨0x09, 0x09, .u16, .ro, .const 97⟩,
  ⟨0x0A, 0x0A, .u64, .ro, .const 20122978636⟩,
  ⟨0x0B, 0x0B, .u64, .ro, .const 0⟩,
  ⟨0x0C, 0x0C, .u64, .ro, .const 0⟩,
  ⟨0x0D, 0x0D, .u64, .ro, .const 0⟩,
  ⟨0x0E, 0x0E, .u32, .ro, .const 0⟩,
  ⟨0x0F, 0x0F, .u32, .ro, .const 0xFFFFFFFF⟩,
  ⟨0x10, 0x10, .u16, .rw, .const 400⟩,
  ⟨0x11, 0x11, .u16, .rw, .const 2000⟩,
  ⟨0x12, 0x12, .u32, .ro, .const 262144⟩,
  ⟨0x13, 0x13, .u16, .rw, .const 900⟩,
  ⟨0x14, 0x14, .u16, .rw, .const 4096⟩,
  ⟨0x15, 0x15, .u64, .ro, .const 0⟩,
  ⟨0x16, 0x16, .u8, .ro, .const 0⟩,
  ⟨0x17, 0x17, .u32, .ro, .const 0⟩,
  ⟨0x18, 0x18, .u32, .ro, .const 0⟩,
  ⟨0x19, 0x19, .u8, .rw, .const 50⟩,
  ⟨0x1A, 0x1A, .u64, .ro, .const 0⟩,
  ⟨0x1B, 0x1B, .u64, .ro, .const 0⟩,
  ⟨0x1C, 0x1C, .u32, .rwl, .const 0⟩,
  ⟨0x1D, 0x1D, .u32, .rw, .const 100000⟩,
  ⟨0x1E, 0x1E, .u16, .rw, .const 64⟩]

def rows6000_1 : List ObjRow := [
  ⟨0x1F, 0x1F, .u64, .ro, .const 0⟩,
  ⟨0x20, 0x20, .u16, .rw, .const 200⟩,
  ⟨0x21, 0x21, .u16, .rw, .const 512⟩,
  ⟨0x22, 0x22, .u32, .ro, .const 131072⟩,
  ⟨0x23, 0x23, .u8, .rw, .const 8⟩,
  ⟨0x24, 0x24, .u32, .ro, .const 16777216⟩,
  ⟨0x25, 0x25, .u32, .ro, .const 0⟩,
  ⟨0x26, 0x26, .u8, .rw, .const 16⟩,
  ⟨0x27, 0x27, .u32, .ro, .const 0⟩,
  ⟨0x28, 0x28, .u64, .ro, .const 0⟩,
  ⟨0x29, 0x29, .u64, .ro, .const 0⟩,
  ⟨0x2A, 0x2A, .u32, .rw, .const 2048⟩,
  ⟨0x2B, 0x2B, .u8, .rw, .const 8⟩,
  ⟨0x2C, 0x2C, .u64, .ro, .const 0⟩,
  ⟨0x2D, 0x2D, .u64, .ro, .const 0⟩,
  ⟨0x2E, 0x2E, .u32, .ro, .const 0⟩,
  ⟨0x2F, 0x2F, .u16, .rwl, .const 128⟩,
  ⟨0x30, 0x30, .u16, .rwl, .const 160⟩,
  ⟨0x31, 0x31, .u16, .rwl, .const 48⟩,
  ⟨0x32, 0x32, .u64, .ro, .const 0⟩,
  ⟨0x33, 0x33, .u64, .ro, .const 0⟩,
  ⟨0x34, 0x34, .u64, .ro, .const 0⟩,
  ⟨0x35, 0x35, .u8, .ro, .const 0⟩,
  ⟨0x36, 0x36, .bool, .ro, .const 0⟩,
  ⟨0x40, 0x40, .u32, .rw, .const 0⟩,
  ⟨0x41, 0x41, (.octets 32), .ro, .none⟩]

def rows6000 : List ObjRow := rows6000_0 ++ rows6000_1

def rows6010 : List ObjRow := [
  ⟨0x01, 0x01, .u16, .rw, .const 0⟩,
  ⟨0x02, 0x02, (.octets 64), .ro, .none⟩,
  ⟨0x03, 0x03, (.octets 48), .rwl, .const 0⟩,
  ⟨0x04, 0x04, .blob, .rwl, .none⟩]

def rows6040 : List ObjRow := [
  ⟨0x01, 0x01, .u8, .ro, .const 0⟩,
  ⟨0x02, 0x02, .u8, .rwl, .const 0⟩,
  ⟨0x03, 0x03, .u8, .rwl, .const 0⟩,
  ⟨0x04, 0x04, .u32, .rwl, .const 0⟩,
  ⟨0x05, 0x05, .u32, .rwl, .const 0⟩]

def rows6100 : List ObjRow := [
  ⟨0x01, 0x01, .u8, .ro, .const 0⟩,
  ⟨0x02, 0x02, (.octets 12), .ro, .const 0⟩,
  ⟨0x03, 0x03, .u64, .ro, .const 0⟩,
  ⟨0x04, 0x04, .u64, .ro, .const 0⟩,
  ⟨0x05, 0x05, .u64, .ro, .const 0⟩,
  ⟨0x06, 0x06, .u64, .ro, .const 0⟩,
  ⟨0x07, 0x07, .u64, .ro, .const 0⟩,
  ⟨0x08, 0x08, .u64, .ro, .const 0⟩,
  ⟨0x09, 0x09, .u64, .ro, .const 0⟩,
  ⟨0x0A, 0x0A, .u32, .ro, .const 0⟩]

def rows7000 : List ObjRow := [
  ⟨0x01, 0x01, .u8, .ro, .const 0⟩,
  ⟨0x02, 0x02, .u8, .rwl, .const 0⟩,
  ⟨0x03, 0x03, .u32, .rwl, .const 0⟩,
  ⟨0x04, 0x04, .u8, .rwl, .const 0⟩,
  ⟨0x05, 0x05, (.octets 32), .rwl, .const 0⟩,
  ⟨0x06, 0x06, .u8, .rwl, .inst 256⟩,
  ⟨0x07, 0x07, .u32, .ro, .const 0⟩,
  ⟨0x08, 0x08, .u32, .ro, .const 0⟩,
  ⟨0x09, 0x09, .u8, .ro, .const 0⟩,
  ⟨0x0A, 0x0A, .u8, .ro, .const 0⟩,
  ⟨0x0B, 0x0B, .u32, .ro, .const 0⟩,
  ⟨0x0C, 0x0C, .u32, .ro, .const 0⟩,
  ⟨0x0D, 0x0D, .u64, .ro, .const 0⟩]

def rows7040 : List ObjRow := [
  ⟨0x01, 0x01, .u8, .ro, .const 0⟩,
  ⟨0x02, 0x02, .u8, .rwl, .const 0⟩,
  ⟨0x03, 0x03, .u32, .rwl, .const 0⟩,
  ⟨0x04, 0x04, .u8, .rwl, .const 0⟩,
  ⟨0x05, 0x05, (.octets 32), .rwl, .const 0⟩,
  ⟨0x06, 0x06, (.octets 8), .rwl, .const 0⟩,
  ⟨0x07, 0x07, .u8, .rwl, .inst 32⟩,
  ⟨0x08, 0x08, .u8, .rwl, .const 0⟩,
  ⟨0x09, 0x09, .u32, .ro, .const 0⟩,
  ⟨0x0A, 0x0A, .u8, .ro, .const 255⟩,
  ⟨0x0B, 0x0B, (.octets 256), .ro, .const 0xFFFFFFFFFFFFFFFFFFFFFFFFFFFFFFFFFFFFFFFFFFFFFFFFFFFFFFFFFFFFFFFFFFFFFFFFFFFFFFFFFFFFFFFFFFFFFFFFFFFFFFFFFFFFFFFFFFFFFFFFFFFFFFFFFFFFFFFFFFFFFFFFFFFFFFFFFFFFFFFFFFFFFFFFFFFFFFFFFFFFFFFFFFFFFFFFFFFFFFFFFFFFFFFFFFFFFFFFFFFFFFFFFFFFFFFFFFFFFFFFFFFFFFFFFFFFFFFFFFFFFFFFFFFFFFFFFFFFFFFFFFFFFFFFFFFFFFFFFFFFFFFFFFFFFFFFFFFFFFFFFFFFFFFFFFFFFFFFFFFFFFFFFFFFFFFFFFFFFFFFFFFFFFFFFFFFFFFFFFFFFFFFFFFFFFFFFFFFFFFFFFFFFFFFFFFFFFFFFFFFFFFFFFFFFFFFFFFFFFFFFFFFFFFFFFFFFFFFFFFFFFFFFFFFFFFFFFFFFFFFFFFFFFFFFFFFFFFFFFFFFFFFFFFFFFFF⟩,
  ⟨0x0C, 0x0C, .u8, .ro, .const 0⟩,
  ⟨0x0D, 0x0D, .u32, .ro, .const 0⟩,
  ⟨0x0E, 0x0E, .u32, .ro, .const 0⟩,
  ⟨0x0F, 0x0F, .u32, .ro, .const 0⟩,
  ⟨0x10, 0x10, .u32, .ro, .const 0⟩]

def rows7090 : List ObjRow := [
  ⟨0x01, 0x40, .u32, .rwl, .const 10000⟩]

def rows70A0 : List ObjRow := [
  ⟨0x01, 0x01, .u8, .ro, .const 0⟩,
  ⟨0x02, 0x02, (.octets 32), .rwl, .const 0⟩,
  ⟨0x03, 0x03, .u64, .rwl, .const 0⟩,
  ⟨0x04, 0x04, .blob, .rwl, .none⟩,
  ⟨0x05, 0x05, .u32, .rwl, .const 4096⟩,
  ⟨0x06, 0x06, .u16, .rwl, .const 8⟩,
  ⟨0x07, 0x07, .u16, .rwl, .const 512⟩,
  ⟨0x08, 0x08, .u16, .rwl, .const 32⟩,
  ⟨0x09, 0x09, .u16, .rwl, .const 256⟩,
  ⟨0x0A, 0x0A, .u8, .rwl, .const 0⟩,
  ⟨0x0B, 0x0B, .u8, .rwl, .const 1⟩,
  ⟨0x0C, 0x0C, .u32, .ro, .const 0⟩,
  ⟨0x0D, 0x0D, .u64, .ro, .const 0⟩]

def rows70F0 : List ObjRow := [
  ⟨0x01, 0x01, .u64, .ro, .const 0⟩,
  ⟨0x02, 0x02, .u64, .ro, .const 0⟩,
  ⟨0x03, 0x03, .u64, .ro, .const 0⟩,
  ⟨0x04, 0x04, .u64, .ro, .const 0⟩,
  ⟨0x05, 0x05, .u64, .ro, .const 0⟩,
  ⟨0x06, 0x06, .u64, .ro, .const 0⟩,
  ⟨0x07, 0x07, .u64, .ro, .const 0⟩,
  ⟨0x08, 0x08, .u64, .ro, .const 0⟩,
  ⟨0x09, 0x09, .u64, .ro, .const 0⟩]

def rows7100 : List ObjRow := [
  ⟨0x01, 0x01, .u8, .ro, .const 0⟩,
  ⟨0x02, 0x02, .u8, .rwl, .const 0⟩,
  ⟨0x03, 0x03, .u64, .rwl, .const 0⟩,
  ⟨0x04, 0x04, .u8, .rwl, .const 0⟩,
  ⟨0x05, 0x05, (.octets 32), .rwl, .const 0⟩,
  ⟨0x06, 0x06, .u64, .ro, .const 0⟩,
  ⟨0x07, 0x07, .u16, .ro, .const 0⟩,
  ⟨0x08, 0x08, .u8, .ro, .const 0⟩,
  ⟨0x09, 0x09, .u32, .ro, .const 0⟩,
  ⟨0x0A, 0x0A, .u64, .ro, .const 0⟩,
  ⟨0x0B, 0x0B, .u64, .ro, .const 0⟩,
  ⟨0x0C, 0x0C, .u64, .ro, .const 0⟩,
  ⟨0x0D, 0x0D, .u64, .ro, .const 0⟩,
  ⟨0x0E, 0x0E, .u32, .ro, .const 0⟩,
  ⟨0x0F, 0x0F, .blob, .ro, .none⟩,
  ⟨0x10, 0x10, .blob, .ro, .none⟩,
  ⟨0x11, 0x11, (.octets 32), .ro, .const 0⟩,
  ⟨0x12, 0x12, .u64, .ro, .const 0⟩]

def rows7140 : List ObjRow := [
  ⟨0x01, 0x01, .u8, .rwl, .const 0⟩,
  ⟨0x02, 0x02, .u8, .rwl, .const 0⟩,
  ⟨0x03, 0x03, .u8, .rwl, .const 0⟩,
  ⟨0x04, 0x04, .u32, .rwl, .const 0⟩,
  ⟨0x05, 0x05, .u32, .rwl, .const 0⟩,
  ⟨0x06, 0x06, .u16, .rwl, .const 64⟩,
  ⟨0x07, 0x07, .u16, .rwl, .const 512⟩,
  ⟨0x10, 0x17, (.octets 16), .rwl, .const 0⟩]

def rows71F0 : List ObjRow := [
  ⟨0x01, 0x01, .u8, .rw, .const 16⟩,
  ⟨0x02, 0x02, .u32, .rw, .const 4096⟩,
  ⟨0x03, 0x03, .u64, .ro, .const 0⟩,
  ⟨0x04, 0x04, .u64, .ro, .const 0⟩,
  ⟨0x05, 0x05, .u64, .ro, .const 0⟩,
  ⟨0x06, 0x06, .u64, .ro, .const 0⟩]

def rows71F1 : List ObjRow := [
  ⟨0x01, 0x01, .u32, .ro, .const 0⟩,
  ⟨0x02, 0x02, .u32, .rw, .const 10000⟩,
  ⟨0x03, 0x03, .u32, .rw, .const 100000⟩,
  ⟨0x04, 0x04, .u16, .ro, .const 4096⟩,
  ⟨0x05, 0x05, .u16, .ro, .const 0⟩,
  ⟨0x06, 0x06, .u64, .ro, .const 0⟩,
  ⟨0x07, 0x07, .u64, .ro, .const 0⟩,
  ⟨0x08, 0x08, .u64, .ro, .const 0⟩,
  ⟨0x09, 0x09, .u64, .ro, .const 0⟩,
  ⟨0x0A, 0x0A, .u8, .rw, .const 0⟩,
  ⟨0x0B, 0x0B, (.octets 16), .rwl, .const 0⟩]

def rows8000 : List ObjRow := [
  ⟨0x01, 0x01, .u16, .rw, .const 0⟩,
  ⟨0x02, 0x02, .u8, .rw, .none⟩,
  ⟨0x03, 0x03, .u64, .ro, .none⟩,
  ⟨0x04, 0x04, .u64, .ro, .none⟩,
  ⟨0x05, 0x05, .u64, .ro, .none⟩,
  ⟨0x06, 0x06, .u32, .ro, .none⟩]

def rows8010 : List ObjRow := [
  ⟨0x01, 0x0A, .u8, .rw, .subs [14, 13, 12, 12, 11, 10, 9, 6, 4, 3]⟩]

def rows9000 : List ObjRow := [
  ⟨0x01, 0x01, .u32, .ro, .const 0⟩,
  ⟨0x02, 0x02, (.octets 16), .ro, .const 0⟩,
  ⟨0x03, 0x03, .u32, .ro, .const 0⟩,
  ⟨0x04, 0x04, .u32, .ro, .const 0xFFFFFFFF⟩,
  ⟨0x05, 0x05, .u64, .ro, .const 0⟩,
  ⟨0x06, 0x06, .u64, .ro, .const 0⟩,
  ⟨0x07, 0x07, .u64, .ro, .const 0⟩,
  ⟨0x08, 0x08, .u32, .ro, .const 0⟩,
  ⟨0x09, 0x09, .u64, .ro, .const 0⟩,
  ⟨0x0A, 0x0A, .u32, .ro, .const 0⟩]

def rows9020 : List ObjRow := [
  ⟨0x01, 0x20, .u32, .ro, .const 0⟩]

def rows9021 : List ObjRow := [
  ⟨0x01, 0x01, .u16, .rw, .const 3⟩,
  ⟨0x02, 0x02, .u32, .rw, .const 1048576⟩]

def rows9022 : List ObjRow := [
  ⟨0x01, 0x20, .u32, .ro, .const 0⟩]

def rows9023 : List ObjRow := [
  ⟨0x01, 0x20, .u32, .ro, .const 0⟩]

def rows9024 : List ObjRow := [
  ⟨0x01, 0x01, .u32, .ro, .const 0⟩,
  ⟨0x02, 0x02, .u32, .ro, .const 0⟩]

def rows9025 : List ObjRow := [
  ⟨0x01, 0x01, .u32, .ro, .const 0⟩]

def rows9026 : List ObjRow := [
  ⟨0x01, 0x04, .u32, .ro, .const 0⟩]

def rows9027 : List ObjRow := [
  ⟨0x01, 0x08, .u32, .ro, .const 0⟩]

def rows902E : List ObjRow := [
  ⟨0x01, 0x20, .u32, .ro, .const 0⟩]

def rows902F : List ObjRow := [
  ⟨0x01, 0x20, .u32, .ro, .const 0⟩]

def rows9100 : List ObjRow := [
  ⟨0x01, 0x01, .u32, .ro, .const 65536⟩,
  ⟨0x02, 0x02, .u64, .ro, .none⟩,
  ⟨0x03, 0x03, .u64, .ro, .none⟩,
  ⟨0x04, 0x04, .u64, .rw, .const 0⟩,
  ⟨0x05, 0x05, .blob, .ro, .none⟩,
  ⟨0x06, 0x06, .u8, .ro, .const 0⟩,
  ⟨0x07, 0x07, .u32, .ro, .const 0⟩]

def rowsA000 : List ObjRow := [
  ⟨0x01, 0x01, .u8, .ro, .const 0⟩,
  ⟨0x02, 0x02, .u8, .ro, .const 0⟩,
  ⟨0x03, 0x03, .u32, .ro, .const 0⟩,
  ⟨0x04, 0x04, .u32, .ro, .const 0⟩,
  ⟨0x05, 0x05, .u8, .rwp, .const 0⟩,
  ⟨0x06, 0x06, .u32, .ro, .const 0⟩,
  ⟨0x07, 0x07, .u32, .ro, .const 0⟩,
  ⟨0x08, 0x08, .blob, .rwl, .none⟩,
  ⟨0x09, 0x09, .u8, .ro, .const 0⟩,
  ⟨0x0A, 0x0A, .u8, .rwl, .const 0⟩,
  ⟨0x10, 0x17, (.octets 48), .ro, .const 0⟩,
  ⟨0x18, 0x18, .blob, .ro, .none⟩,
  ⟨0x19, 0x19, .u32, .ro, .const 0⟩]

def rowsB000 : List ObjRow := [
  ⟨0x01, 0x0C, .u8, .rwp, .subs [0x03, 0x04, 0x05, 0x0A, 0x09, 0x06, 0x06, 0x06, 0x06, 0x06, 0x06, 0x06]⟩]

def rowsB001 : List ObjRow := [
  ⟨0x01, 0x01, .u8, .rwp, .const 0⟩,
  ⟨0x02, 0x02, .u16, .rwp, .const 0⟩,
  ⟨0x03, 0x03, .u16, .rw, .const 0⟩,
  ⟨0x04, 0x04, .u16, .ro, .none⟩,
  ⟨0x05, 0x05, .u32, .rwp, .const 115200⟩,
  ⟨0x06, 0x06, .u32, .ro, .const 0⟩,
  ⟨0x07, 0x07, .u32, .rw, .const 1⟩]

def objFams0 : List ObjFam := [
  ⟨0x1000, 0x1000, 0x08, rows1000⟩,
  ⟨0x1100, 0x1100, 0x24, rows1100⟩,
  ⟨0x1200, 0x1200, 0x0A, rows1200⟩,
  ⟨0x2000, 0x2000, 0x62, rows2000⟩,
  ⟨0x2001, 0x2001, 0x62, rows2001⟩,
  ⟨0x2002, 0x2002, 0x62, rows2002⟩,
  ⟨0x2003, 0x2003, 0x0C, rows2003⟩,
  ⟨0x2010, 0x2010, 0x03, rows2010⟩,
  ⟨0x2100, 0x2100, 0x0D, rows2100⟩,
  ⟨0x2101, 0x2101, 0x26, rows2101⟩,
  ⟨0x2102, 0x2102, 0x26, rows2102⟩,
  ⟨0x2103, 0x2103, 0x26, rows2103⟩,
  ⟨0x2104, 0x2104, 0x04, rows2104⟩,
  ⟨0x2200, 0x2200, 0x15, rows2200⟩,
  ⟨0x3000, 0x30FF, 0x2D, rows3000⟩,
  ⟨0x3100, 0x313F, 0x26, rows3100⟩,
  ⟨0x31F0, 0x31F0, 0x14, rows31F0⟩,
  ⟨0x31F1, 0x31F1, 0x16, rows31F1⟩,
  ⟨0x31F2, 0x31F2, 0x0A, rows31F2⟩,
  ⟨0x4000, 0x4000, 0x23, rows4000⟩,
  ⟨0x5000, 0x503F, 0x21, rows5000⟩,
  ⟨0x50F0, 0x50F0, 0x05, rows50F0⟩,
  ⟨0x50F1, 0x50F1, 0x0E, rows50F1⟩,
  ⟨0x5100, 0x5100, 0x02, rows5100⟩,
  ⟨0x51F0, 0x51F0, 0x02, rows51F0⟩,
  ⟨0x51F1, 0x51F1, 0x01, rows51F1⟩,
  ⟨0x51F8, 0x51FF, 0x0A, rows51F8⟩,
  ⟨0x5200, 0x53FF, 0x0A, rows5200⟩,
  ⟨0x6000, 0x6000, 0x41, rows6000⟩,
  ⟨0x6010, 0x6010, 0x04, rows6010⟩]

def objFams1 : List ObjFam := [
  ⟨0x6040, 0x607F, 0x05, rows6040⟩,
  ⟨0x6100, 0x611F, 0x0A, rows6100⟩,
  ⟨0x7000, 0x700F, 0x0D, rows7000⟩,
  ⟨0x7040, 0x707F, 0x10, rows7040⟩,
  ⟨0x7090, 0x7090, 0x40, rows7090⟩,
  ⟨0x70A0, 0x70BF, 0x0D, rows70A0⟩,
  ⟨0x70F0, 0x70F0, 0x09, rows70F0⟩,
  ⟨0x7100, 0x713F, 0x12, rows7100⟩,
  ⟨0x7140, 0x714F, 0x17, rows7140⟩,
  ⟨0x71F0, 0x71F0, 0x06, rows71F0⟩,
  ⟨0x71F1, 0x71F1, 0x0B, rows71F1⟩,
  ⟨0x8000, 0x8000, 0x06, rows8000⟩,
  ⟨0x8010, 0x8010, 0x0A, rows8010⟩,
  ⟨0x9000, 0x9000, 0x0A, rows9000⟩,
  ⟨0x9020, 0x9020, 0x20, rows9020⟩,
  ⟨0x9021, 0x9021, 0x02, rows9021⟩,
  ⟨0x9022, 0x9022, 0x20, rows9022⟩,
  ⟨0x9023, 0x9023, 0x20, rows9023⟩,
  ⟨0x9024, 0x9024, 0x02, rows9024⟩,
  ⟨0x9025, 0x9025, 0x01, rows9025⟩,
  ⟨0x9026, 0x9026, 0x04, rows9026⟩,
  ⟨0x9027, 0x902D, 0x08, rows9027⟩,
  ⟨0x902E, 0x902E, 0x20, rows902E⟩,
  ⟨0x902F, 0x902F, 0x20, rows902F⟩,
  ⟨0x9100, 0x9100, 0x07, rows9100⟩,
  ⟨0xA000, 0xA000, 0x19, rowsA000⟩,
  ⟨0xB000, 0xB000, 0x0C, rowsB000⟩,
  ⟨0xB001, 0xB001, 0x07, rowsB001⟩]

/-- The families of R547. -/
def objFams : List ObjFam :=
  objFams0 ++ objFams1

/-- The family of an index (R547). -/
def objFam? (idx : Nat) : Option ObjFam :=
  objFams.find? fun f => Nat.ble f.base idx && Nat.ble idx f.last

/-- The row of a family that defines a subindex (R548). -/
def ObjFam.row? (f : ObjFam) (sub : Nat) : Option ObjRow :=
  f.rows.find? fun r => Nat.ble r.lo sub && Nat.ble sub r.hi

/-- The row that defines subindex `sub` of index `idx`, if there is one (R548). -/
def objRow? (idx sub : Nat) : Option ObjRow :=
  match objFam? idx with
  | some f => f.row? sub
  | none => none

/-- The Default column, for the instance and subindex the row covers (R15). -/
def Dflt.val (d : Dflt) (inst off : Nat) : Nat :=
  match d with
  | .const v => v
  | .first v0 v => if inst = 0 then v0 else v
  | .inst m => inst % m
  | .subs vs => vs.getD off 0
  | .tenantBit => 2 ^ (8 * (31 - inst / 8) + inst % 8)
  | .none => 0

/-- The value an object holds when nothing has been written to it: its Default (R15). -/
@[irreducible] def odDefault (key : Nat) : Nat :=
  match objFam? (key / 256) with
  | some f =>
    match f.row? (key % 256) with
    | some r => r.dflt.val (key / 256 - f.base) (key % 256 - r.lo)
    | none => 0
  | none => 0

/-- The width in bits of the object under a key. -/
@[irreducible] def odWidth (key : Nat) : Nat :=
  match objRow? (key / 256) (key % 256) with
  | some r => 8 * r.ty.bytes
  | none => 0

/-! The objects by name: each is the key of the object of that name; n is the instance (tenant, class, slot, array,
domain, …) and f the offset of a subindex run. -/

abbrev Od.deviceType : Nat := 0x100001
abbrev Od.stepping : Nat := 0x100002
abbrev Od.firmwareRelease : Nat := 0x100003
abbrev Od.vendorName : Nat := 0x100004
abbrev Od.productName : Nat := 0x100005
abbrev Od.partNumber : Nat := 0x100006
abbrev Od.dictLayout : Nat := 0x100007
abbrev Od.capabilities : Nat := 0x100008
abbrev Od.chainAddress : Nat := 0x110001
abbrev Od.chainState : Nat := 0x110002
abbrev Od.upstreamDelay : Nat := 0x110003
abbrev Od.beatDelay : Nat := 0x110004
abbrev Od.linkState : Nat := 0x110005
abbrev Od.addressHoldBeats : Nat := 0x110006
abbrev Od.enumerations : Nat := 0x110007
abbrev Od.framesRepeated : Nat := 0x110008
abbrev Od.framesDiscarded : Nat := 0x110009
abbrev Od.beatState : Nat := 0x110010
abbrev Od.beatCount : Nat := 0x110011
abbrev Od.beatPeriodUs : Nat := 0x110012
abbrev Od.holdoverLimit : Nat := 0x110013
abbrev Od.holdoverBeats : Nat := 0x110014
abbrev Od.holdoverExpired : Nat := 0x110015
abbrev Od.beatLosses : Nat := 0x110016
abbrev Od.beatWordErrors : Nat := 0x110017
abbrev Od.beatOffset : Nat := 0x110018
abbrev Od.beatResync : Nat := 0x110019
abbrev Od.beatStandalone : Nat := 0x11001A
abbrev Od.standalonePeriodUs : Nat := 0x11001B
abbrev Od.beatCountMismatch : Nat := 0x11001C
abbrev Od.mailboxRights : Nat := 0x110020
abbrev Od.dictRequests : Nat := 0x110021
abbrev Od.dictErrors : Nat := 0x110022
abbrev Od.dictBusy : Nat := 0x110023
abbrev Od.segTimeoutBeats : Nat := 0x110024
abbrev Od.lockState : Nat := 0x120001
abbrev Od.lockHandle : Nat := 0x120002
abbrev Od.lockLeaseBeats : Nat := 0x120003
abbrev Od.lockRemaining : Nat := 0x120004
abbrev Od.lockStaged : Nat := 0x120005
abbrev Od.lockBreaks : Nat := 0x120006
abbrev Od.lastBreak : Nat := 0x120007
abbrev Od.prevBroken : Nat := 0x120008
abbrev Od.commits : Nat := 0x120009
abbrev Od.lastCommit : Nat := 0x12000A
abbrev Od.pdState (n : Nat) : Nat := 0x200001 + n
abbrev Od.pdPolicy (n : Nat) : Nat := 0x200101 + n
abbrev Od.pdEpoch (n : Nat) : Nat := 0x200201 + n
abbrev Od.wakeSpacingNs : Nat := 0x200301
abbrev Od.rampWindowNs : Nat := 0x200302
abbrev Od.rampsPerWindow : Nat := 0x200303
abbrev Od.wakeQueue (n : Nat) : Nat := 0x200304 + n
abbrev Od.wakesDelayed : Nat := 0x20030A
abbrev Od.domainWakeNs : Nat := 0x20030B
abbrev Od.throttleEvents : Nat := 0x20030C
abbrev Od.arrayBubbleFill : Nat := 0x201001
abbrev Od.arrayWaitLimit : Nat := 0x201002
abbrev Od.coreHoldLimit : Nat := 0x201003
abbrev Od.aclkMhz (n : Nat) : Nat := 0x210001 + n
abbrev Od.aclkLimitMhz (n : Nat) : Nat := 0x210005 + n
abbrev Od.throttleMhz : Nat := 0x210009
abbrev Od.throttleActive : Nat := 0x21000A
abbrev Od.sclkMhz : Nat := 0x21000B
abbrev Od.nclkMhz : Nat := 0x21000C
abbrev Od.kclkMhz : Nat := 0x21000D
abbrev Od.marginMv (n : Nat) : Nat := 0x210101 + n
abbrev Od.floorHours (n : Nat) : Nat := 0x210201 + n
abbrev Od.supplyMv (n : Nat) : Nat := 0x210301 + n
abbrev Od.marginFloorMv : Nat := 0x210401
abbrev Od.ageingPeriodBeats : Nat := 0x210402
abbrev Od.marginChanges : Nat := 0x210403
abbrev Od.lastMarginChange : Nat := 0x210404
abbrev Od.coolantInterlock : Nat := 0x220001
abbrev Od.coolantFlow : Nat := 0x220002
abbrev Od.flowMin : Nat := 0x220003
abbrev Od.inletTemp : Nat := 0x220004
abbrev Od.outletTemp : Nat := 0x220005
abbrev Od.nandPlateTemp : Nat := 0x220006
abbrev Od.derateStart : Nat := 0x220007
abbrev Od.inletMax : Nat := 0x220008
abbrev Od.dieTemp (n : Nat) : Nat := 0x220009 + n
abbrev Od.powerLimitW : Nat := 0x22000F
abbrev Od.mainInputMv : Nat := 0x220010
abbrev Od.standbyInputMv : Nat := 0x220011
abbrev Od.mainInputW : Nat := 0x220012
abbrev Od.interlockOpens : Nat := 0x220013
abbrev Od.thermalTrips : Nat := 0x220014
abbrev Od.supercapState : Nat := 0x220015
abbrev Od.tenantState (n : Nat) : Nat := 0x300001 + 0x100 * n
abbrev Od.inflightQuota (n : Nat) : Nat := 0x300002 + 0x100 * n
abbrev Od.inflightUsed (n : Nat) : Nat := 0x300003 + 0x100 * n
abbrev Od.nearQuota (n : Nat) : Nat := 0x300010 + 0x100 * n
abbrev Od.nearUsed (n : Nat) : Nat := 0x300011 + 0x100 * n
abbrev Od.nearHome (n : Nat) : Nat := 0x300012 + 0x100 * n
abbrev Od.stackQuota (n : Nat) : Nat := 0x300013 + 0x100 * n
abbrev Od.stackUsed (n : Nat) : Nat := 0x300014 + 0x100 * n
abbrev Od.kvReserved (n : Nat) : Nat := 0x300015 + 0x100 * n
abbrev Od.quotaRefusals (n : Nat) : Nat := 0x300016 + 0x100 * n
abbrev Od.sideQuota (n : Nat) : Nat := 0x300018 + 0x100 * n
abbrev Od.sideUsed (n : Nat) : Nat := 0x300019 + 0x100 * n
abbrev Od.indexVisible (n : Nat) : Nat := 0x30001A + 0x100 * n
abbrev Od.textDict (n : Nat) : Nat := 0x30001B + 0x100 * n
abbrev Od.poolShare (n : Nat) : Nat := 0x30001C + 0x100 * n
abbrev Od.poolCreditWaits (n : Nat) : Nat := 0x30001D + 0x100 * n
abbrev Od.key0 (n : Nat) : Nat := 0x300020 + 0x100 * n
abbrev Od.key1 (n : Nat) : Nat := 0x300021 + 0x100 * n
abbrev Od.keyState (n : Nat) : Nat := 0x300022 + 0x100 * n
abbrev Od.bufQuota (n : Nat) : Nat := 0x300023 + 0x100 * n
abbrev Od.bufUsed (n : Nat) : Nat := 0x300024 + 0x100 * n
abbrev Od.bufReleased (n : Nat) : Nat := 0x300025 + 0x100 * n
abbrev Od.authFails (n : Nat) : Nat := 0x300026 + 0x100 * n
abbrev Od.staleFrees (n : Nat) : Nat := 0x300027 + 0x100 * n
abbrev Od.foreignFrees (n : Nat) : Nat := 0x300028 + 0x100 * n
abbrev Od.busyFrees (n : Nat) : Nat := 0x300029 + 0x100 * n
abbrev Od.cancelsUnmatched (n : Nat) : Nat := 0x30002A + 0x100 * n
abbrev Od.duplicates (n : Nat) : Nat := 0x30002B + 0x100 * n
abbrev Od.retainExpired (n : Nat) : Nat := 0x30002C + 0x100 * n
abbrev Od.disableCause (n : Nat) : Nat := 0x30002D + 0x100 * n
abbrev Od.classState (n : Nat) : Nat := 0x310001 + 0x100 * n
abbrev Od.classFlags (n : Nat) : Nat := 0x310002 + 0x100 * n
abbrev Od.priority (n : Nat) : Nat := 0x310003 + 0x100 * n
abbrev Od.kinds (n : Nat) : Nat := 0x310004 + 0x100 * n
abbrev Od.tenants (n : Nat) : Nat := 0x310005 + 0x100 * n
abbrev Od.firstDeadline (n : Nat) : Nat := 0x310006 + 0x100 * n
abbrev Od.e2eDeadline (n : Nat) : Nat := 0x310007 + 0x100 * n
abbrev Od.stepBudget (n : Nat) : Nat := 0x310008 + 0x100 * n
abbrev Od.classInflightMax (n : Nat) : Nat := 0x310009 + 0x100 * n
abbrev Od.deferLimit (n : Nat) : Nat := 0x31000A + 0x100 * n
abbrev Od.admLevel (n : Nat) : Nat := 0x31000B + 0x100 * n
abbrev Od.genTokensInit (n : Nat) : Nat := 0x31000C + 0x100 * n
abbrev Od.ladderEncode (n : Nat) : Nat := 0x310010 + 0x100 * n
abbrev Od.ladderSearch (n : Nat) : Nat := 0x310011 + 0x100 * n
abbrev Od.ladderRerank (n : Nat) : Nat := 0x310012 + 0x100 * n
abbrev Od.ladderGenerate (n : Nat) : Nat := 0x310013 + 0x100 * n
abbrev Od.admitted (n : Nat) : Nat := 0x310020 + 0x100 * n
abbrev Od.deferred (n : Nat) : Nat := 0x310021 + 0x100 * n
abbrev Od.refusals (n : Nat) : Nat := 0x310022 + 0x100 * n
abbrev Od.ladderMoves (n : Nat) : Nat := 0x310023 + 0x100 * n
abbrev Od.deadlineMisses (n : Nat) : Nat := 0x310024 + 0x100 * n
abbrev Od.firstMisses (n : Nat) : Nat := 0x310025 + 0x100 * n
abbrev Od.classInflight (n : Nat) : Nat := 0x310026 + 0x100 * n
abbrev Od.inflightMax : Nat := 0x31F001
abbrev Od.shedBulkInflight : Nat := 0x31F002
abbrev Od.deferInflight : Nat := 0x31F003
abbrev Od.deferQueueMax : Nat := 0x31F004
abbrev Od.retryMinBeats : Nat := 0x31F005
abbrev Od.admHintDefer : Nat := 0x31F006
abbrev Od.overloadLevel : Nat := 0x31F007
abbrev Od.deferFloor : Nat := 0x31F008
abbrev Od.inflight : Nat := 0x31F009
abbrev Od.deferHeld : Nat := 0x31F00A
abbrev Od.monitorEndangered : Nat := 0x31F00B
abbrev Od.monitorBacklog : Nat := 0x31F00C
abbrev Od.ingressSequence : Nat := 0x31F00D
abbrev Od.scanBeats : Nat := 0x31F00E
abbrev Od.postSearchBeats : Nat := 0x31F00F
abbrev Od.packBeats : Nat := 0x31F010
abbrev Od.appendBeats : Nat := 0x31F011
abbrev Od.energyArrayCycle : Nat := 0x31F012
abbrev Od.energyFlashByte : Nat := 0x31F013
abbrev Od.energyFixed : Nat := 0x31F014
abbrev Od.reqUdpPort : Nat := 0x31F101
abbrev Od.reassemblyBeats : Nat := 0x31F102
abbrev Od.outputRetainBeats : Nat := 0x31F103
abbrev Od.foreignFreeLimit : Nat := 0x31F104
abbrev Od.bufReserve : Nat := 0x31F105
abbrev Od.buffersFree : Nat := 0x31F106
abbrev Od.ingressDrops : Nat := 0x31F10A
abbrev Od.unreadableDrops : Nat := 0x31F10B
abbrev Od.fragmentDrops : Nat := 0x31F10C
abbrev Od.windowEpoch : Nat := 0x31F10D
abbrev Od.eth0Ipv4 : Nat := 0x31F110
abbrev Od.eth0Ipv6 : Nat := 0x31F111
abbrev Od.eth0Vlan : Nat := 0x31F112
abbrev Od.eth1Ipv4 : Nat := 0x31F113
abbrev Od.eth1Ipv6 : Nat := 0x31F114
abbrev Od.eth1Vlan : Nat := 0x31F115
abbrev Od.messagesSent : Nat := 0x31F116
abbrev Od.pcieLink : Nat := 0x31F201
abbrev Od.vfsEnabled : Nat := 0x31F202
abbrev Od.hostResets : Nat := 0x31F203
abbrev Od.flrs : Nat := 0x31F204
abbrev Od.descriptorsAccepted : Nat := 0x31F205
abbrev Od.descriptorsIncomplete : Nat := 0x31F206
abbrev Od.cplRingFullCycles : Nat := 0x31F207
abbrev Od.dmaErrors : Nat := 0x31F208
abbrev Od.outSlotWaits : Nat := 0x31F209
abbrev Od.pcieIds : Nat := 0x31F20A
abbrev Od.heatPromoteThreshold : Nat := 0x400001
abbrev Od.heatHysteresis : Nat := 0x400002
abbrev Od.heatDemoteFloor : Nat := 0x400003
abbrev Od.heatEpochBeats : Nat := 0x400004
abbrev Od.heatDecayEpochs : Nat := 0x400005
abbrev Od.listCachePages : Nat := 0x400006
abbrev Od.rowCachePages : Nat := 0x400007
abbrev Od.stackFirmwareReserve : Nat := 0x400008
abbrev Od.stackPagesInService : Nat := 0x400009
abbrev Od.nearGranulesInService : Nat := 0x40000A
abbrev Od.promotions : Nat := 0x400010
abbrev Od.demotions : Nat := 0x400011
abbrev Od.promoteSkippedQuota : Nat := 0x400012
abbrev Od.promoteSkippedSpace : Nat := 0x400013
abbrev Od.ondemandFetches : Nat := 0x400014
abbrev Od.ondemandBytes : Nat := 0x400015
abbrev Od.loadEvictions : Nat := 0x400016
abbrev Od.pageSelect : Nat := 0x400020
abbrev Od.pageInfo : Nat := 0x400021
abbrev Od.granuleSelect : Nat := 0x400022
abbrev Od.granuleInfo : Nat := 0x400023
abbrev Od.modelState (n : Nat) : Nat := 0x500001 + 0x100 * n
abbrev Od.modelCommand (n : Nat) : Nat := 0x500002 + 0x100 * n
abbrev Od.planObject (n : Nat) : Nat := 0x500003 + 0x100 * n
abbrev Od.modelOwner (n : Nat) : Nat := 0x500004 + 0x100 * n
abbrev Od.placement (n : Nat) : Nat := 0x500005 + 0x100 * n
abbrev Od.loadReason (n : Nat) : Nat := 0x500006 + 0x100 * n
abbrev Od.stakeNumbers (n : Nat) : Nat := 0x500007 + 0x100 * n
abbrev Od.courseMaxCycles (n : Nat) : Nat := 0x500008 + 0x100 * n
abbrev Od.switchWorstNs (n : Nat) : Nat := 0x500009 + 0x100 * n
abbrev Od.costTable (n : Nat) : Nat := 0x50000A + 0x100 * n
abbrev Od.stepsCommitted (n : Nat) : Nat := 0x50000B + 0x100 * n
abbrev Od.coursesAbandoned (n : Nat) : Nat := 0x50000C + 0x100 * n
abbrev Od.stepsReplayed (n : Nat) : Nat := 0x50000D + 0x100 * n
abbrev Od.modelStaleReplies (n : Nat) : Nat := 0x50000E + 0x100 * n
abbrev Od.stepsSuspended (n : Nat) : Nat := 0x50000F + 0x100 * n
abbrev Od.skeinCommand (n : Nat) : Nat := 0x500020 + 0x100 * n
abbrev Od.skeinCmdStatus (n : Nat) : Nat := 0x500021 + 0x100 * n
abbrev Od.stepReplayLimit : Nat := 0x50F001
abbrev Od.remoteGraceNs : Nat := 0x50F002
abbrev Od.modelFailBeats : Nat := 0x50F003
abbrev Od.stepsPreempted : Nat := 0x50F004
abbrev Od.staleRepliesTotal : Nat := 0x50F005
abbrev Od.seqMax : Nat := 0x50F101
abbrev Od.seqUsed : Nat := 0x50F102
abbrev Od.specDepthMax : Nat := 0x50F103
abbrev Od.specDepthInit : Nat := 0x50F104
abbrev Od.prefixEntriesMax : Nat := 0x50F105
abbrev Od.prefixEntriesUsed : Nat := 0x50F106
abbrev Od.prefixAdopted : Nat := 0x50F107
abbrev Od.prefixPublished : Nat := 0x50F108
abbrev Od.prefixReleased : Nat := 0x50F109
abbrev Od.proposed : Nat := 0x50F10A
abbrev Od.accepted : Nat := 0x50F10B
abbrev Od.outputStallBeats : Nat := 0x50F10C
abbrev Od.seqSelect : Nat := 0x50F10D
abbrev Od.seqInfo : Nat := 0x50F10E
abbrev Od.stakeSelect : Nat := 0x510001
abbrev Od.stakeInfo : Nat := 0x510002
abbrev Od.slotTableSelect : Nat := 0x51F001
abbrev Od.slotTable : Nat := 0x51F002
abbrev Od.slotRefusal : Nat := 0x51F101
abbrev Od.peerState (n : Nat) : Nat := 0x51F801 + 0x100 * n
abbrev Od.peerLanes (n : Nat) : Nat := 0x51F802 + 0x100 * n
abbrev Od.peerRemote (n : Nat) : Nat := 0x51F803 + 0x100 * n
abbrev Od.peerEnable (n : Nat) : Nat := 0x51F804 + 0x100 * n
abbrev Od.peerFlitsTx (n : Nat) : Nat := 0x51F805 + 0x100 * n
abbrev Od.peerFlitsRx (n : Nat) : Nat := 0x51F806 + 0x100 * n
abbrev Od.peerReplays (n : Nat) : Nat := 0x51F807 + 0x100 * n
abbrev Od.peerRetrains (n : Nat) : Nat := 0x51F808 + 0x100 * n
abbrev Od.peerStale (n : Nat) : Nat := 0x51F809 + 0x100 * n
abbrev Od.peerLaneFaults (n : Nat) : Nat := 0x51F80A + 0x100 * n
abbrev Od.skeinState (n : Nat) : Nat := 0x520001 + 0x100 * n
abbrev Od.skeinTenant (n : Nat) : Nat := 0x520002 + 0x100 * n
abbrev Od.skeinModel (n : Nat) : Nat := 0x520003 + 0x100 * n
abbrev Od.skeinId (n : Nat) : Nat := 0x520004 + 0x100 * n
abbrev Od.skeinVersion (n : Nat) : Nat := 0x520005 + 0x100 * n
abbrev Od.skeinRefs (n : Nat) : Nat := 0x520006 + 0x100 * n
abbrev Od.skeinMaxTileEntries (n : Nat) : Nat := 0x520007 + 0x100 * n
abbrev Od.skeinPages (n : Nat) : Nat := 0x520008 + 0x100 * n
abbrev Od.skeinSource (n : Nat) : Nat := 0x520009 + 0x100 * n
abbrev Od.skeinActiveBeat (n : Nat) : Nat := 0x52000A + 0x100 * n
abbrev Od.indexState : Nat := 0x600001
abbrev Od.indexCommand : Nat := 0x600002
abbrev Od.codeWidth : Nat := 0x600003
abbrev Od.lists : Nat := 0x600004
abbrev Od.modelStoreBlocks : Nat := 0x600005
abbrev Od.indexBlocks : Nat := 0x600006
abbrev Od.spareBlocks : Nat := 0x600007
abbrev Od.textBlocks : Nat := 0x600008
abbrev Od.entriesPerPage : Nat := 0x600009
abbrev Od.ratedEntries : Nat := 0x60000A
abbrev Od.indexMainEntries : Nat := 0x60000B
abbrev Od.indexSideEntries : Nat := 0x60000C
abbrev Od.nextEntryNumber : Nat := 0x60000D
abbrev Od.fill : Nat := 0x60000E
abbrev Od.channelsInService : Nat := 0x60000F
abbrev Od.sideFlushBeats : Nat := 0x600010
abbrev Od.sideStripeCloseBeats : Nat := 0x600011
abbrev Od.sideStagingEntries : Nat := 0x600012
abbrev Od.appendFillLimit : Nat := 0x600013
abbrev Od.sideRunsMax : Nat := 0x600014
abbrev Od.reconstructedReads : Nat := 0x600015
abbrev Od.rebuildState : Nat := 0x600016
abbrev Od.rebuildDone : Nat := 0x600017
abbrev Od.rebuildTotal : Nat := 0x600018
abbrev Od.textCompactPercent : Nat := 0x600019
abbrev Od.textFaults : Nat := 0x60001A
abbrev Od.listRereads : Nat := 0x60001B
abbrev Od.centroidObject : Nat := 0x60001C
abbrev Od.checkpointBeats : Nat := 0x60001D
abbrev Od.dieFailBlocks : Nat := 0x60001E
abbrev Od.lostPages : Nat := 0x60001F
abbrev Od.searchWindowBeats : Nat := 0x600020
abbrev Od.windowQueriesMax : Nat := 0x600021
abbrev Od.windowKMax : Nat := 0x600022
abbrev Od.tombstoneSlack : Nat := 0x600023
abbrev Od.tombstoneTableMax : Nat := 0x600024
abbrev Od.tombstones : Nat := 0x600025
abbrev Od.listCacheThreshold : Nat := 0x600026
abbrev Od.listsCached : Nat := 0x600027
abbrev Od.listCacheFills : Nat := 0x600028
abbrev Od.listCacheDrops : Nat := 0x600029
abbrev Od.mergeSideMin : Nat := 0x60002A
abbrev Od.mergesMax : Nat := 0x60002B
abbrev Od.mergesDone : Nat := 0x60002C
abbrev Od.sweepsDone : Nat := 0x60002D
abbrev Od.sweepListsLeft : Nat := 0x60002E
abbrev Od.indexSpineSlots : Nat := 0x60002F
abbrev Od.indexRimSlots : Nat := 0x600030
abbrev Od.indexStackSlots : Nat := 0x600031
abbrev Od.windowsWaited : Nat := 0x600032
abbrev Od.resultsShort : Nat := 0x600033
abbrev Od.hiddenDropped : Nat := 0x600034
abbrev Od.listHeat : Nat := 0x600035
abbrev Od.listCached : Nat := 0x600036
abbrev Od.listSelect : Nat := 0x600040
abbrev Od.listInfo : Nat := 0x600041
abbrev Od.storeSelect : Nat := 0x601001
abbrev Od.storeInfo : Nat := 0x601002
abbrev Od.storeDigest : Nat := 0x601003
abbrev Od.storeData : Nat := 0x601004
abbrev Od.textDictState (n : Nat) : Nat := 0x604001 + 0x100 * n
abbrev Od.textDictCommand (n : Nat) : Nat := 0x604002 + 0x100 * n
abbrev Od.textDictTenant (n : Nat) : Nat := 0x604003 + 0x100 * n
abbrev Od.textDictId (n : Nat) : Nat := 0x604004 + 0x100 * n
abbrev Od.textDictSource (n : Nat) : Nat := 0x604005 + 0x100 * n
abbrev Od.spokeState (n : Nat) : Nat := 0x610001 + 0x100 * n
abbrev Od.dieState (n : Nat) : Nat := 0x610002 + 0x100 * n
abbrev Od.pagesRead (n : Nat) : Nat := 0x610003 + 0x100 * n
abbrev Od.pagesProgrammed (n : Nat) : Nat := 0x610004 + 0x100 * n
abbrev Od.spokeEccCorrected (n : Nat) : Nat := 0x610005 + 0x100 * n
abbrev Od.unreadable (n : Nat) : Nat := 0x610006 + 0x100 * n
abbrev Od.entriesScanned (n : Nat) : Nat := 0x610007 + 0x100 * n
abbrev Od.entriesEligible (n : Nat) : Nat := 0x610008 + 0x100 * n
abbrev Od.framesDecompressed (n : Nat) : Nat := 0x610009 + 0x100 * n
abbrev Od.blocksRetired (n : Nat) : Nat := 0x61000A + 0x100 * n
abbrev Od.vocabState (n : Nat) : Nat := 0x700001 + 0x100 * n
abbrev Od.vocabCommand (n : Nat) : Nat := 0x700002 + 0x100 * n
abbrev Od.vocabSource (n : Nat) : Nat := 0x700003 + 0x100 * n
abbrev Od.vocabOwner (n : Nat) : Nat := 0x700004 + 0x100 * n
abbrev Od.vocabTenants (n : Nat) : Nat := 0x700005 + 0x100 * n
abbrev Od.vocabTargetSlice (n : Nat) : Nat := 0x700006 + 0x100 * n
abbrev Od.vocabEntries (n : Nat) : Nat := 0x700007 + 0x100 * n
abbrev Od.vocabEndToken (n : Nat) : Nat := 0x700008 + 0x100 * n
abbrev Od.vocabMaxBytes (n : Nat) : Nat := 0x700009 + 0x100 * n
abbrev Od.vocabLoadReason (n : Nat) : Nat := 0x70000A + 0x100 * n
abbrev Od.vocabRefs (n : Nat) : Nat := 0x70000B + 0x100 * n
abbrev Od.vocabPages (n : Nat) : Nat := 0x70000C + 0x100 * n
abbrev Od.vocabId (n : Nat) : Nat := 0x70000D + 0x100 * n
abbrev Od.grammarSlotState (n : Nat) : Nat := 0x704001 + 0x100 * n
abbrev Od.grammarCommand (n : Nat) : Nat := 0x704002 + 0x100 * n
abbrev Od.grammarSource (n : Nat) : Nat := 0x704003 + 0x100 * n
abbrev Od.grammarOwner (n : Nat) : Nat := 0x704004 + 0x100 * n
abbrev Od.grammarTenants (n : Nat) : Nat := 0x704005 + 0x100 * n
abbrev Od.grammarClasses (n : Nat) : Nat := 0x704006 + 0x100 * n
abbrev Od.grammarTargetSlice (n : Nat) : Nat := 0x704007 + 0x100 * n
abbrev Od.grammarVocabSlot (n : Nat) : Nat := 0x704008 + 0x100 * n
abbrev Od.grammarStates (n : Nat) : Nat := 0x704009 + 0x100 * n
abbrev Od.grammarStack (n : Nat) : Nat := 0x70400A + 0x100 * n
abbrev Od.grammarCertNs (n : Nat) : Nat := 0x70400B + 0x100 * n
abbrev Od.grammarLoadReason (n : Nat) : Nat := 0x70400C + 0x100 * n
abbrev Od.grammarRefs (n : Nat) : Nat := 0x70400D + 0x100 * n
abbrev Od.grammarPages (n : Nat) : Nat := 0x70400E + 0x100 * n
abbrev Od.grammarDeadEnds (n : Nat) : Nat := 0x70400F + 0x100 * n
abbrev Od.grammarAdvanceFaults (n : Nat) : Nat := 0x704010 + 0x100 * n
abbrev Od.maskBudgetNs (n : Nat) : Nat := 0x709001 + n
abbrev Od.templateState (n : Nat) : Nat := 0x70A001 + 0x100 * n
abbrev Od.templateTenants (n : Nat) : Nat := 0x70A002 + 0x100 * n
abbrev Od.templateVocabId (n : Nat) : Nat := 0x70A003 + 0x100 * n
abbrev Od.templateBody (n : Nat) : Nat := 0x70A004 + 0x100 * n
abbrev Od.budget (n : Nat) : Nat := 0x70A005 + 0x100 * n
abbrev Od.packMax (n : Nat) : Nat := 0x70A006 + 0x100 * n
abbrev Od.passageMax (n : Nat) : Nat := 0x70A007 + 0x100 * n
abbrev Od.passageMin (n : Nat) : Nat := 0x70A008 + 0x100 * n
abbrev Od.promptQueryMax (n : Nat) : Nat := 0x70A009 + 0x100 * n
abbrev Od.order (n : Nat) : Nat := 0x70A00A + 0x100 * n
abbrev Od.dedup (n : Nat) : Nat := 0x70A00B + 0x100 * n
abbrev Od.templateRefs (n : Nat) : Nat := 0x70A00C + 0x100 * n
abbrev Od.packed (n : Nat) : Nat := 0x70A00D + 0x100 * n
abbrev Od.trieJobs : Nat := 0x70F001
abbrev Od.trieBytes : Nat := 0x70F002
abbrev Od.trieLookups : Nat := 0x70F003
abbrev Od.trieMisses : Nat := 0x70F004
abbrev Od.trieFallbacks : Nat := 0x70F005
abbrev Od.maskLate : Nat := 0x70F006
abbrev Od.masksPrepared : Nat := 0x70F007
abbrev Od.masksShared : Nat := 0x70F008
abbrev Od.trieQueueFull : Nat := 0x70F009
abbrev Od.tableState (n : Nat) : Nat := 0x710001 + 0x100 * n
abbrev Od.tableCommand (n : Nat) : Nat := 0x710002 + 0x100 * n
abbrev Od.poolBase (n : Nat) : Nat := 0x710003 + 0x100 * n
abbrev Od.tableOwner (n : Nat) : Nat := 0x710004 + 0x100 * n
abbrev Od.tableTenants (n : Nat) : Nat := 0x710005 + 0x100 * n
abbrev Od.tableRows (n : Nat) : Nat := 0x710006 + 0x100 * n
abbrev Od.tableDim (n : Nat) : Nat := 0x710007 + 0x100 * n
abbrev Od.tableLoadReason (n : Nat) : Nat := 0x710008 + 0x100 * n
abbrev Od.tableRefs (n : Nat) : Nat := 0x710009 + 0x100 * n
abbrev Od.rowsGathered (n : Nat) : Nat := 0x71000A + 0x100 * n
abbrev Od.rowsFromCache (n : Nat) : Nat := 0x71000B + 0x100 * n
abbrev Od.rowsMissingCount (n : Nat) : Nat := 0x71000C + 0x100 * n
abbrev Od.gatherRetries (n : Nat) : Nat := 0x71000D + 0x100 * n
abbrev Od.chunksCached (n : Nat) : Nat := 0x71000E + 0x100 * n
abbrev Od.groupHeat (n : Nat) : Nat := 0x71000F + 0x100 * n
abbrev Od.hotSample (n : Nat) : Nat := 0x710010 + 0x100 * n
abbrev Od.classCounts (n : Nat) : Nat := 0x710011 + 0x100 * n
abbrev Od.tableImageId (n : Nat) : Nat := 0x710012 + 0x100 * n
abbrev Od.fsetState (n : Nat) : Nat := 0x714001 + 0x100 * n
abbrev Od.fsetModel (n : Nat) : Nat := 0x714002 + 0x100 * n
abbrev Od.fsetFeatures (n : Nat) : Nat := 0x714003 + 0x100 * n
abbrev Od.clsToken (n : Nat) : Nat := 0x714004 + 0x100 * n
abbrev Od.sepToken (n : Nat) : Nat := 0x714005 + 0x100 * n
abbrev Od.queryMax (n : Nat) : Nat := 0x714006 + 0x100 * n
abbrev Od.rowMax (n : Nat) : Nat := 0x714007 + 0x100 * n
abbrev Od.feature (n f : Nat) : Nat := 0x714010 + 0x100 * n + f
abbrev Od.rowCacheThreshold : Nat := 0x71F001
abbrev Od.hotSamplePeriod : Nat := 0x71F002
abbrev Od.bagsPooled : Nat := 0x71F003
abbrev Od.poolStaleReplies : Nat := 0x71F004
abbrev Od.candidatesDropped : Nat := 0x71F005
abbrev Od.duplicatesSkipped : Nat := 0x71F006
abbrev Od.poolLink : Nat := 0x71F101
abbrev Od.poolTimeoutNs : Nat := 0x71F102
abbrev Od.poolTagQuarantineNs : Nat := 0x71F103
abbrev Od.poolTags : Nat := 0x71F104
abbrev Od.poolTagsInUse : Nat := 0x71F105
abbrev Od.poolReads : Nat := 0x71F106
abbrev Od.poolTimeouts : Nat := 0x71F107
abbrev Od.poolPoison : Nat := 0x71F108
abbrev Od.poolStale : Nat := 0x71F109
abbrev Od.poolDecoderSelect : Nat := 0x71F10A
abbrev Od.poolDecoder : Nat := 0x71F10B
abbrev Od.taSelect : Nat := 0x800001
abbrev Od.taLevel : Nat := 0x800002
abbrev Od.taGrants : Nat := 0x800003
abbrev Od.taWaitCycles : Nat := 0x800004
abbrev Od.taLongestWait : Nat := 0x800005
abbrev Od.taHint : Nat := 0x800006
abbrev Od.spokeReqLevel (n : Nat) : Nat := 0x801001 + n
abbrev Od.singleFaults : Nat := 0x900001
abbrev Od.lastFault : Nat := 0x900002
abbrev Od.longestInterruptionNs : Nat := 0x900003
abbrev Od.arraysInService : Nat := 0x900004
abbrev Od.eccCorrected : Nat := 0x900005
abbrev Od.eccUncorrectable : Nat := 0x900006
abbrev Od.linkRetries : Nat := 0x900007
abbrev Od.hangResets : Nat := 0x900008
abbrev Od.epochDrops : Nat := 0x900009
abbrev Od.keeperResets : Nat := 0x90000A
abbrev Od.arrayMismatchCount (n : Nat) : Nat := 0x902001 + n
abbrev Od.arrayRetireThreshold : Nat := 0x902101
abbrev Od.arrayRetireWindow : Nat := 0x902102
abbrev Od.arrayInstrFaultCount (n : Nat) : Nat := 0x902201 + n
abbrev Od.staleArrivalCount (n : Nat) : Nat := 0x902301 + n
abbrev Od.mailboxOverflowCount : Nat := 0x902401
abbrev Od.bundlePortBadWriteCount : Nat := 0x902402
abbrev Od.slotLoadRefusedCount : Nat := 0x902501
abbrev Od.mergeTopkNumfaultCount (n : Nat) : Nat := 0x902601 + n
abbrev Od.diceNumfaultCount (n f : Nat) : Nat := 0x902701 + 0x100 * n + f
abbrev Od.diceTailRows (n f : Nat) : Nat := 0x902801 + 0x100 * n + f
abbrev Od.dicePositions (n f : Nat) : Nat := 0x902901 + 0x100 * n + f
abbrev Od.rngKeysFresh (n f : Nat) : Nat := 0x902A01 + 0x100 * n + f
abbrev Od.rngRatchets (n f : Nat) : Nat := 0x902B01 + 0x100 * n + f
abbrev Od.rngHealthFails (n f : Nat) : Nat := 0x902C01 + 0x100 * n + f
abbrev Od.rngSourceState (n : Nat) : Nat := 0x902D01 + n
abbrev Od.arrayNumfaultCount (n : Nat) : Nat := 0x902E01 + n
abbrev Od.spokeNumfaultCount (n : Nat) : Nat := 0x902F01 + n
abbrev Od.recordCapacity : Nat := 0x910001
abbrev Od.recordNext : Nat := 0x910002
abbrev Od.recordOldest : Nat := 0x910003
abbrev Od.recordSelect : Nat := 0x910004
abbrev Od.recordRead : Nat := 0x910005
abbrev Od.mirrorState : Nat := 0x910006
abbrev Od.mirrorLag : Nat := 0x910007
abbrev Od.bootStep : Nat := 0xA00001
abbrev Od.bootImage : Nat := 0xA00002
abbrev Od.imageARelease : Nat := 0xA00003
abbrev Od.imageBRelease : Nat := 0xA00004
abbrev Od.preferredImage : Nat := 0xA00005
abbrev Od.bootCount : Nat := 0xA00006
abbrev Od.rollbacks : Nat := 0xA00007
abbrev Od.updateImage : Nat := 0xA00008
abbrev Od.updateState : Nat := 0xA00009
abbrev Od.updateCommand : Nat := 0xA0000A
abbrev Od.measurement (n : Nat) : Nat := 0xA00010 + n
abbrev Od.measurementLog : Nat := 0xA00018
abbrev Od.measurementLogEntries : Nat := 0xA00019
abbrev Od.sbFunction (n : Nat) : Nat := 0xB00001 + n
abbrev Od.beatSource : Nat := 0xB00101
abbrev Od.gpioDirection : Nat := 0xB00102
abbrev Od.gpioOutput : Nat := 0xB00103
abbrev Od.pinLevels : Nat := 0xB00104
abbrev Od.uartBaud : Nat := 0xB00105
abbrev Od.pinSwitches : Nat := 0xB00106
abbrev Od.syncMarkBeats : Nat := 0xB00107

end Sys2Proof.Machine
end

