-- ==== Sys2Proof/Machine/Sha.lean ====
section
/-!
DEFINITION. The published functions the spec names: SHA-384 and SHA-256 (FIPS 180-4; R382, R461, R622, R625), HMAC over
SHA-256 (R461), CRC-32C (R613) and the CRC-8 of a beat word (R526).
-/
namespace Sys2Proof.Machine

def shaK5120 : List Nat := [
  0x428A2F98D728AE22, 0x7137449123EF65CD, 0xB5C0FBCFEC4D3B2F, 0xE9B5DBA58189DBBC,
  0x3956C25BF348B538, 0x59F111F1B605D019, 0x923F82A4AF194F9B, 0xAB1C5ED5DA6D8118,
  0xD807AA98A3030242, 0x12835B0145706FBE, 0x243185BE4EE4B28C, 0x550C7DC3D5FFB4E2,
  0x72BE5D74F27B896F, 0x80DEB1FE3B1696B1, 0x9BDC06A725C71235, 0xC19BF174CF692694]

def shaK5121 : List Nat := [
  0xE49B69C19EF14AD2, 0xEFBE4786384F25E3, 0x0FC19DC68B8CD5B5, 0x240CA1CC77AC9C65,
  0x2DE92C6F592B0275, 0x4A7484AA6EA6E483, 0x5CB0A9DCBD41FBD4, 0x76F988DA831153B5,
  0x983E5152EE66DFAB, 0xA831C66D2DB43210, 0xB00327C898FB213F, 0xBF597FC7BEEF0EE4,
  0xC6E00BF33DA88FC2, 0xD5A79147930AA725, 0x06CA6351E003826F, 0x142929670A0E6E70]

def shaK5122 : List Nat := [
  0x27B70A8546D22FFC, 0x2E1B21385C26C926, 0x4D2C6DFC5AC42AED, 0x53380D139D95B3DF,
  0x650A73548BAF63DE, 0x766A0ABB3C77B2A8, 0x81C2C92E47EDAEE6, 0x92722C851482353B,
  0xA2BFE8A14CF10364, 0xA81A664BBC423001, 0xC24B8B70D0F89791, 0xC76C51A30654BE30,
  0xD192E819D6EF5218, 0xD69906245565A910, 0xF40E35855771202A, 0x106AA07032BBD1B8]

def shaK5123 : List Nat := [
  0x19A4C116B8D2D0C8, 0x1E376C085141AB53, 0x2748774CDF8EEB99, 0x34B0BCB5E19B48A8,
  0x391C0CB3C5C95A63, 0x4ED8AA4AE3418ACB, 0x5B9CCA4F7763E373, 0x682E6FF3D6B2B8A3,
  0x748F82EE5DEFB2FC, 0x78A5636F43172F60, 0x84C87814A1F0AB72, 0x8CC702081A6439EC,
  0x90BEFFFA23631E28, 0xA4506CEBDE82BDE9, 0xBEF9A3F7B2C67915, 0xC67178F2E372532B]

def shaK5124 : List Nat := [
  0xCA273ECEEA26619C, 0xD186B8C721C0C207, 0xEADA7DD6CDE0EB1E, 0xF57D4F7FEE6ED178,
  0x06F067AA72176FBA, 0x0A637DC5A2C898A6, 0x113F9804BEF90DAE, 0x1B710B35131C471B,
  0x28DB77F523047D84, 0x32CAAB7B40C72493, 0x3C9EBE0A15C9BEBC, 0x431D67C49C100D4C,
  0x4CC5D4BECB3E42B6, 0x597F299CFC657E2A, 0x5FCB6FAB3AD6FAEC, 0x6C44198C4A475817]

def shaK512 : List Nat := shaK5120 ++ shaK5121 ++ shaK5122 ++ shaK5123 ++ shaK5124

def shaK2560 : List Nat := [
  0x428A2F98, 0x71374491, 0xB5C0FBCF, 0xE9B5DBA5,
  0x3956C25B, 0x59F111F1, 0x923F82A4, 0xAB1C5ED5,
  0xD807AA98, 0x12835B01, 0x243185BE, 0x550C7DC3,
  0x72BE5D74, 0x80DEB1FE, 0x9BDC06A7, 0xC19BF174]

def shaK2561 : List Nat := [
  0xE49B69C1, 0xEFBE4786, 0x0FC19DC6, 0x240CA1CC,
  0x2DE92C6F, 0x4A7484AA, 0x5CB0A9DC, 0x76F988DA,
  0x983E5152, 0xA831C66D, 0xB00327C8, 0xBF597FC7,
  0xC6E00BF3, 0xD5A79147, 0x06CA6351, 0x14292967]

def shaK2562 : List Nat := [
  0x27B70A85, 0x2E1B2138, 0x4D2C6DFC, 0x53380D13,
  0x650A7354, 0x766A0ABB, 0x81C2C92E, 0x92722C85,
  0xA2BFE8A1, 0xA81A664B, 0xC24B8B70, 0xC76C51A3,
  0xD192E819, 0xD6990624, 0xF40E3585, 0x106AA070]

def shaK2563 : List Nat := [
  0x19A4C116, 0x1E376C08, 0x2748774C, 0x34B0BCB5,
  0x391C0CB3, 0x4ED8AA4A, 0x5B9CCA4F, 0x682E6FF3,
  0x748F82EE, 0x78A5636F, 0x84C87814, 0x8CC70208,
  0x90BEFFFA, 0xA4506CEB, 0xBEF9A3F7, 0xC67178F2]

def shaK256 : List Nat := shaK2560 ++ shaK2561 ++ shaK2562 ++ shaK2563

def shaH384 : List Nat := [
  0xCBBB9D5DC1059ED8, 0x629A292A367CD507, 0x9159015A3070DD17, 0x152FECD8F70E5939,
  0x67332667FFC00B31, 0x8EB44A8768581511, 0xDB0C2E0D64F98FA7, 0x47B5481DBEFA4FA4]

def shaH256 : List Nat := [
  0x6A09E667, 0xBB67AE85, 0x3C6EF372, 0xA54FF53A,
  0x510E527F, 0x9B05688C, 0x1F83D9AB, 0x5BE0CD19]

/-- The parameters of one member of the family: word width, block bytes, rotation amounts. -/
structure ShaPar where
  w   : Nat
  s0  : Nat × Nat × Nat
  s1  : Nat × Nat × Nat
  b0  : Nat × Nat × Nat
  b1  : Nat × Nat × Nat
  ks  : List Nat

def par512 : ShaPar := ⟨64, (1, 8, 7), (19, 61, 6), (28, 34, 39), (14, 18, 41), shaK512⟩
def par256 : ShaPar := ⟨32, (7, 18, 3), (17, 19, 10), (2, 13, 22), (6, 11, 25), shaK256⟩

def rotr (w x n : Nat) : Nat := x / 2 ^ n + x % 2 ^ n * 2 ^ (w - n)
def sigS (w : Nat) (p : Nat × Nat × Nat) (x : Nat) : Nat :=
  Nat.xor (Nat.xor (rotr w x p.1) (rotr w x p.2.1)) (x / 2 ^ p.2.2)
def sigB (w : Nat) (p : Nat × Nat × Nat) (x : Nat) : Nat :=
  Nat.xor (Nat.xor (rotr w x p.1) (rotr w x p.2.1)) (rotr w x p.2.2)

/-- One round: the eight working variables and the sixteen schedule words still to be used. -/
def shaRound (p : ShaPar) (st : List Nat × List Nat) (k : Nat) : List Nat × List Nat :=
  match st with
  | ([a, b, c, d, e, f, g, h], ws) =>
    let m := 2 ^ p.w
    let w := ws.headD 0
    let ch := Nat.xor (Nat.land e f) (Nat.land (m - 1 - e) g)
    let mj := Nat.xor (Nat.xor (Nat.land a b) (Nat.land a c)) (Nat.land b c)
    let t1 := (h + sigB p.w p.b1 e + ch + k + w) % m
    let t2 := (sigB p.w p.b0 a + mj) % m
    let nw := (sigS p.w p.s1 (ws.getD 14 0) + ws.getD 9 0 + sigS p.w p.s0 (ws.getD 1 0) + w) % m
    ([(t1 + t2) % m, a, b, c, (d + t1) % m, e, f, g], ws.drop 1 ++ [nw])
  | x => x

/-- The sixteen big-endian words of a block. -/
def blockWords (n : Nat) : Nat → List Byte → List Nat
  | 0, _ => []
  | k + 1, bs => beNat (bs.take n) :: blockWords n k (bs.drop n)

def shaBlock (p : ShaPar) (hs : List Nat) (blk : List Byte) : List Nat :=
  let r := (p.ks.foldl (shaRound p) (hs, blockWords (p.w / 8) 16 blk)).1
  (hs.zip r).map fun x => (x.1 + x.2) % 2 ^ p.w

def shaBlocks (p : ShaPar) : Nat → List Nat → List Byte → List Nat
  | 0, hs, _ => hs
  | n + 1, hs, bs => shaBlocks p n (shaBlock p hs (bs.take (2 * p.w))) (bs.drop (2 * p.w))

/-- The padded message: a one bit, zeros, and the length in bits in two words. -/
def shaPad (w : Nat) (bs : List Byte) : List Byte :=
  let blk := 2 * w
  let used := (bs.length + 1 + w / 4) % blk
  bs ++ [0x80#8] ++ List.replicate ((blk - used) % blk) 0 ++ beBytes (w / 4) (8 * bs.length)

def shaRun (p : ShaPar) (iv : List Nat) (bs : List Byte) : List Nat :=
  let m := shaPad p.w bs
  shaBlocks p (m.length / (2 * p.w)) iv m

/-- SHA-384 of a byte string, as a number of 384 bits whose byte 0 is the most significant. -/
def sha384 (bs : List Byte) : Nat :=
  ((shaRun par512 shaH384 bs).take 6).foldl (fun acc x => acc * 2 ^ 64 + x) 0

/-- SHA-256 of a byte string. -/
def sha256 (bs : List Byte) : Nat :=
  (shaRun par256 shaH256 bs).foldl (fun acc x => acc * 2 ^ 32 + x) 0

/-- HMAC-SHA-256 under a 32-byte key (R461). -/
def hmac256 (key : Nat) (bs : List Byte) : Nat :=
  let k := beBytes 32 key ++ List.replicate 32 0
  let x (c : Nat) : List Byte := k.map fun b => BitVec.ofNat 8 (Nat.xor b.toNat c)
  sha256 (x 0x5C ++ beBytes 32 (sha256 (x 0x36 ++ bs)))

/-- One bit of a reflected CRC. -/
def crcBitR (poly c : Nat) : Nat := if c % 2 = 1 then Nat.xor (c / 2) poly else c / 2
def crcByteR (poly c : Nat) (b : Byte) : Nat :=
  (List.range 8).foldl (fun x _ => crcBitR poly x) (Nat.xor c b.toNat)

/-- CRC-32C: reflected polynomial 0x82F63B78, initial value and final XOR all ones. -/
def crc32c (bs : List Byte) : Nat :=
  Nat.xor (bs.foldl (crcByteR 0x82F63B78) 0xFFFFFFFF) 0xFFFFFFFF

/-- The CRC-8 of R526: polynomial 0x07, initial value 0, not reflected, no final XOR. -/
def crc8 (bs : List Byte) : Nat :=
  bs.foldl (fun c b => (List.range 8).foldl
    (fun x _ => if bitAt x 7 then Nat.xor (x * 2 % 256) 0x07 else x * 2 % 256) (Nat.xor c b.toNat)) 0

end Sys2Proof.Machine
end

