-- ==== Sys2Proof/Machine/State.lean ====
section
/-!
DEFINITION. The state of the module: every register, queue, buffer, table, mode and pin the spec gives it, as plain
data, the queue of waiting commands, and what the model itself adds (freeCtr).  Registers that the spec gives as objects of
the dictionary live in `od` under their key (Machine/Objects.lean); every other piece has a field of its own.
The default of a field is its value in State.reset.
-/
namespace Sys2Proof.Machine

/-! ## Matrix arrays and their edge units (03_matrix_arrays.md, 04_array_instructions.md) -/

/-- The ramp states of R85. -/
inductive Ramp where
  | off | up | full | down
  deriving DecidableEq, Repr

/-- A stationary tile in the shadow or active registers (R73, R74): the descriptor it was loaded from, the format
code, element codes at n * 512 + k, scale bytes at n * 16 + k / 32, and the checksum vectors by k (R97). -/
structure Tile where
  desc   : Nat := 0
  fmt    : Nat := 0
  elems  : Tbl Nat := []
  scales : Tbl Nat := []
  sum    : Tbl FP32 := []
  mag    : Tbl FP32 := []
  res    : Nat := 0
  epoch  : Nat := 0
  deriving DecidableEq, Repr

/-- One half of the stream buffer (R75, R117): full for a descriptor or free; element codes at m * 512 + k, scale
bytes at m * 16 + k / 32, row attribute words by m. -/
structure SHalf where
  desc   : Option Nat := none
  elems  : Tbl Nat := []
  scales : Tbl Nat := []
  attrs  : Tbl Nat := []
  res    : Nat := 0
  epoch  : Nat := 0
  deriving DecidableEq, Repr

/-- A skein tile at a position of a skein buffer half (R96, R114, R118): entries (column, k, BF16 bits). -/
structure SkTile where
  desc    : Nat := 0
  entries : List (Nat × Nat × Nat) := []
  sum     : Tbl FP32 := []
  mag     : Tbl FP32 := []
  deriving DecidableEq, Repr

/-- One half of the skein buffer: positions 0 to 15; whether an MMA has used it since it was filled (R118). -/
structure SkHalf where
  tiles : Tbl SkTile := []
  used  : Bool := false
  res   : Nat := 0
  epoch : Nat := 0
  deriving DecidableEq, Repr

/-- An accumulator unit of 16 rows (R84): who holds it, its last added block and whether its operand pair is
BF16 (R99). -/
structure AccUnit where
  held  : Bool := false
  res   : Nat := 0
  epoch : Nat := 0
  last  : Nat := 0
  bf16  : Bool := false
  deriving DecidableEq, Repr

/-- Softmax state and row statistics of one row of a resident (R90, R91, R123, R128), and the SR_EN of the stream row that finished it
last (R130). -/
structure RowState where
  prevMax : FP32 := 0
  maxv    : FP32 := 0
  sum     : FP32 := 0
  rsum    : FP32 := 0
  sumsq   : FP32 := 0
  sr      : Bool := false
  deriving DecidableEq, Repr

/-- An exported row in the owner's staging area (R81, R122, R126). -/
structure Staged where
  sums : List FP32 := []
  sk   : Option (List FP32) := none
  ref  : FP32 := 0
  mag  : FP32 := 0
  bf16 : Bool := false
  deriving DecidableEq, Repr

/-- A word accepted into a queue, with the descriptor copies read at acceptance in the order of its fields (R107,
R108), its bundle and its place in it. -/
structure QWord where
  word   : Nat := 0
  descs  : List Nat := []
  bundle : Nat := 0
  idx    : Nat := 0
  res    : Nat := 0
  epoch  : Nat := 0
  deriving DecidableEq, Repr

/-- An accepted bundle not yet complete (R107, R109, R137). -/
structure Bundle where
  key      : Nat := 0
  header   : Nat := 0
  left     : Nat := 0
  mismatch : Nat := 0
  numfault : Nat := 0
  overflow : Bool := false
  status   : Nat := 0
  word     : Nat := 0
  deriving DecidableEq, Repr

/-- The bundle port while it is locked to a writer (R106): the words received so far, newest last. -/
structure PortLock where
  core   : Nat := 0
  header : Nat := 0
  words  : List Nat := []
  deriving DecidableEq, Repr

/-- An issued compute instruction that has not completed (R136). -/
structure Issued where
  q    : QWord := {}
  op   : Nat := 0
  dsig : Option Nat := none
  units : List Nat := []
  deriving DecidableEq, Repr

/-- A top-k job in progress in a channel (R132, R302). -/
structure TkJob where
  k       : Nat := 0
  count   : Nat := 0
  base    : Nat := 0
  port    : Bool := false
  idesc   : Nat := 0
  vals    : List FP32 := []
  q       : QWord := {}
  deriving DecidableEq, Repr

/-- An on-demand fetch a load or a VECTOR read waits for (R191): the word and the bytes it misses. -/
structure Fetch where
  q       : QWord := {}
  bytes   : Nat := 0
  deriving DecidableEq, Repr

/-- One matrix array (R70 to R141).  Accumulator element (row r, column n) is at r * 256 + n, r the row within the
32 units of 16; state rows are at resident * 512 + row; sync counters at resident * 16 + counter; vecs is the word (bundle, index)
whose fetched vectors are in near store. -/
structure Arr where
  ramp    : Ramp := .off
  active  : Option Tile := none
  shadow  : Option Tile := none
  half0   : SHalf := {}
  half1   : SHalf := {}
  sk0     : SkHalf := {}
  sk1     : SkHalf := {}
  acc     : Tbl FP32 := []
  units   : Tbl AccUnit := []
  ref     : Tbl FP32 := []
  mag     : Tbl FP32 := []
  nb      : Tbl Nat := []
  rows    : Tbl RowState := []
  staged  : Tbl Staged := []
  topk    : Tbl (Option TkJob) := []
  loadQ   : List QWord := []
  compQ   : List QWord := []
  issued  : List Issued := []
  fetch   : Option Fetch := none
  vecs    : Option (Nat × Nat) := none
  port    : Option PortLock := none
  bundles : List Bundle := []
  nextKey : Nat := 0
  sync    : Tbl Nat := []
  syncEp  : Tbl Nat := []
  actEp   : Tbl (Option Nat) := []
  fails   : List Nat := []
  eccBeat : Option Nat := none
  idleOff : Nat := 0
  stop    : List Nat := []
  deriving DecidableEq, Repr

/-- A resident of an array (R89, R110, R175, R176, R193): its model and stake, its accumulator share, its two maps,
its TRANSIT granules and its descriptor table. -/
structure Resident where
  used     : Bool := false
  model    : Nat := 0
  stake    : Nat := 0
  accBase  : Nat := 0
  accUnits : Nat := 0
  nearMap  : Tbl Nat := []
  stackMap : Tbl Nat := []
  transit  : List Nat := []
  descs    : Tbl Nat := []
  deriving DecidableEq, Repr

/-- An increment on its way to an array (R134 to R136). -/
structure Incr where
  target : Nat := 0
  res    : Nat := 0
  ctr    : Nat := 0
  value  : Nat := 0
  epoch  : Nat := 0
  staged : Option (Nat × Staged) := none
  deriving DecidableEq, Repr

/-! ## Reed cores, keepers, mailboxes and slot tables (05_reed_cores_and_spine.md) -/

/-- A mailbox (R149): entries (tag, payload), head first. -/
structure Mbox where
  entries : List (Nat × Nat) := []
  irqEn   : Bool := false
  overrun : Bool := false
  deriving DecidableEq, Repr

/-- What a reed core's access does when it is made: a word or header to a bundle port, or a post (R145). -/
inductive Access where
  | header (a : Nat) (w : Nat)
  | word (a : Nat) (bytes : Nat) (w : Nat)
  | post (core off bytes : Nat) (w : Nat)
  deriving DecidableEq, Repr

/-- A reed core (R143, R147, R148): SPINE_OWNER, an access held for lack of slots, the pending beat interrupt, and
the access-fault exception it took last (0 none, 5 load, 7 store). -/
structure RCore where
  owner   : Nat := 0
  held    : Option Access := none
  beatIrq : Bool := false
  exc     : Nat := 0
  deriving DecidableEq, Repr

/-- A keeper core (R144, R153): the heartbeat window the other keeper writes, and whether it has taken over the other's duties. -/
structure Keeper where
  window : Nat := 0
  tookOver   : Bool := false
  deriving DecidableEq, Repr

/-! ## Memory tiers (06_memory_tiers.md) -/

/-- What a stack page holds, beyond its directory entry: kind 0 nothing, 1 plan tiles, 2 skein, 3 vocabulary,
4 grammar, 5 key-value, 6 feature, 7 list cache, 8 row cache, 10 firmware; the object's number and the
page's index within it (R179, R205). -/
structure PUse where
  kind : Nat := 0
  obj  : Nat := 0
  idx  : Nat := 0
  deriving DecidableEq, Repr

/-- A page directory entry (R173). -/
structure Page where
  heat    : Nat := 0
  touch   : Nat := 0
  present : Nat := 0
  target  : Nat := 0
  cls     : Nat := 0
  owner   : Nat := 0
  pub     : Nat := 0
  use     : PUse := {}
  deriving DecidableEq, Repr

/-- A granule tag (R174). -/
structure Gran where
  state   : Nat := 0
  heat    : Nat := 0
  page    : Nat := 0
  piece   : Nat := 0
  owner   : Nat := 0
  res     : Nat := 0
  readers : Nat := 0
  deriving DecidableEq, Repr

/-- A queued piece migration (R187, R189). -/
structure Migr where
  page  : Nat := 0
  piece : Nat := 0
  gran  : Nat := 0
  deriving DecidableEq, Repr

/-- The two tiers: bytes of the near store at slice * 2^25 + offset, of the stack store at page * 2^21 + offset;
directories; residents' maps are in Resident; counters already heated this beat (page P as 2P, granule G as 2G + 1). -/
structure Mem where
  near    : Tbl Byte := []
  stack   : Tbl Byte := []
  pages   : Tbl Page := []
  grans   : Tbl Gran := []
  queues  : Tbl (List Migr) := []
  counted : List Nat := []
  refetch : List (Nat × Page) := []
  scrub   : Tbl Nat := []
  pcOut   : Tbl Nat := []
  pcErr   : Tbl (List (Nat × Nat)) := []
  stacksOut : List Nat := []
  deriving DecidableEq, Repr

/-- The slot tables (R160 to R169): live and ledger owners at ((kind * 65536 + instance) * 256 + slot), reserve slots
apart; instances whose slots are idled; whether the ledger has an uncorrectable error. -/
structure Slots where
  live    : Tbl Nat := []
  ledger  : Tbl Nat := []
  idled   : List Nat := []
  ledgerBad : Bool := false
  deriving DecidableEq, Repr

/-! ## Power, clocks and resets (19_power_clocks_resets.md) -/

/-- What a domain keeps beside OD 2000 to 2002 (R569, R571, R590, R594): why it is QUIESCING or IN_RESET (0 nothing,
1 power-down, 2 reset, 3 update), failed wake attempts, a reset or a wake requested meanwhile. -/
structure Pd where
  reason   : Nat := 0
  attempts : Nat := 0
  rstAfter : Bool := false
  wakeAfter : Bool := false
  deriving DecidableEq, Repr

/-- A request in a wake ledger (R573): a domain wake or an array's ramp-up, its place in the order, its rank key and
the time it was asked for. -/
structure WakeReq where
  ramp  : Bool := false
  unit  : Nat := 0
  order : Nat := 5
  rank  : List Nat := []
  asked : Nat := 0
  deriving DecidableEq, Repr

/-- A die's wake ledger (R573): the queue, the time of its last domain wake and of its latest ramp-ups, in ns. -/
structure Ledger where
  queue : List WakeReq := []
  lastWake : Option Nat := none
  ramps : List Nat := []
  deriving DecidableEq, Repr

/-- Power, clocks, coolant and temperature (R567 to R594, R655, R656): the two inputs and the main switch; the time of
the always-on timebase in ns; the domains; the wake ledgers; each array's planner clock; the
cap clock and its count of beats below 95 % of the limit; THROTTLE_N asserted; arrays down under R582, tripped dies,
the module trip, an inlet above INLET_MAX; ports with a link (bits 0 and 1) and the SerDes groups enabled. -/
structure Power where
  mainOn   : Bool := false
  mainSw   : Bool := false
  stbyOn   : Bool := false
  now      : Nat := 0
  pds      : Tbl Pd := []
  ledgers  : Tbl Ledger := []
  planClk  : Tbl Nat := []
  capClk   : Nat := 1500
  below95  : Nat := 0
  throttle : Bool := false
  downBy582 : Bool := false
  tripped  : List Nat := []
  moduleTrip : Bool := false
  inletHot : Bool := false
  ethUp    : Nat := 0
  serdesOn : List Nat := [89, 90, 96, 97]
  deriving DecidableEq, Repr

/-! ## Faults, ageing and the record store (20_faults_ageing_record.md) -/

/-- A record (R613), its number apart: beat, OFFSET, STANDBY_ONLY, kind, writer, BOOT, SUPPRESSED, DATA. -/
structure Rec where
  number  : Nat := 0
  beat    : Nat := 0
  offset  : Nat := 0
  standby : Bool := false
  kind    : Nat := 0
  writer  : Nat := 0
  boot    : Nat := 0
  supp    : Nat := 0
  data    : Nat := 0
  deriving DecidableEq, Repr

/-- Events of one kind and part within a beat (R615): whether the pair has its record for the beat, how many events
were suppressed, and the last of them. -/
structure PairRec where
  kind  : Nat := 0
  part  : Nat := 0
  count : Nat := 0
  last  : Rec := {}
  deriving DecidableEq, Repr

/-- The record store (R562, R613 to R617): the ring, newest first, the number the next record takes, this beat's
pairs, and how many records the NOR mirror still lacks is OD 9100:07. -/
structure Records where
  ring  : List Rec := []
  next  : Nat := 0
  pairs : List PairRec := []
  deriving DecidableEq, Repr

/-- A monitored domain's ageing state (R609 to R611): V_min sums of the point being formed, history points, the
streak of high margins, a pending voltage, and whether it waits for its next ON. -/
structure Aged where
  accum   : Nat := 0
  samples : Nat := 0
  hist    : List Nat := []
  streak  : Nat := 0
  pending : Option Nat := none
  due     : Bool := false
  deriving DecidableEq, Repr

/-- Parts with an epoch of their own (R604), by unit number; link modules in service and redundant lanes left (R607);
retries counted this beat (kind 0x26). -/
structure Parts where
  epochs  : Tbl Nat := []
  busy    : List Nat := []
  modules : Tbl Nat := []
  lanes   : Tbl Nat := []
  retries : Tbl Nat := []
  failedLinks : List Nat := []
  holdFrom : Tbl Nat := []
  deriving DecidableEq, Repr

/-! ## Start-up, measurement and update (21_boot_measurement_update.md) -/

/-- An entry of the measurement log (R627). -/
structure MeasEntry where
  slot   : Nat := 0
  event  : Nat := 0
  digest : Nat := 0
  object : Nat := 0
  info   : Nat := 0
  beat   : Nat := 0
  deriving DecidableEq, Repr

/-- Start-up and update (R618 to R633): the NOR images' bytes, the attempt in progress, the images
already tried, the log, the drain. -/
structure Boot where
  imageA   : List Byte := []
  imageB   : List Byte := []
  validA   : Bool := false
  validB   : Bool := false
  attempt  : Option Nat := none
  tried    : List Nat := []
  log      : List MeasEntry := []
  logOver  : Bool := false
  logCount : Nat := 0
  draining : Bool := false
  drainTo  : Option Nat := none
  awaitMain : Bool := false
  pinsLive : Bool := false
  deriving DecidableEq, Repr

/-! ## Side-band pins (22_module_package_pins.md) -/

/-- The pins and what drives them (R640 to R649): neutral holds (pin, old function), pulses in progress, the record frames
the UART tap sent last, the TAP instruction (0 BYPASS, 1 IDCODE, 2 SAMPLE/PRELOAD, 3 EXTEST,
4 CLAMP, 5 HIGHZ), the boundary-scan register and the value TDO shifts out, the last line sent on DBG_TX (record number,
beat, kind). -/
structure Pins where
  holds    : Tbl (Option Nat) := []
  syncHigh : Bool := false
  faultPulse : Bool := false
  alertPulse : Bool := false
  uartOut  : List Rec := []
  jtag     : Nat := 1
  bsr      : Nat := 0
  tdo      : Nat := 0
  dbg      : Option (Nat × Nat × Nat) := none
  deriving DecidableEq, Repr

/-! ## The chain, the beat and the dictionary (17_chain_beat_dictionary.md) -/

/-- A chain frame as the module sends or forwards it (R519, R520): its header and payload, and whether it ended with a corrupt frame
check sequence. -/
structure Frame where
  header  : Nat := 0
  payload : List Byte := []
  corrupt : Bool := false
  deriving DecidableEq, Repr

/-- The chain and the beat input (R517 to R533): whether the upstream delay is measured, the delay and the beat of a HOLD's start, an
ENUMERATE that waits, the frames sent, newest first; words in a row in LOCKING and the last one's COUNT and PERIOD_US, invalid words
in a row, the source's COUNT while valid words arrive and whether one came in this beat, slewing towards the markers, the
period of the next boundary, an accepted BEAT_RESYNC, whether a count has been taken, and the last word on BEAT_OUT. -/
structure Chain where
  measured : Bool := false
  oldDelay : Nat := 0
  hold     : Nat := 0
  enumWait : Option (Nat × Nat) := none
  sentUp   : List Frame := []
  sentDown : List Frame := []
  runLen   : Nat := 0
  runLast  : Nat := 0
  runPer   : Nat := 0
  invalid  : Nat := 0
  srcCount : Option Nat := none
  wordSeen : Bool := false
  slewing  : Bool := false
  newPeriod : Option Nat := none
  resync   : Bool := false
  hasCount : Bool := false
  beatOut  : Nat := 0
  deriving DecidableEq, Repr

/-- A dictionary write staged or waiting for the next boundary (R541): the object's key and the value, or the bytes of a BLOB, and the
path's selection when it was written. -/
structure SWrite where
  key  : Nat := 0
  val  : Nat := 0
  blob : List Byte := []
  sel  : Nat := 0
  deriving DecidableEq, Repr

/-- A set fixed by COMMIT (R542): its writes, the lock's handle, and the path, SESSION, TAG and operation word of the COMMIT. -/
structure FixedSet where
  writes  : List SWrite := []
  handle  : Nat := 0
  path    : Nat := 0
  session : Nat := 0
  tag     : Nat := 0
  word    : Nat := 0
  deriving DecidableEq, Repr

/-- An open segmented transfer (R540). -/
structure Seg where
  isWrite : Bool := false
  key     : Nat := 0
  sel     : Nat := 0
  total   : Nat := 0
  data    : List Byte := []
  next    : Nat := 0
  idle    : Nat := 0
  deriving DecidableEq, Repr

/-- A reply the module sent (R537, R538): its operation word with STATUS in place of OP, and its data. -/
structure Reply where
  session : Nat := 0
  tag     : Nat := 0
  word    : Nat := 0
  data    : List Byte := []
  deriving DecidableEq, Repr

/-- One path to the dictionary (R535, R539, R549): its session, the last 16 replies, its transfer, the object of
one that the loss of main power discarded (R551), its _SELECT objects by key. -/
structure Path where
  session : Option Nat := none
  kept    : List Reply := []
  seg     : Option Seg := none
  cut     : Option Nat := none
  sels    : Tbl Nat := []
  deriving DecidableEq, Repr

/-- The dictionary, its two paths (0 chain, 1 mailbox) and the session lock (R534 to R546): the staged set, sets fixed by COMMIT,
writes that wait for the boundary, the lock's owner, its lease and the handle granted last; the mailbox registers; the RWP values of the
parameter area by key. -/
structure Dict where
  chain   : Path := {}
  mbox    : Path := {}
  staged  : List SWrite := []
  fixed   : List FixedSet := []
  deferred : List SWrite := []
  lockSession : Nat := 0
  lease   : Nat := 0
  nextHandle : Nat := 0
  mbStatus  : Nat := 0
  mbReqLen  : Nat := 0
  mbReq     : List Byte := []
  mbResp    : List Byte := []
  msixDone  : Nat := 0
  rwp     : Tbl Nat := []
  deriving DecidableEq, Repr

/-! ## Models, stakes, steps and skeins (07_models_stakes_steps.md) -/

/-- A course record of a plan's cost table (R211), with the pacing of R214 for its stationary formats. -/
structure CourseRec where
  fold     : Nat := 0
  course   : Nat := 0
  last     : Bool := false
  remote   : Bool := false
  kvWrite  : Bool := false
  base     : Nat := 0
  rowC     : Nat := 0
  skein    : Nat := 0
  remoteNs : Nat := 0
  pace     : Nat := 1
  deriving DecidableEq, Repr

/-- A share record (R162), logical in the plan and physical and rotated after the load check. -/
structure Share where
  idx   : Nat := 0
  rkind : Nat := 0
  inst  : Nat := 0
  stake : Nat := 0
  group : Nat := 0
  step  : Nat := 0
  mask  : Nat := 0
  clean : Bool := true
  deriving DecidableEq, Repr

/-- A parsed plan (R208 to R214): descriptor images at logical array * 4096 + entry; the DIGEST section; the
STATIONARY descriptors of the first tiles by fold shape, course and logical array (R215). -/
structure Plan where
  stakes  : Nat := 1
  folds   : Nat := 1
  courses : Nat := 1
  kind    : Nat := 0
  accUnits : Nat := 1
  home    : Nat := 2
  transit : Nat := 2
  bin     : Nat := 0
  base    : Nat := 0
  pinned  : Nat := 0
  arrays  : Nat := 1
  maxRows : List Nat := []
  recs    : List CourseRec := []
  shares  : List Share := []
  descs   : Tbl Nat := []
  tiles   : Nat := 0
  tilesLen : Nat := 0
  digestOk : Bool := false
  digest  : Nat := 0
  first   : List (Nat × Nat × Nat × Nat) := []
  x       : PlanX := {}
  deriving DecidableEq, Repr

/-- A skein command in progress (R239 to R241): its fields, the beat it started, the slot taken, its phase (0 just
written, 1 waiting for a slot, 2 waiting for quota, 3 copying, 4 copied) and the pages it needs. -/
structure SkCmd where
  op      : Nat := 0
  tenant  : Nat := 0
  id      : Nat := 0
  ver     : Nat := 0
  wait    : Nat := 0
  source  : Nat := 0
  started : Nat := 0
  slot    : Nat := 0
  phase   : Nat := 0
  pages   : Nat := 0
  deriving DecidableEq, Repr

/-- A model beside its objects OD 5000 + m (R215): its plan, its placed shares, whether a passed load waits for its boundary,
the beats it could take no step (R221), the word that failed once (array, course, word) (R140), its skein command. -/
structure Model where
  plan    : Option Plan := none
  shares  : List Share := []
  passed  : Bool := false
  stuck   : Nat := 0
  word    : Option (Nat × Nat × Nat) := none
  sk      : Option SkCmd := none
  unloadAsked : Bool := false
  deriving DecidableEq, Repr

/-- A stake (R222 to R225): placement bytes of its logical arrays, the domains it uses with the epochs recorded at placement,
its running step, the one placed behind it while its course runs to its end, and its suspended one. -/
structure Stake where
  used    : Bool := false
  model   : Nat := 0
  plan    : Nat := 0
  state   : Nat := 0
  segs    : Nat := 1
  lead    : Bool := true
  arrays  : List Nat := []
  place   : List Nat := []
  epoch   : Nat := 0
  beat    : Nat := 0
  parts   : Tbl Nat := []
  step    : Option Nat := none
  next    : Option Nat := none
  susp    : Option Nat := none
  stopped : Bool := false
  deriving DecidableEq, Repr

/-- A row of a step (R226): kind 0 DECODE, 1 VERIFY, 2 PREFILL, 3 ENCODE; the request and which of its inputs; first position
and positions; whether the draft model runs it; the stage it serves; its rank (R227), bulk, and the entries of its skein. -/
structure Row where
  kind  : Nat := 0
  req   : Nat := 0
  item  : Nat := 0
  start : Nat := 0
  n     : Nat := 1
  draft : Bool := false
  stage : Nat := 0
  rank  : Nat := 0
  bulk  : Bool := false
  skEnt : Nat := 0
  deriving DecidableEq, Repr

/-- A batch step (R227 to R232): state 0 PENDING, 1 RUNNING, 2 SUSPENDED, 3 REPLAY; a step that ends leaves the table.
`done` holds the peer links whose segments ended the course, `failed` the courses and arrays of failed checks. -/
structure Step where
  model  : Nat := 0
  rows   : List Row := []
  state  : Nat := 0
  stake  : Nat := 0
  course : Nat := 0
  fold   : Nat := 0
  asm    : Nat := 0
  epoch  : Nat := 0
  faults : Nat := 0
  excl   : List Nat := []
  suspend : Bool := false
  failed : List (Nat × Nat) := []
  done   : List Nat := []
  deriving DecidableEq, Repr

/-- An object of the model store (R382): state 0 EMPTY, 1 WRITING, 2 VALID; its bytes, the digest recorded. -/
structure StoreObj where
  state  : Nat := 0
  len    : Nat := 0
  digest : Nat := 0
  bytes  : List Byte := []
  bad    : Bool := false
  deriving DecidableEq, Repr

/-! ## Generation (09_generation.md) -/

/-- A draft proposal record (R286): token, its probability, the automaton state and stack after it, and the candidates with
their probabilities. -/
structure Proposal where
  token : Nat := 0
  qtok  : FP32 := 0
  state : Nat := 0
  stack : List Nat := []
  cand  : List (Nat × FP32) := []
  deriving DecidableEq, Repr

/-- A dice job's outcome waiting for the commit of its step (R229, R288, R312): accepted proposals, the drawn token, the
automaton state and stack after the last committed token, a dead end, numeric faults. -/
structure Drawn where
  accepted : Nat := 0
  tok      : Option Nat := none
  state    : Nat := 0
  stack    : List Nat := []
  dead     : Bool := false
  numfault : Bool := false
  prop     : Option Proposal := none
  deriving DecidableEq, Repr

/-- A sequence entry (R275) and what it holds: prompt, committed tokens, the key-value pages of generator (side 0) and draft
(side 1) at side * 2^20 + block * 1024 + group, adopted and published prefix entries, proposals, the depth of the round under way and whether speculation is under way, what its
step's draw left, commits (beat, sequence number, tokens) still to be streamed, bytes held back for UTF-8, tokens already
detokenized, whether generation has ended, and whether by a dead end. -/
structure Seq where
  state   : Nat := 0
  tenant  : Nat := 0
  req     : Nat := 0
  model   : Nat := 0
  draft   : Nat := 0
  spec    : Bool := false
  skSlot  : Option Nat := none
  depth   : Nat := 0
  kvLen   : Nat := 0
  drLen   : Nat := 0
  prompt  : List Nat := []
  out     : List Nat := []
  pend    : Nat := 0
  props   : List Proposal := []
  adopted : Nat := 0
  gState  : Nat := 0
  gStack  : List Nat := []
  gEn     : Bool := false
  gSlot   : Nat := 0
  vocab   : Nat := 0
  last    : Nat := 0
  maxTok  : Nat := 0
  kv      : Tbl Nat := []
  propPage : Option Nat := none
  prefixes : List Nat := []
  drawn   : Option Drawn := none
  round   : Nat := 0
  drafting : Bool := false
  held    : List Byte := []
  sent    : Nat := 0
  commits : List (Nat × Nat × Nat) := []
  ended   : Bool := false
  dead    : Bool := false
  deriving DecidableEq, Repr

/-- A prefix entry (R292): its key, references, the key-value pages of its block, and its age. -/
structure Prefix where
  tenant : Nat := 0
  model  : Nat := 0
  skein  : Option (Nat × Nat) := none
  parent : Option Nat := none
  tokens : List Nat := []
  refs   : Nat := 0
  pages  : List Nat := []
  born   : Nat := 0
  deriving DecidableEq, Repr

/-! ## The request port (15_request_port_and_buffers.md, 08_admission_and_deadlines.md) -/

/-- A datagram a port holds (R458). -/
structure Datagram where
  net   : Net := {}
  bytes : List Byte := []
  deriving DecidableEq, Repr

/-- An assembly (R464, R465): fragments held by index, its buffers, where and when its first fragment came. -/
structure Assembly where
  tenant : Nat := 0
  id     : Nat := 0
  shift  : Nat := 10
  count  : Nat := 1
  frags  : Tbl (List Byte) := []
  bufs   : List Nat := []
  start  : Nat := 0
  net    : Net := {}
  port   : Nat := 0
  key    : Nat := 0
  deriving DecidableEq, Repr

/-- A pre-cancel (R476): the stamp of its CANCEL and the beat it came. -/
structure PreCancel where
  tenant : Nat := 0
  id     : Nat := 0
  beat   : Nat := 0
  seq    : Nat := 0
  deriving DecidableEq, Repr

/-- Where a request's messages go (R470): port 0 or 1 is Ethernet, 2 the tenant's rings; address and UDP port; key slot,
fragment shift, cookie. -/
structure RetPath where
  port   : Nat := 0
  addr   : Nat := 0
  udp    : Nat := 0
  v6     : Bool := false
  key    : Nat := 0
  shift  : Nat := 13
  cookie : Nat := 0
  deriving DecidableEq, Repr

/-- What the identifier window keeps of an accepted identifier (R466): the RESPONSE and the COMPLETION sent. -/
structure IdRec where
  path : RetPath := {}
  resp : Option (List Byte) := none
  comp : Option (List Byte) := none
  deriving DecidableEq, Repr

/-- An identifier window (R466): the high mark and the accepted identifiers. -/
structure IdWin where
  high : Option Nat := none
  recs : Tbl IdRec := []
  deriving DecidableEq, Repr

/-- A message of the module (R459, R494): what left by which path; on the rings, the output slot, the phase of its entry and the
host addresses of the entry and of its data; on Ethernet the trailer of R461. -/
structure Msg where
  path    : RetPath := {}
  typ     : Nat := 0
  tenant  : Nat := 0
  id      : Nat := 0
  dup     : Bool := false
  seq     : Nat := 0
  handle  : Nat := 0
  off     : Nat := 0
  kind    : Nat := 0
  last    : Bool := false
  slot    : Nat := 0
  phase   : Bool := false
  payload : List Byte := []
  mac     : Nat := 0
  entryAt : Nat := 0
  dataAt  : Nat := 0
  deriving DecidableEq, Repr

/-- A request buffer (R478, R479): state 0 FREE, 1 HELD, 2 RELEASED; owner, generation, the beat of release, the request that
holds it, the DATA messages in it, its output slot on the rings (R496). -/
structure Buf where
  state : Nat := 0
  owner : Nat := 0
  gen   : Nat := 1
  rel   : Nat := 0
  req   : Nat := 0
  used  : Nat := 0
  msgs  : List Msg := []
  slot  : Option Nat := none
  deriving DecidableEq, Repr

/-- An item of an INDEX or DELETE request (R468) and what has become of it (R374): its tokens, code, list, entry number,
outcome, text frame, and whether its append and its text page are programmed. -/
structure Item where
  ident   : Nat := 0
  attr    : Nat := 0
  text    : List Byte := []
  toks    : Option (List Nat) := none
  code    : Option Nat := none
  list    : Option Nat := none
  entry   : Nat := 0
  outcome : Option Nat := none
  taddr   : Nat := 0
  tlen    : Nat := 0
  staged  : Bool := false
  appended : Bool := false
  textOk  : Bool := false
  sent    : Bool := false
  deriving DecidableEq, Repr

/-- A candidate of a search (R409, R439, R447, R453). -/
structure Cand where
  ident  : Nat := 0
  owner  : Nat := 0
  attr   : Nat := 0
  entry  : Nat := 0
  dist   : Nat := 0
  taddr  : Nat := 0
  tlen   : Nat := 0
  spoke  : Nat := 0
  text   : Option (List Byte) := none
  status : Nat := 0
  toks   : Option (List Nat) := none
  trunc  : Bool := false
  gtoks  : Option (List Nat) := none
  feats  : Tbl (List Byte) := []
  score  : Option FP32 := none
  bufs   : List Nat := []
  deriving DecidableEq, Repr

/-- The class values in force at admission (R246, R247): ladders ENCODE, SEARCH, RERANK, GENERATE as 16-byte values. -/
structure ClassVal where
  flags : Nat := 0
  prio  : Nat := 0
  first : Nat := 0
  e2e   : Nat := 0
  budget : Nat := 4
  deferLimit : Nat := 1000
  genInit : FP32 := 0x40000000#32
  ladders : List Nat := [0, 0, 0, 0]
  deriving DecidableEq, Repr

/-- The head of a request body (R467). -/
structure Head where
  kind    : Nat := 0
  cls     : Nat := 0
  ret     : Nat := 0
  publish : Bool := false
  wantCode : Bool := false
  gramEn  : Bool := false
  skEn    : Bool := false
  skId    : Nat := 0
  encV    : Nat := 0
  rerV    : Nat := 0
  genV    : Nat := 0
  gram    : Nat := 0
  tmpl    : Nat := 0
  k       : Nat := 0
  nprobe  : Nat := 0
  rerankK : Nat := 0
  topK    : Nat := 0
  temp    : FP32 := 0
  topP    : FP32 := 0
  maxTok  : Nat := 0
  budget  : Nat := 0
  retUdp  : Nat := 0
  retAddr : Nat := 0
  question : List Byte := []
  filter  : List Byte := []
  bags    : List (List (Nat × Nat)) := []
  itemCount : Nat := 0
  deriving DecidableEq, Repr

/-- The template values a request is bound to (R450). -/
structure TmplVal where
  body    : List Nat := []
  budget  : Nat := 4096
  packMax : Nat := 8
  passMax : Nat := 512
  passMin : Nat := 32
  qMax    : Nat := 256
  order   : Nat := 0
  dedup   : Nat := 1
  deriving DecidableEq, Repr

/-- The feature set values a request is bound to for one model (R435). -/
structure FsetVal where
  on      : Bool := false
  set     : Nat := 0
  cls     : Nat := 0
  sep     : Nat := 0
  qMax    : Nat := 64
  rowMax  : Nat := 512
  feats   : List Nat := []
  deriving DecidableEq, Repr

/-- A request (R252 to R271): state 0 waits for the gate, 1 deferred, 2 admitted, 3 body awaited; `stage` of the query or
indexing path; its stamp; the levels of its four ladders; its bindings; the stamps of a cancel and of its final commit; what its
completion reports; its output.  `len` is the length of its body, `badEntry` whether its
submission entry had a reserved bit set. -/
structure Req where
  tenant  : Nat := 0
  id      : Nat := 0
  ingress : Nat := 0
  path    : RetPath := {}
  body    : List Byte := []
  bufs    : List Nat := []
  len     : Nat := 0
  badEntry : Bool := false
  head    : Head := {}
  items   : List Item := []
  state   : Nat := 0
  beat    : Nat := 0
  seq     : Nat := 0
  cls     : ClassVal := {}
  heldAt  : Nat := 0
  why     : Nat := 0
  admitted : Nat := 0
  stage   : Nat := 0
  levels  : List Nat := [0, 0, 0, 0]
  low     : Bool := false
  skeins  : List (Nat × Nat × Nat) := []
  vocabs  : List Nat := []
  gram    : Option Nat := none
  tmpl    : Option Nat := none
  tmplV   : TmplVal := {}
  fsets   : Tbl FsetVal := []
  tables  : List Nat := []
  visible : Nat := 0
  kvResv  : Nat := 0
  featPages : Tbl Nat := []
  seqE    : Option Nat := none
  toks    : Option (List Nat) := none
  rtoks   : Option (List Nat) := none
  gtoks   : Option (List Nat) := none
  embed   : List Byte := []
  code    : Option Nat := none
  lists   : List Nat := []
  cands   : List Cand := []
  order   : List Nat := []
  packed  : List Nat := []
  pool    : Tbl (List Byte) := []
  missing : List Nat := []
  retried : List Nat := []
  fromCache : List Nat := []
  crcs    : List Nat := []
  hist    : List Nat := []
  cancel  : Option (Nat × Nat) := none
  final   : Option (Nat × Nat) := none
  firstBeat : Option Nat := none
  firstMiss : Bool := false
  rowsMissing : Bool := false
  numfault : Bool := false
  replayed : Bool := false
  energy  : FP32 := 0
  results : Nat := 0
  dataSeq : Nat := 0
  current : Tbl (Option Nat) := []
  outBufs : List Nat := []
  waitOut : List (Nat × Nat × List Byte) := []
  outEnd  : Bool := false
  doneCode : Option Nat := none
  outWait : Bool := false
  lastSent : Bool := false
  deriving DecidableEq, Repr

/-- The admission gate and the monitor (R252 to R264): requests waiting for a grant in arrival order, the deferral queue, whether the
monitor moved an interactive request or found one late at its lowest level in the beat before, its moves (request, stage, level) for the
next boundary, the admissions so far, and the BUFFER_FAULT counts of the beat by tenant: STALE, FOREIGN, first handle, OFFSET (R483). -/
structure Gate where
  waiting : List Nat := []
  deferq  : List Nat := []
  moved   : Bool := false
  lateLow : Bool := false
  moves   : List (Nat × Nat × Nat) := []
  order   : Nat := 0
  bufFault : Tbl (List Nat) := []
  deriving DecidableEq, Repr

/-- Turn arbiters (R510 to R513): grants by instance * 256 + requester, levels written, and the class granted last plus 1 by
port * 16 + level. -/
structure Arb where
  grants : Tbl Nat := []
  levels : Tbl Nat := []
  last   : Tbl Nat := []
  deriving DecidableEq, Repr

/-! ## The PCIe port (16_host_pool_and_peer_links.md) -/

/-- A CANCEL, FREE or FETCH entry copied from a submission ring and not yet processed (R493): its arrival stamp, type, identifier and
the bytes of its handle list. -/
structure HostCmd where
  seq  : Nat := 0
  beat : Nat := 0
  typ  : Nat := 0
  id   : Nat := 0
  len  : Nat := 0
  deriving DecidableEq, Repr

/-- A function's registers and rings (R489 to R497): SUB_RING bytes and which are written since their slot was last accepted,
entries accepted whose host data are awaited, completion entries waiting for room, output slots in use. -/
structure Fn where
  ring    : Tbl Byte := []
  written : Tbl Bool := []
  tail    : Nat := 0
  head    : Nat := 0
  cplHead : Nat := 0
  cplTail : Nat := 0
  cplBase : Nat := 0
  outBase : Nat := 0
  enable  : Bool := false
  cplLog  : Nat := 0
  outLog  : Nat := 0
  coalesce : Nat := 0
  ready   : Bool := true
  stalled : Bool := false
  incomplete : Bool := false
  cfgErr  : Bool := false
  waitQ   : List Msg := []
  cmds    : List HostCmd := []
  slots   : List Nat := []
  msix0   : Nat := 0
  msix1   : Nat := 0
  sinceIrq : Nat := 0
  deriving DecidableEq, Repr

/-- The PCIe port (R488): VF Enable, NumVFs, the functions, and whether a reset of the path is in force. -/
structure Pcie where
  vfEnable : Bool := false
  numVfs   : Nat := 0
  fns      : Tbl Fn := []
  deriving DecidableEq, Repr

/-! ## The pool port (16) and tables (14) -/

/-- An outstanding pool read (R501, R440): for a request's stage 12 (`req`), a table, the image offset of its 64 bytes, and whether the
tag is quarantined. -/
structure PoolTag where
  req   : Nat := 0
  table : Nat := 0
  off   : Nat := 0
  quar  : Bool := false
  deriving DecidableEq, Repr

/-- A table slot's content (R427 to R431, R443, R445). -/
structure Table where
  rows   : Nat := 0
  dim    : Nat := 0
  l1     : Tbl Nat := []
  dflt   : List Nat := []
  base   : Nat := 0
  id     : Nat := 0
  counts : List Nat := []
  groups : Tbl Nat := []
  ring   : List Nat := []
  sample : Nat := 0
  heats  : Tbl Nat := []
  chunks : Tbl Nat := []
  filling : Tbl Nat := []
  fixed  : Nat := 0
  deriving DecidableEq, Repr

/-- The two contents of a table slot: in force, and the one a LOAD read (R431); chunks already counted this beat. -/
structure TableSlot where
  cur     : Option Table := none
  next    : Option Table := none
  counted : List Nat := []
  deriving DecidableEq, Repr

/-- The pool port (R499 to R503). -/
structure Pool where
  up      : Bool := false
  tags    : Tbl PoolTag := []
  decs    : Tbl Nat := []
  deriving DecidableEq, Repr

/-- A peer link beside OD 51F8 + l (R504, R505): headers of the flits sent and not yet acknowledged, oldest first, with CRC 0, and the
next sequence number. -/
structure Peer where
  held   : List Nat := []
  next   : Nat := 0
  deriving DecidableEq, Repr

/-! ## Vocabularies, grammars, trie units, mask engines and dice units (10, 11) -/

/-- A loaded vocabulary image (R328 to R330). -/
structure Vocab where
  entries : Nat := 0
  endTok  : Nat := 0
  fb      : Nat := 0
  fbTok   : Nat := 0
  maxB    : Nat := 0
  id      : Nat := 0
  image   : List Byte := []
  trieOff : Nat := 0
  nodes   : Nat := 0
  invOff  : Nat := 0
  strOff  : Nat := 0
  pages   : Nat := 0
  src     : Nat := 0
  digest  : Nat := 0
  deriving DecidableEq, Repr

/-- A loaded grammar image (R341). -/
structure Grammar where
  states  : Nat := 1
  start   : Nat := 0
  masks   : Nat := 1
  entries : Nat := 1
  probe   : Nat := 1
  maxMatch : Nat := 0
  maxTrans : Nat := 0
  vid     : Nat := 0
  image   : List Byte := []
  stOff   : Nat := 0
  trOff   : Nat := 0
  reOff   : Nat := 0
  maOff   : Nat := 0
  trSlots : Nat := 0
  refines : Nat := 0
  pages   : Nat := 0
  src     : Nat := 0
  digest  : Nat := 0
  deriving DecidableEq, Repr

/-- A vocabulary or a grammar slot beside its objects (R333): its content, the content a LOAD passed. -/
structure VSlot where
  cur  : Option Vocab := none
  next : Option Vocab := none
  gen  : Nat := 0
  deriving DecidableEq, Repr

structure GSlot where
  cur  : Option Grammar := none
  next : Option Grammar := none
  gen  : Nat := 0
  deriving DecidableEq, Repr

/-- A tokenization job (R337): what it tokenizes: role 0 query for the encoder, 1 query for the cross-encoder, 2 question for
packing, 3 passage for the cross-encoder, 4 passage for packing, 5 indexed passage. -/
structure TrieJob where
  req  : Nat := 0
  role : Nat := 0
  item : Nat := 0
  rank : Nat := 0
  deriving DecidableEq, Repr

/-- A trie unit (R338): the slot and load whose crown it holds, and its line cache, most recent first. -/
structure Trie where
  crown : Option (Nat × Nat) := none
  lines : List (Nat × Nat × Nat) := []
  deriving DecidableEq, Repr

/-- A mask frame (R349): the engine's slot, state and matching entries, the positions it serves, whether it is filled. -/
structure Mask where
  dice  : Nat := 0
  eng   : Nat := 0
  gram  : Nat := 0
  gstate : Nat := 0
  match_ : List Nat := []
  users : List (Nat × Nat) := []
  full  : Bool := false
  res   : Nat := 0
  epoch : Nat := 0
  deriving DecidableEq, Repr

/-- A dice job (R311) in a queue, or the one in progress with its result word and what its commit brings (R312). -/
structure DiceJob where
  word   : Nat := 0
  result : Option Nat := none
  drawn  : Option Drawn := none
  late   : Bool := false
  deriving DecidableEq, Repr

/-- A dice unit (R303, R310, R320 to R323): per served array its job queue; the generator: key present, key epoch, lane block
counters, blocks under the key, draws left of each lane's block, conditioned keys ready, consecutive failed tests, state in OD 902D. -/
structure Dice where
  queues : Tbl (List DiceJob) := []
  hasKey : Bool := false
  key    : Nat := 0
  epoch  : Nat := 0
  lanes  : Tbl Nat := []
  blocks : Nat := 0
  parts  : Tbl (List Nat) := []
  ready  : Option Nat := none
  fails  : Nat := 0
  deriving DecidableEq, Repr

/-! ## The flash index (12, 13) -/

/-- An index entry (R365 to R367). -/
structure Entry where
  num   : Nat := 0
  owner : Nat := 0
  code  : Nat := 0
  attr  : Nat := 0
  ident : Nat := 0
  taddr : Nat := 0
  tlen  : Nat := 0
  deriving DecidableEq, Repr

/-- A committed insert of a side list, its commit beat, its side page and its run there (R370, R371, R403). -/
structure SideEnt where
  e      : Entry := {}
  commit : Nat := 0
  page   : Nat := 0
  run    : Nat := 0
  deriving DecidableEq, Repr

/-- A tombstone of the table (R406, R407, R422). -/
structure Tomb where
  num    : Nat := 0
  owner  : Nat := 0
  ident  : Nat := 0
  commit : Nat := 0
  page   : Nat := 0
  deriving DecidableEq, Repr

/-- A staged append (R371): an insert or a tombstone, its list, the request's item, when it was staged. -/
structure Staging where
  e     : Entry := {}
  tomb  : Bool := false
  list  : Nat := 0
  req   : Nat := 0
  item  : Nat := 0
  at_   : Nat := 0
  deriving DecidableEq, Repr

/-- A list version (R367, R403, R419): its number, side floor, flip beat, entries, the first stripe of its pages, the data pages of
a stripe when it was written, pages lost. -/
structure Version where
  num    : Nat := 0
  floor  : Nat := 0
  flip   : Nat := 0
  ents   : List Entry := []
  first  : Nat := 0
  per    : Nat := 31
  lost   : List Nat := []
  deriving DecidableEq, Repr

/-- A merge in progress (R417 to R419): its cut, the new entries, dropped and merged inserts, its stripes, whether its last page and
journal record are programmed and since when, whether it is a sweep pass that rewrites nothing, and the pages lost when it began. -/
structure Merge where
  cut     : Nat := 0
  ents    : List Entry := []
  drops   : List Entry := []
  sides   : List SideEnt := []
  first   : Nat := 0
  per     : Nat := 31
  ready   : Bool := false
  nothing : Bool := false
  lost0   : Nat := 0
  ready_  : Nat := 0
  deriving DecidableEq, Repr

/-- The cached copy of a version (R411 to R413): its pages, whether it is complete, whether it is kept, and when it was given up, the view
beat of the last window that reads it. -/
structure CacheCopy where
  version : Nat := 0
  pages   : List Nat := []
  full    : Bool := false
  marked  : Bool := true
  last    : Nat := 0
  deriving DecidableEq, Repr

/-- A list (R395): its versions, newest first, side inserts, damage, heat, merge and cached copies, and its sweep state. -/
structure LList where
  vers    : List Version := []
  side    : List SideEnt := []
  tombs   : Nat := 0
  damaged : Bool := false
  heat    : Nat := 0
  merge   : Option Merge := none
  copies  : List CacheCopy := []
  swept   : Bool := false
  deriving DecidableEq, Repr

/-- A side page (R369 to R371): sequence number, its appends in order, its stripe and its place there, the data pages of a stripe
when it was formed, whether it is lost. -/
structure SidePage where
  num    : Nat := 0
  apps   : List Staging := []
  stripe : Nat := 0
  at_    : Nat := 0
  per    : Nat := 31
  lost   : Bool := false
  deriving DecidableEq, Repr

/-- A query in a search window (R401, R402): its request, the beat it joined, k, k', code, filter, INDEX_VISIBLE and lists. -/
structure WQuery where
  req     : Nat := 0
  joined  : Nat := 0
  k       : Nat := 0
  depth   : Nat := 0
  code    : Nat := 0
  filter  : List Byte := []
  visible : Nat := 0
  lists   : List Nat := []
  deriving DecidableEq, Repr

/-- A search window (R400 to R402): its view beat (0 while it is open), queries, whether it started, which (spoke, query) contexts are
done and which queries have merged or are gone. -/
structure Window where
  b       : Nat := 0
  queries : List WQuery := []
  started : Bool := false
  done    : List (Nat × Nat) := []
  merged  : List Nat := []
  deriving DecidableEq, Repr

/-- A text frame of the log by its address (R378 to R381): its bytes, the text it holds, the Dictionary_ID plus 1 it names (0: none)
and that dictionary, whether its page is programmed or lost, whether an entry still holds it, the item it was stored for. -/
structure Frame0 where
  bytes : List Byte := []
  text  : List Byte := []
  did   : Nat := 0
  dict  : List Byte := []
  owner : Nat := 0
  done  : Bool := false
  lost  : Bool := false
  live  : Bool := true
  req   : Nat := 0
  item  : Nat := 0
  deriving DecidableEq, Repr

/-- The flash and its index (R357 to R425): the stripe the index region allocates next; remap entries and spare blocks used by channel,
blocks waiting for a rebuild, failed and rebuilt dies, failed channels; lists, staging, side pages and the open side stripe; tombstones
and their retirement; windows, newest last, and the last close; the text log, the open page's head in 16-byte units, the page taken
last, pages in flight, live bytes and use of segments, forward addresses; the sweep; the format in force; the mount; text dictionaries
with commands waiting. -/
structure Index where
  nextStripe : Nat := 0
  remap    : Tbl Nat := []
  spares   : Tbl Nat := []
  rebuild  : List Nat := []
  deadDies : List Nat := []
  rebuilt  : List Nat := []
  deadCh   : List Nat := []
  narrow   : Bool := false
  lists    : Tbl LList := []
  staged   : List Staging := []
  formed   : List SidePage := []
  sidePages : List SidePage := []
  sideSeq  : Nat := 0
  stripe   : Option Nat := none
  stripeAt : Nat := 0
  stripeN  : Nat := 0
  tombs    : List Tomb := []
  retire   : List (Nat × Nat) := []
  windows  : List Window := []
  lastClose : Nat := 0
  text     : Tbl Frame0 := []
  textHead : Nat := 0
  textLast : Option Nat := none
  textAt   : Option Nat := none
  inflight : List Nat := []
  segLive  : Tbl Nat := []
  usedSegs : List Nat := []
  forward  : Tbl Nat := []
  sweepAt  : Nat := 0
  sweepCut : Option Nat := none
  sweepFlip : Nat := 0
  ckpt     : Nat := 0
  fmtWidth : Nat := 0
  fmtLists : Nat := 0
  fmtStore : Nat := 160
  fmtText  : Nat := 0
  fmtIndex : Nat := 0
  fmtSpare : Nat := 0
  unmount  : Bool := false
  dirLost  : Bool := false
  dicts    : Tbl (List Byte) := []
  dictPend : List Nat := []
  deriving DecidableEq, Repr


/-! ## The whole state -/

/-- The state of the module. -/
structure State where
  /-- Objects of the dictionary by key (R15 to R17, R547), where they differ from their defaults. -/
  od        : Tbl Nat := []
  /-- BLOB objects of the dictionary that hold what was written to them, by key (R540). -/
  blobs     : Tbl (List Byte) := []
  /-- The model's own: which free value is taken next (DESIGN CHOICE; log entry 3). -/
  freeCtr   : Nat := 0
  arrs      : Tbl Arr := []
  residents : Tbl Resident := []
  incrs     : List Incr := []
  cores     : Tbl RCore := []
  keepers   : Tbl Keeper := []
  mboxes    : Tbl Mbox := []
  mem       : Mem := {}
  slots     : Slots := {}
  power     : Power := {}
  recs      : Records := {}
  aged      : Tbl Aged := []
  parts     : Parts := {}
  boot      : Boot := {}
  pins      : Pins := {}
  chain     : Chain := {}
  dict      : Dict := {}
  models    : Tbl Model := []
  stakes    : Tbl Stake := []
  steps     : Tbl Step := []
  nextStep  : Nat := 0
  store     : Tbl StoreObj := []
  seqs      : Tbl Seq := []
  prefixes  : Tbl Prefix := []
  nextPrefix : Nat := 0
  rx        : Tbl (List Datagram) := []
  assemblies : List Assembly := []
  preCancels : List PreCancel := []
  idWins    : Tbl IdWin := []
  bufs      : Tbl Buf := []
  reqs      : Tbl Req := []
  nextReq   : Nat := 0
  gate      : Gate := {}
  arb       : Arb := {}
  /-- Messages the module has sent, newest first. -/
  tx        : List Msg := []
  pcie      : Pcie := {}
  pool      : Pool := {}
  tables    : Tbl TableSlot := []
  peers     : Tbl Peer := []
  vocabs    : Tbl VSlot := []
  grammars  : Tbl GSlot := []
  trieQ     : List TrieJob := []
  tries     : Tbl Trie := []
  masks     : List Mask := []
  dice      : Tbl Dice := []
  index     : Index := {}
  /-- Commands waiting, first in first out. -/
  pending   : List Instr := []
  deriving DecidableEq, Repr

/-- The module before standby power is first applied: every object at its Default, every queue and table empty
(DESIGN CHOICE; log entry 2). -/
def State.reset : State := {}

/-- Why a command stops the machine. -/
inductive Fault where
  deriving DecidableEq, Repr

/-- Why a command is refused. -/
inductive Refusal where
  /-- A row whose meaning is not written yet (safe): raised by its arm of exec alone. -/
  | notModelled (mnemonic : String)
  deriving DecidableEq, Repr

/-- The outcome of a command. -/
abbrev Res := Host.Outcome State Fault Refusal

end Sys2Proof.Machine
end

