-- ==== Sys2Proof/Machine/Ops.lean ====
section
/-!
DEFINITION. The named operations over the state that every chapter uses: the objects of the dictionary, free values,
records and faults, mailboxes, power domains, and the bytes of the two memory tiers.
-/
namespace Sys2Proof.Machine

/-! ## Objects of the dictionary -/

/-- The value of the object under a key (R15 to R17). -/
def State.o (s : State) (k : Nat) : Nat := tGet (odDefault k) s.od k

/-- Writing an object: it takes the value modulo its width (R17). -/
def State.setO (s : State) (k v : Nat) : State :=
  { s with od := tSet (odDefault k) s.od k (v % 2 ^ odWidth k) }

/-- A counter object counts n events; it wraps at its width (DESIGN CHOICE; log entry 5). -/
def State.addO (s : State) (k n : Nat) : State := s.setO k (s.o k + n)

/-- A count object falls by n, at 0 at the lowest. -/
def State.subO (s : State) (k n : Nat) : State := s.setO k (s.o k - n)

/-- The object back at its Default. -/
def State.resetO (s : State) (k : Nat) : State := { s with od := tDel k s.od }

/-- Element j of an object made of w-byte elements, element 0 in the first bytes (R664): total n bytes. -/
def octElem (v n w j : Nat) : Nat := bits v (8 * (n - w * j) - 1) (8 * (n - w * (j + 1)))

/-- The object value with element j replaced. -/
def octSet (v n w j x : Nat) : Nat :=
  let sh := 2 ^ (8 * (n - w * (j + 1)))
  v - octElem v n w j * sh + x % 2 ^ (8 * w) * sh

/-- Bit t of a tenant mask: bit t % 8 of byte t // 8 (R246). -/
def maskBit (v t : Nat) : Bool := bitAt v (8 * (31 - t / 8) + t % 8)

/-! ## Free values -/

/-- The free value taken next, below 2^w (DESIGN CHOICE; log entry 3). -/
def State.freeV (s : State) (w : Nat) : Nat := Config.freeValue s.freeCtr % 2 ^ w

/-- The state after a free value is taken. -/
def State.took (s : State) : State := { s with freeCtr := s.freeCtr + 1 }

/-! ## Time -/

/-- The beat count (R148, R528). -/
def State.beat (s : State) : Nat := s.o Od.beatCount

/-- The beat period in force, in µs (R526). -/
def State.periodUs (s : State) : Nat := s.o Od.beatPeriodUs

/-- A time in ns as beats, rounded up (R19). -/
def State.beatsOfNs (s : State) (ns : Nat) : Nat := cdiv ns (1000 * s.periodUs)

/-! ## Records (R613 to R617) -/

/-- A record of an event at this moment; OFFSET is a free value, because the model keeps no KCLK count (DESIGN CHOICE; log entry 3). -/
def State.mkRec (s : State) (kind writer data : Nat) : Rec :=
  { beat := if s.chain.hasCount then s.beat else 0
    offset := s.freeV 15
    standby := !s.power.mainOn
    kind := kind, writer := writer
    boot := s.o Od.bootCount % 65536
    data := data }

/-- Whether some pin carries a function and is not held neutral (R640, R646). -/
def State.pinWith (s : State) (fn : Nat) : Bool :=
  s.boot.pinsLive && (List.range 12).any fun n => s.o (Od.sbFunction n) == fn && !tHas s.pins.holds n

/-- Keeper 0 writes a record: the next number, into the ring; the mirror lags one more; the tap and the debug UART
send it (R613, R616, R645, R649). -/
def State.writeRec (s : State) (r : Rec) : State :=
  let r := { r with number := s.recs.next }
  let s := { s with recs := { s.recs with ring := (r :: s.recs.ring).take 65536, next := s.recs.next + 1 } }
  let s := if s.o Od.mirrorState = 3 then s else s.addO Od.mirrorLag 1
  { s with pins := { s.pins with
      uartOut := if s.pinWith 7 then [r] else s.pins.uartOut
      dbg := some (r.number, r.beat, r.kind) } }

/-- The kinds that are never suppressed (R615). -/
def alwaysRecorded (kind : Nat) : Bool := kind == 0x04 || kind == 0x02 || kind == 0x01 || kind == 0x10

/-- An event of a kind and part is recorded, or suppressed when its pair has its record for the beat (R615). -/
def State.record (s : State) (kind part data : Nat) : State :=
  let r := s.mkRec kind 0 data
  let s := s.took
  if alwaysRecorded kind then s.writeRec r
  else
    match s.recs.pairs.find? fun p => p.kind == kind && p.part == part with
    | none =>
      let s := s.writeRec r
      { s with recs := { s.recs with pairs := { kind := kind, part := part } :: s.recs.pairs } }
    | some _ =>
      { s with recs := { s.recs with
          pairs := s.recs.pairs.map fun p =>
            if p.kind == kind && p.part == part then { p with count := p.count + 1, last := r } else p } }

/-- At the boundary: one carried record for each pair with suppressed events; the other pairs are forgotten (R615). -/
def State.carryRecords (s : State) : State :=
  let ps := s.recs.pairs.filter fun p => decide (p.count ≠ 0)
  let s := applyAll (fun s p => s.writeRec { p.last with supp := sat 16 p.count }) s ps
  { s with recs := { s.recs with pairs := ps.map fun p => { kind := p.kind, part := p.part } } }

/-- DATA from bit 319 downward (R614). -/
def dataDown (fs : List (Nat × Nat)) : Nat := packFields fs * 2 ^ (288 - fieldsWidth fs)

/-- The 16 bytes of R602. -/
def lastFaultBits (kind pk part outcome intr aff beat : Nat) : Nat :=
  packFields [(8, kind), (4, pk), (20, part), (4, outcome), (28, sat 28 intr), (16, sat 16 aff), (48, beat)]

/-- A record of kinds 0x20 to 0x3F: the 16 bytes of R602, then the kind's own values from bit 191 (R613, R614). (DEDUCED; log entry 18) -/
def State.faultRec (s : State) (kind pk part outcome intr aff : Nat) (extra : List (Nat × Nat)) : State :=
  s.record kind (pk * 2 ^ 20 + part)
    (dataDown ((128, lastFaultBits kind pk part outcome intr aff s.beat) :: extra))

/-- A single fault is counted and described in LAST_FAULT (R602), and the longest interruption is kept (R598). -/
def State.countFault (s : State) (kind pk part outcome intr aff : Nat) : State :=
  let s := s.addO Od.singleFaults 1
  let s := s.setO Od.lastFault (lastFaultBits kind pk part outcome intr aff s.beat)
  s.setO Od.longestInterruptionNs (max (s.o Od.longestInterruptionNs) intr)

/-- FAULT_N is held low for 10 ms (R641). -/
def State.pulseFault (s : State) : State := { s with pins := { s.pins with faultPulse := true } }

/-- A single fault of R596: counted, described in LAST_FAULT, recorded; FAULT_N is held low for 10 ms (R641), and the
longest interruption is kept (R598). -/
def State.fault1 (s : State) (kind pk part outcome intr aff : Nat) (extra : List (Nat × Nat)) : State :=
  ((s.countFault kind pk part outcome intr aff).pulseFault).faultRec kind pk part outcome intr aff extra

/-! ## Mailboxes (R149 to R152) -/

/-- Mailbox n of core c (144 and 145 are the keepers). -/
def mboxKey (c n : Nat) : Nat := c * 8 + n

def State.mbox (s : State) (c n : Nat) : Mbox := tGet {} s.mboxes (mboxKey c n)

def State.setMbox (s : State) (c n : Nat) (m : Mbox) : State :=
  { s with mboxes := tSet {} s.mboxes (mboxKey c n) m }

/-- A post: appended, or dropped with OVERFLOW set and counted when the mailbox holds 32 entries (R152). -/
def State.post (s : State) (c n tag payload : Nat) : State :=
  let m := s.mbox c n
  if m.entries.length < 32 then s.setMbox c n { m with entries := m.entries ++ [(tag, payload % 2 ^ 128)] }
  else
    ((s.setMbox c n { m with overrun := true }).addO Od.mailboxOverflowCount 1).faultRec 0x35 7 c 0 0 0 [(16, c), (16, n)]

/-! ## Power domains (R567, R569) -/

/-- PD_STATE values (R555). -/
def pdOFF : Nat := 0
def pdQUEUED : Nat := 1
def pdWAKING : Nat := 2
def pdON : Nat := 3
def pdQUIESCING : Nat := 4
def pdRESET : Nat := 5
def pdFAILED : Nat := 6
def pdRETAINED : Nat := 7

def State.pdState (s : State) (p : Nat) : Nat := s.o (Od.pdState p)
def State.pdOn (s : State) (p : Nat) : Bool := s.pdState p == pdON
def State.pd (s : State) (p : Nat) : Pd := tGet {} s.power.pds p
def State.setPd (s : State) (p : Nat) (x : Pd) : State :=
  { s with power := { s.power with pds := tSet {} s.power.pds p x } }

/-- The domain of array a and of its slice. -/
def pdArray (a : Nat) : Nat := 21 * (a / 8) + a % 8
def pdSlice (a : Nat) : Nat := 21 * (a / 8) + 8 + a % 8
/-- The domain of stack h. -/
def pdStack (h : Nat) : Nat := 21 * (h / 2) + 18 + h % 2
/-- The spine domain of a die: C0 to C3 as 0 to 3, RN 4, RS 5. -/
def pdSpine (d : Nat) : Nat := if d < 4 then 21 * d + 20 else if d = 4 then 84 else 91
/-- The domain of a spoke. -/
def pdSpoke (sp : Nat) : Nat := if sp < 16 then 85 + sp / 4 else 92 + (sp - 16) / 4
/-- The domain of a reed core (R142). -/
def pdCore (c : Nat) : Nat :=
  if c < 128 then 21 * (c / 32) + 16 + c % 32 / 16 else if c < 136 then 84 else 91
/-- The die whose ledger serves a domain. -/
def dieOfPd (p : Nat) : Nat := if p < 84 then p / 21 else if p < 91 then 4 else 5

/-- Whether a domain is an array's, a slice's. -/
def isArrayPd (p : Nat) : Bool := decide (p < 84 ∧ p % 21 < 8)
def isSlicePd (p : Nat) : Bool := decide (p < 84 ∧ 8 ≤ p % 21 ∧ p % 21 < 16)
/-- The array of an array's or a slice's domain. -/
def arrayOfPd (p : Nat) : Nat := 8 * (p / 21) + p % 21 % 8

/-- The parents of a domain (R567). -/
def pdParents (p : Nat) : List Nat :=
  if p < 84 then
    let d := p / 21
    if p % 21 = 20 then [if d < 2 then 84 else 91]
    else if p % 21 < 8 then [p + 8, 21 * d + 20]
    else [21 * d + 20]
  else if p = 84 ∨ p = 91 then []
  else if p < 91 then [84]
  else [91]

/-- The children of a domain, in descending number (R568). -/
def pdChildren (p : Nat) : List Nat := ((List.range 98).filter fun q => (pdParents q).contains p).reverse

/-- Every domain below a domain, deepest first and in descending number: what a die reset takes with it (R588). -/
def pdBelow : Nat → Nat → List Nat
  | 0, _ => []
  | n + 1, p => ((pdChildren p).flatMap fun q => pdBelow n q ++ [q]).eraseDups

/-- Whether the interlock reads open (R560): the object is 1 while it is closed. -/
def State.interlockOpen (s : State) : Bool := s.o Od.coolantInterlock == 0

/-- Whether array a is in service, not retired (OD 9000:04). -/
def State.arrInService (s : State) (a : Nat) : Bool := bitAt (s.o Od.arraysInService) a

/-! ## Arrays and residents -/

def State.arr (s : State) (a : Nat) : Arr := tGet {} s.arrs a
def State.setArr (s : State) (a : Nat) (x : Arr) : State := { s with arrs := tSet {} s.arrs a x }
def State.res (s : State) (a r : Nat) : Resident := tGet {} s.residents (4 * a + r)
def State.setRes (s : State) (a r : Nat) (x : Resident) : State :=
  { s with residents := tSet {} s.residents (4 * a + r) x }
def State.core (s : State) (c : Nat) : RCore := tGet {} s.cores c
def State.setCore (s : State) (c : Nat) (x : RCore) : State := { s with cores := tSet {} s.cores c x }
def State.keeper (s : State) (k : Nat) : Keeper := tGet {} s.keepers k
def State.setKeeper (s : State) (k : Nat) (x : Keeper) : State := { s with keepers := tSet {} s.keepers k x }

/-! ## The bytes of the two tiers (R170, R171) -/

/-- A byte of the near store: byte o of slice sl. (DESIGN CHOICE; log entry 7) -/
def State.nearB (s : State) (sl o : Nat) : Byte := tGet 0 s.mem.near (sl * 2 ^ 25 + o)
def State.setNearB (s : State) (sl o : Nat) (b : Byte) : State :=
  { s with mem := { s.mem with near := tSet 0 s.mem.near (sl * 2 ^ 25 + o) b } }
/-- A byte of the stack store: byte o of global page P. (DESIGN CHOICE; log entry 7) -/
def State.stackB (s : State) (p o : Nat) : Byte := tGet 0 s.mem.stack (p * 2 ^ 21 + o)
def State.setStackB (s : State) (p o : Nat) (b : Byte) : State :=
  { s with mem := { s.mem with stack := tSet 0 s.mem.stack (p * 2 ^ 21 + o) b } }

def State.page (s : State) (p : Nat) : Page := tGet {} s.mem.pages p
def State.setPage (s : State) (p : Nat) (x : Page) : State :=
  { s with mem := { s.mem with pages := tSet {} s.mem.pages p x } }
def State.gran (s : State) (g : Nat) : Gran := tGet {} s.mem.grans g
def State.setGran (s : State) (g : Nat) (x : Gran) : State :=
  { s with mem := { s.mem with grans := tSet {} s.mem.grans g x } }

/-- Bytes copied into a stack page from an offset (raw, R49). -/
def State.putStack (s : State) (p o : Nat) (bs : List Byte) : State :=
  (applyAll (fun (x : State × Nat) b => (x.1.setStackB p x.2 b, x.2 + 1)) (s, o) bs).1

/-- n bytes of a stack page from an offset. -/
def State.stackBytes (s : State) (p o n : Nat) : List Byte := (List.range n).map fun i => s.stackB p (o + i)

/-- Every byte of a page reads 0 again: its content is gone. -/
def State.wipePage (s : State) (p : Nat) : State :=
  { s with mem := { s.mem with stack := tDrop (fun k => k / 2 ^ 21 == p) s.mem.stack } }

/-- Every byte of a granule reads 0 again. -/
def State.wipeGran (s : State) (g : Nat) : State :=
  { s with mem := { s.mem with near := tDrop (fun k => k / 2 ^ 16 == g) s.mem.near } }

/-! ## Outcome helpers -/

/-- The effect happens only when its condition holds; an event whose condition does not hold cannot occur, and the
command then changes nothing (DESIGN CHOICE; log entry 1). -/
def guardS (c : Bool) (s : State) (f : State → State) : State := if c then f s else s

end Sys2Proof.Machine
end

