-- ==== Sys2Proof/Machine/Rng.lean ====
section
/-!
DEFINITION. The random-bit generators of the dice units (10_sampling_topk_random.md R320 to R323): the ChaCha block function with
8 rounds, keys, ratchets, lanes and the use of each block's bits.
-/
namespace Sys2Proof.Machine

def State.die_ (s : State) (u : Nat) : Dice := tGet {} s.dice u
def State.setDice (s : State) (u : Nat) (x : Dice) : State := { s with dice := tSet {} s.dice u x }

/-! ## The block function (R320; RFC 8439 with 4 double rounds) -/

/-- Word i of a ChaCha state. -/
def cw (st : List (BitVec 32)) (i : Nat) : BitVec 32 := st.getD i 0#32

/-- The quarter round on four words. -/
def quarter (st : List (BitVec 32)) (a b c d : Nat) : List (BitVec 32) :=
  let xa := cw st a + cw st b
  let xd := (cw st d ^^^ xa).rotateLeft 16
  let xc := cw st c + xd
  let xb := (cw st b ^^^ xc).rotateLeft 12
  let xa := xa + xb
  let xd := (xd ^^^ xa).rotateLeft 8
  let xc := xc + xd
  let xb := (xb ^^^ xc).rotateLeft 7
  (((st.set a xa).set b xb).set c xc).set d xd

/-- One double round: four columns, then four diagonals. -/
def doubleRound (st : List (BitVec 32)) : List (BitVec 32) :=
  let st := quarter (quarter (quarter (quarter st 0 4 8 12) 1 5 9 13) 2 6 10 14) 3 7 11 15
  quarter (quarter (quarter (quarter st 0 5 10 15) 1 6 11 12) 2 7 8 13) 3 4 9 14

/-- Block n of lane l under a key and epoch, as a 512-bit little-endian value; key word i is bits [32i + 31:32i] of the key. -/
def chacha8 (key n l e : Nat) : Nat :=
  let st : List (BitVec 32) := [0x61707865#32, 0x3320646E#32, 0x79622D32#32, 0x6B206574#32] ++
    ((List.range 8).map fun i => BitVec.ofNat 32 (key / 2 ^ (32 * i))) ++
    [BitVec.ofNat 32 n, BitVec.ofNat 32 l, BitVec.ofNat 32 e, 0#32]
  let out := doubleRound (doubleRound (doubleRound (doubleRound st)))
  (List.zipWith (· + ·) out st).foldr (fun w acc => w.toNat + 2 ^ 32 * acc) 0

/-! ## Keys and blocks (R320, R322) -/

/-- The key is replaced: by fresh conditioner output when it is ready, else by a ratchet; the epoch rises and every lane starts
again. -/
def State.rngKey (s : State) (u : Nat) : State :=
  let x := s.die_ u
  let next (k : Nat) : Dice := { x with key := k, epoch := (x.epoch + 1) % 2 ^ 32, lanes := [], blocks := 0, ready := none }
  match x.ready with
  | some k => (s.setDice u (next k)).addO (Od.rngKeysFresh 0 u) 1
  | none => (s.setDice u (next (chacha8 x.key 0 7 x.epoch % 2 ^ 256))).addO (Od.rngRatchets 0 u) 1

/-- The next block of a lane; after 2^20 blocks under a key the key is replaced first. -/
def State.rngBlock (s : State) (u l : Nat) : State × Nat :=
  let s := if 2 ^ 20 ≤ (s.die_ u).blocks then s.rngKey u else s
  let x := s.die_ u
  let n := tGet 0 x.lanes l
  (s.setDice u { x with lanes := tSet 0 x.lanes l (n + 1), blocks := x.blocks + 1 }, chacha8 x.key n l x.epoch)

/-- The bits a consumer draws next on a lane: `w` bits each, `per` to a block, in ascending position (R321). -/
def State.rngDraw (s : State) (u l w per : Nat) : State × Nat :=
  match tGet [] (s.die_ u).parts l with
  | v :: r => (s.setDice u { s.die_ u with parts := tSet [] (s.die_ u).parts l r }, v)
  | [] =>
    let p := s.rngBlock u l
    let vs := (List.range per).map fun j => p.2 / 2 ^ (w * j) % 2 ^ w
    (p.1.setDice u { p.1.die_ u with parts := tSet [] (p.1.die_ u).parts l (vs.drop 1) }, vs.headD 0)

/-- The part of a block left when its consumer finishes is discarded (R321). -/
def State.rngDone (s : State) (u l : Nat) : State :=
  s.setDice u { s.die_ u with parts := tSet [] (s.die_ u).parts l [] }

/-- n 16-bit draws for array a's stochastic rounding. -/
def rngMany (a : Nat) : Nat → State → State × List Nat
  | 0, s => (s, [])
  | n + 1, s =>
    let p := s.rngDraw (a / 4) (a % 4) 16 32
    let q := rngMany a n p.1
    (q.1, p.2 :: q.2)

/-- The draws for the n elements of a row, none when it rounds to nearest (R65). -/
def State.draws (s : State) (a : Nat) (sr : Bool) (n : Nat) : State × List (Option Nat) :=
  if sr then
    let p := rngMany a n s
    (p.1, p.2.map some)
  else (s, List.replicate n none)

/-- u of a token draw or an acceptance test, 24 bits of lane 4 (R321). -/
def State.draw24 (s : State) (u : Nat) : State × Nat := s.rngDraw u 4 24 21

/-! ## Keys from the entropy source (R322, R323) -/

/-- RNG_KEY_REPLACE (R322): 2^20 blocks have been produced under the key. -/
def execRngKeyReplace (u : Fin 8) (s : State) : Res :=
  .next <| guardS ((s.die_ u.val).hasKey && decide (2 ^ 20 ≤ (s.die_ u.val).blocks)) s fun s => s.rngKey u.val

/-- The longest run of equal samples. -/
def longestSame : List Bool → Nat → Bool → Nat → Nat
  | [], n, _, best => max n best
  | b :: r, n, last, best => if b == last then longestSame r (n + 1) last best else longestSame r 1 b (max n best)

/-- How often the first sample of a window occurs in it. -/
def windowCount (bs : List Bool) : Nat := match bs with
  | [] => 0
  | b :: _ => (bs.filter fun c => c == b).length

/-- The health tests over the raw bits of one conditioning input: repetition count with cutoff 81, adaptive proportion over the
window of 1 024 with cutoff 740 (NIST SP 800-90B, section 4.4). -/
def healthy (bs : List Bool) : Bool :=
  decide (longestSame bs 0 false 0 < 81) && decide (windowCount (bs.take 1024) < 740)

/-- RNG_CONDITIONED_KEY (R323, R322): the next 1 536 raw bits, bit 0 first, either fail a health test or become a key with SHA-384; the
first key after a reset is taken at once. (DEDUCED; log entry 54) -/
def execRngConditionedKey (u : Fin 8) (raw : Nat) (s : State) : Res :=
  .next <| guardS (s.pdOn (pdSpine (u.val / 2)) && s.o (Od.rngSourceState u.val) != 2) s fun s =>
    let x := s.die_ u.val
    let bs := (List.range 1536).map fun i => bitAt raw i
    if healthy bs then
      let k := sha384 (leBytes 192 raw) / 2 ^ 128
      let s := s.setO (Od.rngSourceState u.val) 1
      if x.hasKey then s.setDice u.val { x with ready := some k, fails := 0 }
      else (s.setDice u.val { x with hasKey := true, key := k, fails := 0 }).addO (Od.rngKeysFresh 0 u.val) 1
    else
      let s := (s.setDice u.val { x with fails := x.fails + 1 }).addO (Od.rngHealthFails 0 u.val) 1
      if x.fails + 1 < 64 then s
      else (s.setO (Od.rngSourceState u.val) 2).fault1 0x31 14 (0x10000 + u.val) 2 0 0 [(16, u.val)]

end Sys2Proof.Machine
end

