-- ==== Sys2Proof/Machine/Lock.lean ====
section
/-!
DEFINITION. What ends on the paths of the dictionary: chain frames, broken locks, ended sessions and abandoned transfers
(17_chain_beat_dictionary.md R520, R535, R540, R544; 21_boot_measurement_update.md R629).
-/
namespace Sys2Proof.Machine

/-! ## Frames (R520) -/

/-- A Lufaide header. -/
def frameHead (ftype dst src : Nat) (up : Bool) (session handle tag len : Nat) : Nat :=
  packFields [(4, 1), (4, ftype), (7, dst), (7, src), (1, b2n up), (16, session), (16, handle), (16, tag), (11, len), (46, 0)]

def fVersion (w : Nat) : Nat := bits w 127 124
def fType (w : Nat) : Nat := bits w 123 120
def fDst (w : Nat) : Nat := bits w 119 113
def fSrc (w : Nat) : Nat := bits w 112 106
def fSession (w : Nat) : Nat := bits w 104 89
def fHandle (w : Nat) : Nat := bits w 88 73
def fTag (w : Nat) : Nat := bits w 72 57
def fLen (w : Nat) : Nat := bits w 56 46

/-- Whether the upstream or downstream link is up (LINK_STATE). -/
def State.linkUp (s : State) (bit : Nat) : Bool := bitAt (s.o Od.linkState) bit

/-- A frame put on one of the two links, when it is up. -/
def State.sendFrame (s : State) (up : Bool) (f : Frame) : State :=
  if !s.linkUp (if up then 0 else 1) then s
  else if up then { s with chain := { s.chain with sentUp := f :: s.chain.sentUp } }
  else { s with chain := { s.chain with sentDown := f :: s.chain.sentDown } }

/-- A frame of the module's own; SRC is its address. -/
def State.ownFrame (s : State) (ftype dst : Nat) (up : Bool) (session handle tag : Nat) (payload : List Byte) : State :=
  s.sendFrame up { header := frameHead ftype dst (s.o Od.chainAddress) up session handle tag payload.length, payload := payload }

/-- CHAIN_LINK record: LINK_STATE, old and new address (R614). -/
def State.chainRecord (s : State) (old : Nat) : State :=
  s.record 0x09 0 (dataDown [(8, s.o Od.linkState), (8, old), (8, s.o Od.chainAddress)])

/-! ## Updates (R629, R633) -/

/-- The image an UPDATE_IMAGE goes into: the one not running; stopped at 0x88, the preferred one when it is not valid (R624). -/
def State.updateTarget (s : State) : Nat :=
  if s.o Od.bootStep = 0x88 then
    let p := s.o Od.preferredImage
    let valid := if p = 0 then s.boot.validA else s.boot.validB
    if valid then 1 - p else p
  else 1 - s.o Od.bootImage

/-- The release object of an image. -/
def Od.imageRelease (i : Nat) : Nat := if i = 0 then Od.imageARelease else Od.imageBRelease

/-- An image of NOR replaced: its bytes, whether it is valid, and its RELEASE. -/
def State.setImage (s : State) (i : Nat) (bs : List Byte) (valid : Bool) (release : Nat) : State :=
  let s := if i = 0 then { s with boot := { s.boot with imageA := bs, validA := valid } }
    else { s with boot := { s.boot with imageB := bs, validB := valid } }
  s.setO (Od.imageRelease i) (if valid then release else 0)

/-- UPDATE_STATE changes, and a FIRMWARE record says so (R633). -/
def State.setUpdate (s : State) (st image : Nat) : State :=
  if s.o Od.updateState = st then s else
  let s := s.setO Od.updateState st
  s.record 0x06 0 (dataDown [(8, st), (8, image), (32, s.o (Od.imageRelease image))])

/-! ## Paths, sessions and the lock (R535, R544) -/

/-- Path 0 is the chain, 1 the mailbox. -/
def State.path (s : State) (p : Nat) : Path := if p = 0 then s.dict.chain else s.dict.mbox
def State.setPath (s : State) (p : Nat) (x : Path) : State :=
  if p = 0 then { s with dict := { s.dict with chain := x } } else { s with dict := { s.dict with mbox := x } }

/-- A path's open transfer is discarded: a model-store object being written becomes EMPTY, an update image is not valid (R382, R540,
R629). -/
def State.dropSeg (s : State) (p : Nat) : State :=
  let x := s.path p
  match x.seg with
  | none => s.setPath p { x with cut := none }
  | some g =>
    let s := s.setPath p { x with seg := none, cut := none }
    if g.isWrite && g.key == Od.storeData then { s with store := tSet {} s.store g.sel {} }
    else if g.isWrite && g.key == Od.updateImage then s.setUpdate 0 s.updateTarget
    else s

/-- Whether a path holds the lock: LOCK_STATE is 1 for the chain and 2 for the mailbox. -/
def State.holdsLock (s : State) (p : Nat) : Bool := s.o Od.lockState == p + 1

/-- The lock is free and the staged set gone. -/
def State.freeLock (s : State) : State :=
  let s := { s with dict := { s.dict with staged := [], lockSession := 0, lease := 0 } }
  (((s.setO Od.lockState 0).setO Od.lockHandle 0).setO Od.lockRemaining 0).setO Od.lockStaged 0

/-- The lock breaks (R544): a set already fixed by COMMIT stays. -/
def State.breakLock (s : State) (cause : Nat) : State :=
  let st := s.o Od.lockState
  if st = 0 then s else
  let last := packFields [(8, cause), (16, s.o Od.lockHandle), (16, s.dict.staged.length), (2, st), (38, 0), (48, s.beat)]
  let s := s.freeLock
  let s := ((s.addO Od.lockBreaks 1).setO Od.lastBreak last).setO Od.prevBroken 1
  s.record 0x0B 0 (dataDown [(128, last)])

/-- A lock held by a path breaks. -/
def State.breakPath (s : State) (p cause : Nat) : State := if s.holdsLock p then s.breakLock cause else s

/-- A path's session ends (R535, R549): its lock breaks, its transfer is discarded, its _SELECT objects and kept replies go. -/
def State.endSession (s : State) (p cause : Nat) : State :=
  let s := s.breakPath p cause
  let s := s.dropSeg p
  s.setPath p {}

end Sys2Proof.Machine
end

