-- ==== Sys2Proof/Machine/Tiers.lean ====
section
/-!
DEFINITION. Near store, stack store and placement by heat (06_memory_tiers.md): granules, pages, heat, promotion and
demotion, the claims of loads, and the commands TIER_DECISION and MIGRATION_COMPLETE.
-/
namespace Sys2Proof.Machine

/-! ## Granules and pages, with their charges (R173, R174, R195) -/

def gFREE : Nat := 0
def gHOME : Nat := 1
def gTRANSIT : Nat := 2
def gTIERED : Nat := 3
def gMIGRATING : Nat := 4
def gRETIRED : Nat := 5

def cFREE : Nat := 0
def cPINNED : Nat := 1
def cCACHED : Nat := 2
def cHOME : Nat := 4
def cRETIRED : Nat := 5
/-- DESIGN CHOICE; log entry 62. -/
def cFIRMWARE : Nat := 6

/-- Whether NEAR_USED counts a granule: HOME, TRANSIT, TIERED or MIGRATING. -/
def granCounts (x : Gran) : Bool := decide (1 ≤ x.state ∧ x.state ≤ 4)
/-- Whether NEAR_HOME counts it. -/
def granHome (x : Gran) : Bool := x.state == gHOME || x.state == gTRANSIT

/-- A granule's tag replaced, with the charges of both owners kept (R195, OD 4000:0A). -/
def State.putGran (s : State) (g : Nat) (x : Gran) : State :=
  let y := s.gran g
  let s := s.subO (Od.nearUsed y.owner) (b2n (granCounts y))
  let s := s.subO (Od.nearHome y.owner) (b2n (granHome y))
  let s := s.addO (Od.nearUsed x.owner) (b2n (granCounts x))
  let s := s.addO (Od.nearHome x.owner) (b2n (granHome x))
  let s := s.subO Od.nearGranulesInService (b2n (x.state == gRETIRED && y.state != gRETIRED))
  s.setGran g x

/-- Whether STACK_USED counts a page: PINNED or HOME. -/
def pageCounts (x : Page) : Bool := x.cls == cPINNED || x.cls == cHOME

/-- A page's directory entry replaced, with the charges kept. -/
def State.putPage (s : State) (p : Nat) (x : Page) : State :=
  let y := s.page p
  let s := s.subO (Od.stackUsed y.owner) (b2n (pageCounts y))
  let s := s.addO (Od.stackUsed x.owner) (b2n (pageCounts x))
  s.setPage p x

/-- The listed granules of a slice, with their numbers. -/
def State.sliceGrans (s : State) (sl : Nat) : List (Nat × Gran) :=
  s.mem.grans.filter fun e => e.1 / 512 == sl

/-- Dropping a TIERED granule: PRESENT cleared, the granule FREE, its owner credited (R188). -/
def State.dropGran (s : State) (g : Nat) : State :=
  let x := s.gran g
  let p := s.page x.page
  let s := s.setPage x.page { p with present := setBitTo p.present x.piece false }
  ((s.putGran g {}).wipeGran g).addO Od.demotions 1

/-- A MIGRATING granule given up: its migration ends without effect and the granule is FREE (R190). -/
def State.cancelMigr (s : State) (g : Nat) : State :=
  let s := s.putGran g {}
  { s with mem := { s.mem with queues := tMap [] s.mem.queues fun _ q => q.filter fun m => m.gran != g } }

/-- Every queued migration of a page ends (R190). -/
def State.cancelMigrOf (s : State) (p : Nat) : State :=
  applyAll (fun s e => if e.2.state == gMIGRATING && e.2.page == p then s.cancelMigr e.1 else s) s s.mem.grans

/-- Every TIERED copy of a page is dropped and its migrations end. -/
def State.untier (s : State) (p : Nat) : State :=
  let s := s.cancelMigrOf p
  applyAll (fun s e => if e.2.state == gTIERED && e.2.page == p then s.dropGran e.1 else s) s s.mem.grans

/-- A page freed: its copies are gone, its content too (R198, R204). -/
def State.freePage (s : State) (p : Nat) : State := (((s.untier p).putPage p {}).wipePage p)

/-! ## Heat (R184) -/

/-- An access event on piece `i` of page `p`: TOUCH is set, and HEAT rises at most once a beat. -/
def State.touchPage (s : State) (p i : Nat) : State :=
  let x := s.page p
  let x := { x with touch := setBitTo x.touch i true }
  if x.cls == cFIRMWARE || x.cls == cFREE || x.cls == cRETIRED then s
  else if s.mem.counted.contains (2 * p) then s.setPage p x
  else
    let s := s.setPage p { x with heat := min 255 (x.heat + 1) }
    { s with mem := { s.mem with counted := (2 * p) :: s.mem.counted } }

/-- A load takes bytes from a TIERED granule. -/
def State.touchGran (s : State) (g : Nat) : State :=
  let x := s.gran g
  if x.state != gTIERED || s.mem.counted.contains (2 * g + 1) then s
  else
    let s := s.setGran g { x with heat := min 255 (x.heat + 1) }
    { s with mem := { s.mem with counted := (2 * g + 1) :: s.mem.counted } }

/-- The granule of a slice that holds piece `i` of page `p` TIERED, when the slice's port is open (R170: while a
slice is RETAINED its TIERED granules count as absent). -/
def State.tieredIn (s : State) (sl p i : Nat) : Option Nat :=
  if s.pdOn (pdSlice sl) then
    ((s.sliceGrans sl).find? fun e => e.2.state == gTIERED && e.2.page == p && e.2.piece == i).map (·.1)
  else none

/-- Every heat counter of pages and granules halved (R185). -/
def State.halveTiers (s : State) : State :=
  { s with mem := { s.mem with
      pages := tMap {} s.mem.pages fun _ x => { x with heat := x.heat / 2 }
      grans := tMap {} s.mem.grans fun _ x => { x with heat := x.heat / 2 } } }

/-! ## Promotion and demotion (R187) -/

/-- The coldest TIERED granule without readers among those that meet `p`: least heat, then least number. -/
def State.coldest (s : State) (p : Nat → Gran → Bool) : Option Nat :=
  let c := s.mem.grans.filter fun e => e.2.state == gTIERED && e.2.readers == 0 && p e.1 e.2
  (c.foldl (fun (acc : Option (Nat × Gran)) e => match acc with
    | none => some e
    | some b => if e.2.heat < b.2.heat then some e else some b) none).map (·.1)

/-- The lowest-numbered FREE granule of a slice. -/
def State.freeGran (s : State) (sl : Nat) : Option Nat :=
  (List.range 512).findSome? fun j => if (s.gran (512 * sl + j)).state == gFREE then some (512 * sl + j) else none

/-- Whether a piece may be promoted: its page is PINNED, or it lies in a published key-value page (R179, R187). -/
def pieceMoves (x : Page) (i : Nat) : Bool :=
  x.cls == cPINNED || (x.cls == cHOME && bitAt x.pub (i / 4))

/-- The candidates of a slice in decision order: heat descending, page ascending, piece ascending. -/
def State.candidates (s : State) (sl tp : Nat) : List (Nat × Nat) :=
  let q := tGet [] s.mem.queues sl
  let ps := s.mem.pages.filter fun e => e.2.target == sl && decide (tp ≤ e.2.heat) &&
    (e.2.cls == cPINNED || (e.2.cls == cHOME && e.2.pub != 0))
  let ps := sortBy (fun a b => decide (b.2.heat < a.2.heat)) ps
  ps.flatMap fun e => ((List.range 32).filter fun i =>
    bitAt e.2.touch i && !bitAt e.2.present i && pieceMoves e.2 i && !q.any (fun m => m.page == e.1 && m.piece == i)).map
      fun i => (e.1, i)

/-- The space test and the replacement of one candidate, `q` being the owner's granule to drop. -/
def State.promoteInto (s : State) (sl p i : Nat) (q : Option Nat) : State :=
  let x := s.page p
  let h := s.o Od.heatHysteresis
  let start (s : State) (v : Nat) : State :=
    let s := match q with
      | some g => s.dropGran g
      | none => s
    let s := s.putGran v { state := gMIGRATING, page := p, piece := i, owner := x.owner }
    { s with mem := { s.mem with
        queues := tMod [] s.mem.queues sl fun l => l ++ [{ page := p, piece := i, gran := v }] } }
  match s.freeGran sl with
  | some v => start s v
  | none =>
    match s.coldest fun g _ => g / 512 == sl && some g != q with
    | none => s.addO Od.promoteSkippedSpace 1
    | some v =>
      if x.heat < (s.gran v).heat + h then s.addO Od.promoteSkippedSpace 1
      else start (s.dropGran v) v

/-- One candidate decided (R187), or skipped because its slice is not open (R570). -/
def State.promote (s : State) (sl : Nat) (c : Nat × Nat) : State :=
  let x := s.page c.1
  if !s.pdOn (pdSlice sl) then s.addO Od.promoteSkippedSpace 1
  else if s.o (Od.nearUsed x.owner) < s.o (Od.nearQuota x.owner) then s.promoteInto sl c.1 c.2 none
  else
    match s.coldest fun _ y => y.owner == x.owner with
    | none => s.addO Od.promoteSkippedQuota 1
    | some g =>
      if x.heat < (s.gran g).heat + s.o Od.heatHysteresis then s.addO Od.promoteSkippedQuota 1
      else s.promoteInto sl c.1 c.2 (some g)

/-- The floor: cold copies without readers are dropped. -/
def State.floorDrop (s : State) : State :=
  applyAll (fun s e => if e.2.state == gTIERED && e.2.readers == 0 && decide (e.2.heat < s.o Od.heatDemoteFloor)
    then s.dropGran e.1 else s) s s.mem.grans

/-- An owner above its quota gives up its coldest TIERED granules until it fits or none is left (R199). -/
def State.shedQuota : Nat → State → Nat → State
  | 0, s, _ => s
  | n + 1, s, t =>
    if s.o (Od.nearUsed t) ≤ s.o (Od.nearQuota t) then s
    else match s.coldest fun _ y => y.owner == t with
      | none => s
      | some g => shedQuota n (s.dropGran g) t

/-- The whole decision of a beat multiple of 1 024 (R187), and the TOUCH masks cleared. -/
def State.tierDecision (s : State) : State :=
  let s := s.floorDrop
  let owners := (s.mem.grans.map fun e => e.2.owner).eraseDups
  let s := applyAll (fun s t => State.shedQuota s.mem.grans.length s t) s owners
  let tp := s.o Od.heatPromoteThreshold
  let cs := (List.range 32).map fun sl => (sl, s.candidates sl tp)
  let s := applyAll (fun s c => applyAll (fun s p => s.promote c.1 p) s c.2) s cs
  { s with mem := { s.mem with pages := tMap {} s.mem.pages fun _ x => { x with touch := 0 } } }

/-- TIER_DECISION (R187, R188, R199, R570): at a beat whose count is a multiple of 1 024. -/
def execTierDecision (s : State) : Res :=
  .next (guardS (s.beat % 1024 == 0) s State.tierDecision)

/-- MIGRATION_COMPLETE (R189, R190): the slice's oldest migration has copied its piece; the granule becomes TIERED
with the page's HEAT and the page's PRESENT bit is set, or the granule becomes FREE when its object is gone, its page
is retired or its owner is above quota. -/
def execMigrationComplete (sl : Fin 32) (s : State) : Res :=
  .next <| match tGet [] s.mem.queues sl.val with
  | [] => s
  | m :: rest =>
    let s := { s with mem := { s.mem with queues := tSet [] s.mem.queues sl.val rest } }
    let x := s.page m.page
    let g := s.gran m.gran
    if g.state != gMIGRATING then s
    else if !(pieceMoves x m.piece) || decide (s.o (Od.nearQuota g.owner) < s.o (Od.nearUsed g.owner)) then
      s.putGran m.gran {}
    else
      let base := m.page * 2 ^ 21 + m.piece * 2 ^ 16
      let bytes := s.mem.stack.filter fun e => e.1 / 2 ^ 16 == m.page * 32 + m.piece
      let s := s.wipeGran m.gran
      let s := { s with mem := { s.mem with
        near := applyAll (fun (t : Tbl Byte) (e : Nat × Byte) => tSet 0 t (m.gran * 2 ^ 16 + (e.1 - base)) e.2) s.mem.near bytes } }
      let s := s.putGran m.gran { g with state := gTIERED, heat := x.heat }
      let s := s.setPage m.page { x with present := setBitTo x.present m.piece true }
      s.addO Od.promotions 1

/-! ## Pages for loads (R182, R196, R206) -/

/-- Whether stack h may give pages: its controller's domain is ON and it has not failed. -/
def State.stackUp (s : State) (h : Nat) : Bool := s.pdOn (pdStack h) && !s.mem.stacksOut.contains h

/-- FREE pages of a stack. -/
def State.freeCount (s : State) (h : Nat) : Nat :=
  24576 - (s.mem.pages.filter fun e => e.1 / 24576 == h && e.2.cls != cFREE).length

/-- The lowest-numbered FREE page of a stack; one that maps still name, because its bytes are being fetched again, is not taken. -/
def State.freePageOf (s : State) (h : Nat) : Option Nat :=
  (List.range 24576).findSome? fun i =>
    let p := 24576 * h + i
    if (s.page p).cls == cFREE && !s.mem.refetch.any fun e => e.1 == p then some p else none

/-- The stack of a die with more FREE pages, ties to position 0 (R182). -/
def State.stackOfDie (s : State) (d : Nat) : Option Nat :=
  match s.stackUp (2 * d), s.stackUp (2 * d + 1) with
  | true, true => if s.freeCount (2 * d) < s.freeCount (2 * d + 1) then some (2 * d + 1) else some (2 * d)
  | true, false => some (2 * d)
  | false, true => some (2 * d + 1)
  | false, false => none

/-- Whether the stack store is within what its quotas promise (R196); if not, nothing new is allocated (R206). -/
def State.stackFits (s : State) : Bool :=
  decide (((List.range 256).map fun t => s.o (Od.stackQuota t)).sum + s.o Od.listCachePages + s.o Od.rowCachePages +
    s.o Od.stackFirmwareReserve ≤ s.o Od.stackPagesInService)

/-- A page of a die taken for a use, if one is free. -/
def State.takePage (s : State) (d cls owner target : Nat) (u : PUse) : Option (State × Nat) :=
  match s.stackOfDie d with
  | none => none
  | some h =>
    match s.freePageOf h with
    | none => none
    | some p => some (s.putPage p { cls := cls, owner := owner, target := target, use := u }, p)

/-- n pages of a die for one object, from page index k on; none when a stack runs out. -/
def takePages (d cls owner target kind obj : Nat) : Nat → Nat → State → Option (State × List Nat)
  | 0, _, s => some (s, [])
  | n + 1, k, s =>
    match s.takePage d cls owner target ⟨kind, obj, k⟩ with
    | none => none
    | some (s, p) =>
      match takePages d cls owner target kind obj n (k + 1) s with
      | none => none
      | some (s, ps) => some (s, p :: ps)

/-- The pages of an object, in its own order. -/
def State.pagesOf (s : State) (kind obj : Nat) : List Nat :=
  (sortBy (fun a b => decide (a.2.use.idx < b.2.use.idx))
    (s.mem.pages.filter fun e => e.2.use.kind == kind && e.2.use.obj == obj && e.2.cls != cRETIRED)).map (·.1)

/-- An object's bytes written into its pages in order, 2 MiB each. -/
def State.fillPages : State → List Nat → List Byte → State
  | s, [], _ => s
  | s, p :: ps, bs => State.fillPages (s.putStack p 0 (bs.take (2 ^ 21))) ps (bs.drop (2 ^ 21))

/-- Byte o of an object held in pages. -/
def State.objByte (s : State) (kind obj o : Nat) : Byte :=
  match (s.pagesOf kind obj)[o / 2 ^ 21]? with
  | some p => s.stackB p (o % 2 ^ 21)
  | none => 0

/-- Every page of an object freed. -/
def State.freeObject (s : State) (kind obj : Nat) : State :=
  applyAll State.freePage s (s.pagesOf kind obj)

/-! ## Granules for loads (R201) -/

/-- The granule a load takes next in a slice: a free one, else the coldest MIGRATING, else the coldest TIERED without
readers. -/
def State.nextClaim (s : State) (sl : Nat) : Option Nat :=
  match s.freeGran sl with
  | some g => some g
  | none =>
    match ((s.sliceGrans sl).find? fun e => e.2.state == gMIGRATING && e.2.readers == 0).map (·.1) with
    | some g => some g
    | none => s.coldest fun g _ => g / 512 == sl

/-- A load takes one home granule. -/
def State.claimGran (s : State) (g state owner res : Nat) : State :=
  let x := s.gran g
  let s := if x.state == gMIGRATING then s.cancelMigr g
    else if x.state == gTIERED then (s.dropGran g).addO Od.loadEvictions 1 else s
  s.putGran g { state := state, owner := owner, res := res }

/-- A load takes k granules of a slice, or none of them can be taken. -/
def claimGrans (sl state owner res : Nat) : Nat → State → Option (State × List Nat)
  | 0, s => some (s, [])
  | n + 1, s =>
    match s.nextClaim sl with
    | none => none
    | some g =>
      match claimGrans sl state owner res n (s.claimGran g state owner res) with
      | none => none
      | some (s, gs) => some (s, g :: gs)

/-! ## Resident address spaces (R175, R176) -/

/-- Where a resident address lies. -/
inductive Loc where
  | near (slice off gran : Nat)
  | stack (page off : Nat)
  | bad
  deriving DecidableEq, Repr

/-- The two windows and their maps (R175, R176). -/
def State.locate (_ : State) (a : Nat) (r : Resident) (addr : Nat) : Loc :=
  if addr < 0x2000000 then
    let e := tGet 0 r.nearMap (addr / 2 ^ 16)
    if bitAt e 15 then .near a (e % 512 * 2 ^ 16 + addr % 2 ^ 16) (512 * a + e % 512) else .bad
  else if 0x8000000000 ≤ addr ∧ addr < 0xA000000000 then
    let e := tGet 0 r.stackMap (addr / 2 ^ 21 % 2 ^ 16)
    let k := e / 2 ^ 30
    if k = 1 ∨ k = 2 then .stack (e % 2 ^ 18) (addr % 2 ^ 21) else .bad
  else .bad

/-- A byte a resident reads; a bad address reads 0, and is refused before it is read. -/
def State.resB (s : State) (a : Nat) (r : Resident) (addr : Nat) : Byte :=
  match s.locate a r addr with
  | .near sl o _ => s.nearB sl o
  | .stack p o => s.stackB p o
  | .bad => 0

/-- n bytes a resident reads from an address. -/
def State.resBytes (s : State) (a : Nat) (r : Resident) (addr n : Nat) : List Byte :=
  (List.range n).map fun i => s.resB a r (addr + i)

/-- A byte a resident writes to its near window (R177). -/
def State.putResB (s : State) (a : Nat) (r : Resident) (addr : Nat) (b : Byte) : State :=
  match s.locate a r addr with
  | .near sl o _ => s.setNearB sl o b
  | _ => s

/-- Bytes a resident writes from an address. -/
def State.putRes (s : State) (a : Nat) (r : Resident) (addr : Nat) (bs : List Byte) : State :=
  (applyAll (fun (x : State × Nat) b => (x.1.putResB a r x.2 b, x.2 + 1)) (s, addr) bs).1

end Sys2Proof.Machine
end

