-- ==== Sys2Proof/Machine/Operands.lean ====
section
/-!
DEFINITION. Instruction words, bundle headers, tile descriptors and row attribute words (04_array_instructions.md R102
to R135): their fields, the acceptance checks of a bundle, and reading and writing operands through descriptors.
-/
namespace Sys2Proof.Machine

/-! ## Fields of instruction words (R103, R105, R115, R119, R125, R127, R131, R134) -/

def wOp (w : Nat) : Nat := bits w 127 120
def hCourse (w : Nat) : Nat := bits w 111 104
def hEpoch (w : Nat) : Nat := bits w 103 88
def hCount (w : Nat) : Nat := bits w 87 80
def hPriv (w : Nat) : Bool := bitAt w 79
def hCore (w : Nat) : Nat := bits w 78 71
def hMbox (w : Nat) : Nat := bits w 70 68
def hRes (w : Nat) : Nat := bits w 67 66
def hId (w : Nat) : Nat := bits w 63 32
/-- The first and second 12-bit descriptor fields. -/
def wD0 (w : Nat) : Nat := bits w 111 100
def wD1 (w : Nat) : Nat := bits w 99 88
def wD2 (w : Nat) : Nat := bits w 87 76
def wD3 (w : Nat) : Nat := bits w 75 64
def mAccBase (w : Nat) : Nat := bits w 63 59
def mRoute (w : Nat) : Nat := bits w 58 57
def mFunc (w : Nat) : Nat := bits w 56 53
def mFinal (w : Nat) : Bool := bitAt w 52
def mFirst (w : Nat) : Bool := bitAt w 51
def mHalf (w : Nat) : Bool := bitAt w 50
def mKeep (w : Nat) : Bool := bitAt w 49
def mSken (w : Nat) : Bool := bitAt w 48
def mSkh (w : Nat) : Bool := bitAt w 47
def mBias (w : Nat) : Bool := bitAt w 46
def mSmax (w : Nat) : Bool := bitAt w 45
def mStat (w : Nat) : Bool := bitAt w 44
def mOvf (w : Nat) : Bool := bitAt w 43
def mDsig (w : Nat) : Option Nat := if bitAt w 42 then some (bits w 41 38) else none

/-! ## Tile descriptors (R111, R112) -/

def dKind (d : Nat) : Nat := bits d 255 252
def dFmt (d : Nat) : Nat := bits d 251 248
def dK (d : Nat) : Nat := bits d 247 238
def dN (d : Nat) : Nat := bits d 237 229
def dRows (d : Nat) : Nat := bits d 228 219
def dBlock (d : Nat) : Nat := bits d 218 211
def dElem (d : Nat) : Nat := 256 * bits d 191 160
def dScale (d : Nat) : Nat := 256 * bits d 159 128
def dPitch (d : Nat) : Nat := bits d 127 112
def dSum (d : Nat) : Nat := 256 * bits d 111 80
def dMag (d : Nat) : Nat := 256 * bits d 79 48
def dAttr (d : Nat) : Nat := 256 * bits d 47 16
def dEntries (d : Nat) : Nat := bits d 30 15
def dOwner (d : Nat) : Nat := bits d 47 43
def dSctr (d : Nat) : Nat := bits d 42 39

/-- Bytes of a packed row of n elements of a format (R42). -/
def rowBytes (fmt n : Nat) : Nat :=
  if fmt = 3 ∨ fmt = 4 then 3 * cdiv n 4 else cdiv (n * fmtBits fmt) 8

/-- The address of row m of the element plane. -/
def rowAddr (d n m : Nat) : Nat :=
  dElem d + m * (if dPitch d = 0 then rowBytes (dFmt d) n else dPitch d)

/-- The scale plane packs one byte per block of 32 for each row (R42). -/
def scaleAddr (d n m : Nat) : Nat := dScale d + m * cdiv n 32

/-- The codes the kinds accept (R112). -/
def fmtAllowed (kind fmt : Nat) : Bool :=
  match kind with
  | 1 => decide (1 ≤ fmt ∧ fmt ≤ 7)
  | 2 => decide (1 ≤ fmt ∧ fmt ≤ 7)
  | 3 => decide (1 ≤ fmt ∧ fmt ≤ 10)
  | 4 => fmt == 7
  | 5 => fmt == 9 || fmt == 11
  | 6 => fmt == 9
  | _ => false

/-- A descriptor's own fields: lengths in range for its kind, reserved bits zero (R111). -/
def descOk (kind d : Nat) : Bool :=
  let kOk := decide (1 ≤ dK d ∧ dK d ≤ 512)
  let nOk := decide (1 ≤ dN d ∧ dN d ≤ 256)
  let rOk := decide (1 ≤ dRows d ∧ dRows d ≤ 512)
  dKind d == kind && bits d 210 192 == 0 && dPitch d % 64 == 0 &&
  match kind with
  | 1 => kOk && nOk && bits d 47 0 == 0
  | 2 => kOk && rOk && bits d 15 0 == 0
  | 3 => nOk && rOk && bits d 47 0 == 0
  | 4 => bits d 14 0 == 0 && decide (1 ≤ dEntries d ∧ dEntries d ≤ 32768)
  | 5 => bits d 47 0 == 0
  | 6 => rOk && nOk && bits d 38 0 == 0
  | _ => false

/-- The pass depth of a pair of formats (R52). -/
def passDepth (x w : Nat) : Nat := if x = 5 ∧ w = 5 then 512 else 256

/-- The pairs R52 allows. -/
def pairAllowed (x w : Nat) : Bool :=
  (x == 7 && w == 7) || (decide (1 ≤ x ∧ x ≤ 6) && decide (1 ≤ w ∧ w ≤ 6))

/-- Rows of one instruction (R75). -/
def rowLimit (fmt : Nat) : Nat := if fmt = 7 then 256 else 512

/-! ## The outcome codes of R138 -/

def stCOMPLETE : Nat := 0x00
def stENCODING : Nat := 0x01
def stOPERANDS : Nat := 0x02
def stDESC : Nat := 0x03
def stACCESS : Nat := 0x04
def stORDER : Nat := 0x05
def stWAIT : Nat := 0x06
def stECC : Nat := 0x07
def stCHECKSUM : Nat := 0x08
def stABANDONED : Nat := 0x09
def stQFULL : Nat := 0x0A
def stBUSY : Nat := 0x0B
def stINCOMPLETE : Nat := 0x0C

/-! ## Acceptance (R107, R120) -/

/-- Whether every byte of a run lies in a mapped granule or page (R175); `near` asks for the near window alone
(R177). -/
def State.mapped (s : State) (a : Nat) (r : Resident) (near : Bool) (addr n : Nat) : Bool :=
  let pts := addr :: (addr + n - 1) :: (List.range (n / 2 ^ 16 + 1)).map fun i => (addr / 2 ^ 16 + i) * 2 ^ 16
  pts.all fun x =>
    if decide (x < addr ∨ addr + n ≤ x) then true else
    match s.locate a r x with
    | .near _ _ _ => true
    | .stack _ _ => !near
    | .bad => false

/-- The byte runs a descriptor of a kind names. -/
def descRuns (kind d : Nat) : List (Nat × Nat) :=
  let plane (n rows : Nat) : List (Nat × Nat) :=
    [(dElem d, rowAddr d n rows - dElem d)] ++
      (if fmtScaled (dFmt d) then [(dScale d, rows * cdiv n 32)] else [])
  match kind with
  | 1 => plane (dK d) (dN d) ++ [(dSum d, 4 * dK d), (dMag d, 4 * dK d)]
  | 2 => plane (dK d) (dRows d) ++ [(dAttr d, 4 * dRows d)]
  | 3 => plane (dN d) (dRows d)
  | 4 => [(dElem d, 4 * dEntries d), (dScale d, 514), (dSum d, 4 * 512), (dMag d, 4 * 512)]
  | 6 => [(dElem d, 1024 * dRows d)]
  | _ => [(dElem d, 4)]

/-- Whether array b holds a resident of the same stake (R120, R134). -/
def State.inStake (s : State) (r : Resident) (b : Nat) : Bool :=
  (List.range 4).any fun i => let x := s.res b i; x.used && x.stake == r.stake

/-- One descriptor of a word checked for its kind: 0 or the acceptance code. -/
def State.descCheck (s : State) (a : Nat) (r : Resident) (kind : Nat) (d : Nat) (near : Bool) : Nat :=
  if !descOk kind d then stDESC
  else if !fmtAllowed kind (dFmt d) then stOPERANDS
  else if kind == 6 && !s.inStake r (dOwner d) then stACCESS
  else if kind == 6 then 0
  else if (descRuns kind d).all fun x => s.mapped a r near x.1 x.2 then 0 else stACCESS

/-- The first non-zero code of a list. -/
def firstCode : List Nat → Nat
  | [] => 0
  | c :: r => if c = 0 then firstCode r else c

/-- A code when a condition fails. -/
def need (c : Bool) (code : Nat) : Nat := if c then 0 else code

/-- The descriptor indices of a word, in field order, with their kinds and whether they are written (R177). -/
def wordDescs (w : Nat) : List (Nat × Nat × Bool) :=
  match wOp w with
  | 0x01 => [(wD0 w, 1, false)]
  | 0x02 => [(wD0 w, 2, false)]
  | 0x03 => [(wD0 w, 4, false)]
  | 0x10 => [(wD0 w, 2, false), (wD1 w, if mRoute w = 1 then 6 else 3, true), (wD2 w, 1, false)] ++
      (if mBias w then [(wD3 w, 5, false)] else [])
  | 0x11 => [(wD0 w, 6, true)] ++ [(wD1 w, 3, true)] ++ (if mBias w then [(wD3 w, 5, false)] else [])
  | 0x22 => [(wD0 w, 3, false), (wD1 w, 3, true)] ++ (if bitAt w 61 then [(wD2 w, 5, false)] else []) ++
      (if bitAt w 60 then [(wD3 w, 5, false)] else [])
  | 0x30 => (if bitAt w 74 then [(wD0 w, 3, false)] else []) ++ [(wD1 w, 5, true)]
  | _ => []

/-- The encoding checks of one word: opcode, reserved fields, field ranges (R14, R103, R115 to R134). -/
def encCheck (priv : Bool) (w : Nat) : Nat :=
  let rows10 (v : Nat) : Bool := decide (1 ≤ v ∧ v ≤ 512)
  if bits w 119 112 ≠ 0 then stENCODING
  else need (match wOp w with
    | 0x01 => bits w 94 0 == 0
    | 0x02 => bits w 93 0 == 0
    | 0x03 => bits w 89 0 == 0
    | 0x10 => bits w 37 0 == 0 && mRoute w != 3 && decide (mFunc w ≤ 3)
    | 0x11 => bits w 37 0 == 0 && decide (mFunc w ≤ 3) && (mRoute w == 0 || mRoute w == 2) && wD2 w == 0 &&
        !mHalf w && !mKeep w && !mSken w && !mSkh w
    | 0x20 => bits w 99 0 == 0 && rows10 (bits w 111 102)
    | 0x21 => bits w 96 0 == 0 && rows10 (bits w 106 97)
    | 0x22 => bits w 10 0 == 0 && bits w 63 62 != 3 && bits w 26 11 != 0
    | 0x30 => bits w 35 0 == 0 && decide (1 ≤ bits w 87 77 ∧ bits w 87 77 ≤ 1024) &&
        decide (1 ≤ bits w 73 55 ∧ bits w 73 55 ≤ 262144) && (bitAt w 74 || wD0 w == 0) &&
        (bits w 76 75 != 3 || priv)
    | 0x40 => bits w 91 0 == 0 && bits w 107 92 != 0
    | 0x41 => bits w 85 0 == 0 && bits w 102 87 != 0
    | 0x42 => bits w 99 64 == 0 && decide (bits w 110 103 ≤ 143)
    | _ => false) stENCODING

/-- Whether rows of n columns of an OUTPUT plane lie in the resident's address space, scales with them. -/
def State.planeMapped (s : State) (a : Nat) (r : Resident) (near : Bool) (d n rows : Nat) : Bool :=
  s.mapped a r near (dElem d) (rowAddr d n rows - dElem d) &&
    (!fmtScaled (dFmt d) || s.mapped a r near (dScale d) (rows * cdiv n 32))

/-- Whether a vector of n four-byte elements lies in the resident's address space. -/
def State.vecMapped (s : State) (a : Nat) (r : Resident) (near : Bool) (d n : Nat) : Bool := s.mapped a r near (dElem d) (4 * n)

/-- The consistency checks of R120 and R125 on a word's descriptors, and its access checks. -/
def State.pairCheck (s : State) (a : Nat) (r : Resident) (w : Nat) (ds : List Nat) : Nat :=
  let x := ds.getD 0 0
  let o := ds.getD 1 0
  let t := ds.getD 2 0
  match wOp w with
  | 0x10 =>
    let e := mRoute w == 1
    firstCode [
      need (dK x == dK t && dBlock x == dBlock t) stENCODING,
      need (pairAllowed (dFmt x) (dFmt t)) stOPERANDS,
      need (decide (dK x ≤ passDepth (dFmt x) (dFmt t))) stENCODING,
      need (decide (dRows x ≤ rowLimit (dFmt x))) stENCODING,
      need (!e || (!mFinal w && !mFirst w && !mBias w && !mSmax w && !mStat w && mAccBase w == 0)) stENCODING,
      need (e || (dRows o == dRows x && dN o == dN t)) stENCODING,
      need (mRoute w != 2 || dFmt o == 9) stENCODING,
      need (!mSmax w || (mFunc w == 0 && dFmt o != 10)) stENCODING,
      need (dFmt o != 10 || e || (mFunc w == 0 && !mSmax w)) stENCODING,
      need (e || decide (mAccBase w + cdiv (dRows x) 16 ≤ r.accUnits)) stACCESS,
      need (!mBias w || s.vecMapped a r false (ds.getD 3 0) (dN t)) stACCESS]
  | 0x11 => firstCode [
      need (dRows o == dRows x) stENCODING,
      need (mRoute w != 2 || dFmt o == 9) stENCODING,
      need (!mSmax w || (mFunc w == 0 && dFmt o != 10)) stENCODING,
      need (decide (mAccBase w + cdiv (dRows x) 16 ≤ r.accUnits)) stACCESS,
      need (!mBias w || s.vecMapped a r false (ds.getD 2 0) (dN o)) stACCESS]
  | 0x21 => need (decide (bits w 111 107 + cdiv (bits w 106 97) 16 ≤ r.accUnits)) stACCESS
  | 0x41 => need (s.inStake r (bits w 111 107)) stACCESS
  | 0x22 =>
    let cols := bits w 26 11
    firstCode [
      need (s.planeMapped a r false x cols (dRows x) && s.planeMapped a r true o cols (dRows x)) stACCESS,
      need ((ds.drop 2).all fun d => s.vecMapped a r false d cols) stACCESS]
  | 0x30 =>
    let slice := bitAt w 74
    let i := ds.getD (if slice then 1 else 0) 0
    firstCode [
      need (dFmt i == 11) stOPERANDS,
      need (!slice || s.planeMapped a r false x (dN x) (cdiv (bits w 73 55) (dN x))) stACCESS,
      need (s.vecMapped a r true i (bits w 87 77)) stACCESS]
  | _ => 0

/-- Everything R107 checks of one word: its code (0 when it passes) and the descriptor copies it uses (R108). -/
def State.acceptWord (s : State) (a : Nat) (r : Resident) (priv : Bool) (w : Nat) : Nat × List Nat :=
  let e := encCheck priv w
  if e ≠ 0 then (e, []) else
  let names := wordDescs w
  let ds := names.map fun n => tGet 0 r.descs n.1
  let c := firstCode ((names.zip ds).map fun n => s.descCheck a r n.1.2.1 n.2 n.1.2.2)
  if c ≠ 0 then (c, []) else
  let own := if wOp w = 0x11 ∧ dOwner (ds.getD 0 0) ≠ a then stACCESS else 0
  (firstCode [s.pairCheck a r w ds, own], ds)

/-- The header's own encoding (R105). -/
def headerOk (h : Nat) : Bool :=
  wOp h == 0xF0 && bits h 119 112 == 0 && bits h 65 64 == 0 && bits h 31 0 == 0 &&
  decide (1 ≤ hCount h ∧ hCount h ≤ 127) && decide (hCore h ≤ 143)

/-- Whether a word goes to the load queue (R103). -/
def isLoadWord (w : Nat) : Bool := decide (1 ≤ wOp w ∧ wOp w ≤ 3)

/-! ## Reading operands (R42, R80, R114) -/

/-- Element k of a packed row of bytes. -/
def unpackAt (fmt : Nat) (v k : Nat) : Nat := bits v (fmtBits fmt * k + fmtBits fmt - 1) (fmtBits fmt * k)

/-- A row's element codes at keys base + k, the zero code unlisted. -/
def unpackRow (fmt n base : Nat) (bs : List Byte) : Tbl Nat :=
  let v := leNat bs
  ((List.range n).map fun k => (base + k, unpackAt fmt v k)).filter fun e => e.2 != 0

/-- A plane of rows: element codes at m * 512 + k and scale bytes at m * 16 + j. -/
def State.readPlane (s : State) (a : Nat) (r : Resident) (d n rows : Nat) : Tbl Nat × Tbl Nat :=
  let es := (List.range rows).flatMap fun m =>
    unpackRow (dFmt d) n (m * 512) (s.resBytes a r (rowAddr d n m) (rowBytes (dFmt d) n))
  let ss := if fmtScaled (dFmt d) then (List.range rows).flatMap fun m =>
    ((List.range (cdiv n 32)).map fun j => (m * 16 + j, (s.resB a r (scaleAddr d n m + j)).toNat)).filter fun e =>
      e.2 != 0
    else []
  (es, ss)

/-- An FP32 value at a resident address. -/
def State.resF32 (s : State) (a : Nat) (r : Resident) (addr : Nat) : FP32 :=
  BitVec.ofNat 32 (leNat (s.resBytes a r addr 4))

/-- A vector of FP32 values, +0 unlisted. -/
def State.readVec (s : State) (a : Nat) (r : Resident) (addr n : Nat) : Tbl FP32 :=
  ((List.range n).map fun i => (i, s.resF32 a r (addr + 4 * i))).filter fun e => decide (e.2 ≠ 0#32)

/-- A stationary tile as TLOAD writes it to shadow, padded as R80 gives. -/
def State.readTile (s : State) (a : Nat) (r : Resident) (d res epoch : Nat) : Tile :=
  let p := s.readPlane a r d (dK d) (dN d)
  { desc := d, fmt := dFmt d, elems := p.1, scales := p.2,
    sum := s.readVec a r (dSum d) (dK d), mag := s.readVec a r (dMag d) (dK d), res := res, epoch := epoch }

/-- A stream half as FEED fills it. -/
def State.readStream (s : State) (a : Nat) (r : Resident) (d res epoch : Nat) : SHalf :=
  let p := s.readPlane a r d (dK d) (dRows d)
  { desc := some d, elems := p.1, scales := p.2,
    attrs := ((List.range (dRows d)).map fun m => (m, leNat (s.resBytes a r (dAttr d + 4 * m) 4))).filter fun e =>
      e.2 != 0
    res := res, epoch := epoch }

/-- A skein tile: column-sorted entries between the offsets of the column-start table (R114). -/
def State.readSkein (s : State) (a : Nat) (r : Resident) (d : Nat) : SkTile :=
  let off (n : Nat) : Nat := leNat (s.resBytes a r (dScale d + 2 * n) 2)
  { desc := d
    entries := (List.range 256).flatMap fun n => (List.range (off (n + 1) - off n)).map fun i =>
      let e := leNat (s.resBytes a r (dElem d + 4 * (off n + i)) 4)
      (n, bits e 15 7, bits e 31 16)
    sum := s.readVec a r (dSum d) 512, mag := s.readVec a r (dMag d) 512 }

/-! ## Row attribute words (R113) -/

def atSkein (w : Nat) : Option Nat := if bitAt w 31 then some (bits w 30 27) else none
def atSr (w : Nat) : Bool := bitAt w 26

/-! ## Writing results (R42, R59 to R65) -/

/-- The 32-element blocks of a row. -/
def blocksOf {β : Type} : Nat → List β → List (List β)
  | 0, _ => []
  | n + 1, xs => if xs.isEmpty then [] else xs.take 32 :: blocksOf n (xs.drop 32)

/-- Codes packed low element first (R42, R50). -/
def packCodes (fmt : Nat) (cs : List Nat) : List Byte :=
  let w := fmtBits fmt
  let v := (cs.foldr (fun c acc => c % 2 ^ w + 2 ^ w * acc) 0)
  leBytes (rowBytes fmt cs.length) v

/-- One output row converted: the element bytes, the scale bytes, and the numeric faults of a binarization (R51). -/
def convRow (fmt : Nat) (prop : Bool) (srs : List (Option Nat)) (ys : List FP32) : List Byte × List Byte × Nat :=
  if fmt = 10 then
    (packCodes 10 (ys.map fun y => b2n (positive32 y)), [], (ys.filter isNan32).length)
  else if fmtScaled fmt then
    let bs := (blocksOf (ys.length + 1) (ys.zip srs)).map fun blk =>
      convBlock fmt prop (blk.map (·.2)) (blk.map fun p => val32 p.1)
    (packCodes fmt (bs.flatMap (·.2)), bs.map fun b => BitVec.ofNat 8 b.1, 0)
  else if fmt = 9 then (packCodes 9 (ys.map (·.toNat)), [], 0)
  else
    (packCodes fmt ((ys.zip srs).map fun p => match convElem fmt prop p.2 (val32 p.1) with
      | .code c => c
      | .blockNan => 0), [], 0)

/-- Row m of an OUTPUT descriptor written through the near window. -/
def State.writeRow (s : State) (a : Nat) (r : Resident) (d n m : Nat) (row : List Byte × List Byte × Nat) : State :=
  let s := s.putRes a r (rowAddr d n m) row.1
  s.putRes a r (scaleAddr d n m) row.2.1

/-- Element n of row m of an OUTPUT plane, widened to FP32 (NORM's input, TKSUB's values). -/
def State.readOut (s : State) (a : Nat) (r : Resident) (d cols m n : Nat) : FP32 :=
  let v := leNat (s.resBytes a r (rowAddr d cols m) (rowBytes (dFmt d) cols))
  let e := if fmtScaled (dFmt d) then (s.resB a r (scaleAddr d cols m + n / 32)).toNat else 0
  widen (dFmt d) (unpackAt (dFmt d) v n) e

end Sys2Proof.Machine
end

