-- ==== Sys2Proof/Machine/Edge.lean ====
section
/-!
DEFINITION. The grid and the edge unit (03_matrix_arrays.md R70 to R101, 04_array_instructions.md R121 to R130): block
sums, skein sums, the reference lane, the checksum, softmax, statistics and normalization.
-/
namespace Sys2Proof.Machine

/-- The scaled value of element k of stream row m. -/
def SHalf.x (h : SHalf) (m k : Nat) : Val :=
  let d := h.desc.getD 0
  decScaled (dFmt d) (tGet 0 h.elems (m * 512 + k)) (tGet 0 h.scales (m * 16 + k / 32))

/-- The scaled value of W[k][n] of a tile. -/
def Tile.w (t : Tile) (k n : Nat) : Val :=
  decScaled t.fmt (tGet 0 t.elems (n * 512 + k)) (tGet 0 t.scales (n * 16 + k / 32))

/-- Whether the last of the given additions overflowed is kept beside the sum (R54). -/
abbrev AccV := FP32 × Bool

/-- One FP32 addition that also keeps whether any addition so far overflowed. -/
def accAdd (x : AccV) (y : FP32) : AccV :=
  let r := add32 x.1 y
  (r, x.2 || overflowed x.1 y r)

/-- The block sum of row m in column n: sixteen cell passes from the top (R53, R56). -/
def blockSum (h : SHalf) (t : Tile) (m n : Nat) : AccV :=
  let g := if passDepth (dFmt (h.desc.getD 0)) t.fmt = 512 then 32 else 16
  (List.range 16).foldl (fun (s : AccV) r =>
    let v := groupSum ((List.range g).map fun i => (h.x m (r * g + i), t.w (r * g + i) n))
    let o := cellPass s.1 v
    (o, s.2 || ((val32 s.1).isFin && v.isFin && !(val32 o).isFin))) (f32zero, false)

/-- d_b[n]: the exact sum of the row's products with the skein's entries in a column, rounded once (R94). -/
def skeinSum (h : SHalf) (sk : SkTile) (m n : Nat) : FP32 :=
  rne32 (groupSum ((sk.entries.filter fun e => e.1 == n).map fun e => (h.x m e.2.1, fmtBF16.dec e.2.2)))

/-- The reference lane over one checksum vector pair: ref = Σ x_k · v_k and mag = Σ |x_k| · u_k, ascending in k with
one rounding per addition (R97). (DEDUCED; log entry 74) -/
def refLane (h : SHalf) (m kLen : Nat) (sum mag : Tbl FP32) (r0 : FP32 × FP32) : FP32 × FP32 :=
  (List.range kLen).foldl (fun acc k =>
    let x := h.x m k
    (rne32 ((val32 acc.1).add (x.mul (val32 (tGet f32zero sum k)))),
     rne32 ((val32 acc.2).add (x.abs.mul (val32 (tGet f32zero mag k)))))) r0

/-- ref_b and mag_b of a row: the tile's vectors, then the skein's (R97). -/
def refOf (h : SHalf) (t : Tile) (sk : Option SkTile) (m kLen : Nat) : FP32 × FP32 :=
  let r := refLane h m kLen t.sum t.mag (f32zero, f32zero)
  match sk with
  | none => r
  | some k => refLane h m kLen k.sum k.mag r

/-- One level of the comparator's adder tree. -/
def pairUp : List FP32 → List FP32
  | a :: b :: r => add32 a b :: pairUp r
  | xs => xs

/-- The comparator's adder tree: pairs added level by level (R98). -/
def treeSum : Nat → List FP32 → FP32
  | 0, xs => xs.headD f32zero
  | n + 1, xs => treeSum n (pairUp xs)

/-- What the comparator decides of one row. -/
inductive Verdict where
  | pass | fail | unchecked
  deriving DecidableEq, Repr

/-- The check of R98, R99 and R68: |out − ref| ≤ eps (nb + 2) mag + nb 2^−140. -/
def verdict (bf16 : Bool) (nb : Nat) (out ref mag : FP32) : Verdict :=
  let r := val32 ref
  let g := val32 mag
  if !r.isFin || !g.isFin then .unchecked
  else
    let tol := ((g.mul (.fin false (nb + 2) 0)).scale (if bf16 then -16 else -17)).add (.fin false nb (-140))
    let d := ((val32 out).add r.neg).abs
    if (val32 out).isFin && !(tol.lt d) then .pass else .fail

/-- The edge-unit functions of MMA's FUNC field. -/
def edgeFn (f : Nat) (x : FP32) : FP32 :=
  match f with
  | 1 => gelu32 x
  | 2 => silu32 x
  | 3 => exp32 x
  | _ => x

/-- The softmax stage of one row (R90, R123): the weights, and the row's new state. -/
def softmaxRow (st : RowState) (ys : List FP32) : List FP32 × RowState :=
  let mx := ys.foldl max32 st.maxv
  let ws := ys.map fun y => exp32 (sub32 y mx)
  let s0 := mul32 st.sum (if st.maxv = mx then f32one else exp32 (sub32 st.maxv mx))
  (ws, { st with prevMax := st.maxv, maxv := mx, sum := ws.foldl add32 s0 })

/-- The statistics stage of one row (R91): the tile's sum and sum of squares added to the row's. (DEDUCED; log entry 74) -/
def statRow (st : RowState) (ys : List FP32) : RowState :=
  let t := ys.foldl add32 f32zero
  let q := ys.foldl (fun acc y => rne32 ((val32 acc).add ((val32 y).mul (val32 y)))) f32zero
  { st with rsum := add32 st.rsum t, sumsq := add32 st.sumsq q }

/-- The normalization of one value (R130). -/
def normVal (mode cols : Nat) (eps : FP32) (st : RowState) (x : FP32) : FP32 :=
  let c := ofNat32 cols
  match mode with
  | 0 => mul32 x (rsqrt32 (add32 (div32 st.sumsq c) eps))
  | 1 =>
    let mu := div32 st.rsum c
    let v := sub32 (div32 st.sumsq c) (mul32 mu mu)
    let v := if isNan32 v then v else if lt32 v f32zero then f32zero else v
    mul32 (sub32 x mu) (rsqrt32 (add32 v eps))
  | _ => div32 x st.sum

/-- The rescaling factor of a row after a softmax update (R129): 1 when the two maxima are equal. -/
def rescale (st : RowState) : FP32 :=
  if st.prevMax = st.maxv then f32one else exp32 (sub32 st.prevMax st.maxv)

/-! ## Accumulator access -/

/-- The rows' units: unit u holds rows 16u to 16u + 15 (R84). -/
def unitsOf (base rows : Nat) : List Nat := (List.range (cdiv rows 16)).map fun i => base + i

def Arr.accAt (x : Arr) (r n : Nat) : FP32 := tGet f32zero x.acc (r * 256 + n)

/-- One row of accumulators replaced, columns from 0. -/
def Arr.setAccRow (x : Arr) (r : Nat) (ys : List FP32) : Arr :=
  { x with acc := (applyAll (fun (p : Tbl FP32 × Nat) y => (tSet f32zero p.1 (r * 256 + p.2) y, p.2 + 1))
      (x.acc, 0) ys).1 }

/-- What a row's last block leads to: the written row and what it changes. -/
structure RowOut where
  arr      : Arr := {}
  mismatch : Nat := 0
  numfault : Nat := 0
  overflow : Bool := false
  outs     : List FP32 := []
  deriving Repr

/-- Accumulating one block's sums into row r (R56, R94, R97, R122): the stages up to the skein add. -/
def Arr.accumulate (x : Arr) (r : Nat) (first : Bool) (s : List FP32) (d : Option (List FP32)) (rb mb : FP32) :
    Arr × Bool :=
  let old := (List.range s.length).map fun n => if first then f32zero else x.accAt r n
  let a1 : List AccV := (old.zip s).map fun (p : FP32 × FP32) => accAdd (p.1, false) p.2
  let a2 : List AccV := match d with
    | none => a1
    | some ds => (a1.zip ds).map fun (p : AccV × FP32) => accAdd p.1 p.2
  let z (t : Tbl FP32) : FP32 := if first then f32zero else tGet f32zero t r
  let nb := if first then 0 else tGet 0 x.nb r
  let x := x.setAccRow r (a2.map (·.1))
  ({ x with
      ref := tSet f32zero x.ref r (add32 (z x.ref) rb)
      mag := tSet f32zero x.mag r (add32 (z x.mag) mb)
      nb := tSet 0 x.nb r (nb + 1) }, a2.any (·.2))

/-- The final stages of row r but conversion and routing (R88, R122): checksum over n columns, bias, function, softmax,
statistics.  `key` is the row's state. -/
def Arr.finish (x : Arr) (r n key : Nat) (bf16 : Bool) (w : Nat) (bias : List FP32) : RowOut :=
  let accs := (List.range n).map fun c => x.accAt r c
  let v := verdict bf16 (tGet 0 x.nb r) (treeSum 8 accs) (tGet f32zero x.ref r) (tGet f32zero x.mag r)
  let b : List AccV := if mBias w then (accs.zip bias).map fun (p : FP32 × FP32) => accAdd (p.1, false) p.2
    else accs.map fun a => (a, false)
  let ys := b.map fun p => edgeFn (mFunc w) p.1
  let st := tGet {} x.rows key
  let (ys, st) := if mSmax w then softmaxRow st ys else (ys, st)
  let st := if mStat w then statRow st ys else st
  { arr := { x with rows := tSet {} x.rows key st }
    mismatch := if v = .fail then 1 else 0
    numfault := if v = .unchecked then 1 else 0
    overflow := b.any (·.2)
    outs := ys }

end Sys2Proof.Machine
end

