-- ==== Sys2Proof/Machine/Bundles.lean ====
section
/-!
DEFINITION. What ends words on an array: bundle status words, run-time outcomes and the abandon command
(04_array_instructions.md R109, R136 to R141; 03_matrix_arrays.md R78).
-/
namespace Sys2Proof.Machine

/-- The bundle status word (R137); CYCLES is a free value, because the model keeps no cycle count (DESIGN CHOICE; log entry 3). -/
def Bundle.statusWord (b : Bundle) (cycles : Nat) : Nat :=
  packFields [(32, hId b.header), (16, hEpoch b.header), (8, hCourse b.header), (8, b.status), (8, b.word),
    (16, sat 16 b.mismatch), (16, sat 16 b.numfault), (1, b2n b.overflow), (23, cycles)]

/-- A bundle's status posted to the mailbox its header names; outcomes other than COMPLETE and CHECKSUM_MISMATCH count as
instruction faults of the array (R109, R139). -/
def State.postStatus (s : State) (a : Nat) (b : Bundle) : State :=
  let s := if b.status = stCOMPLETE ∨ b.status = stCHECKSUM then s else s.addO (Od.arrayInstrFaultCount a) 1
  s.took.post (hCore b.header) (hMbox b.header) 0x01 (b.statusWord (s.freeV 23))

/-- Whether a word belongs to a resident and epoch. -/
def QWord.mine (q : QWord) (r ep : Nat) : Bool := q.res == r && q.epoch == ep

/-- Everything of a resident and epoch leaves the array: issued, queued and loading words, shadow, halves, skein halves,
accumulator units and top-k jobs (R78, R139, R141). -/
def Arr.clearEpoch (x : Arr) (r ep : Nat) : Arr :=
  let half (h : SHalf) : SHalf := if h.desc.isSome && h.res == r && h.epoch == ep then {} else h
  let sk (h : SkHalf) : SkHalf := if !h.tiles.isEmpty && h.res == r && h.epoch == ep then {} else h
  { x with
    loadQ := x.loadQ.filter fun q => !q.mine r ep
    compQ := x.compQ.filter fun q => !q.mine r ep
    issued := x.issued.filter fun i => !i.q.mine r ep
    fetch := match x.fetch with
      | some f => if f.q.mine r ep then none else some f
      | none => none
    shadow := match x.shadow with
      | some t => if t.res == r && t.epoch == ep then none else some t
      | none => none
    half0 := half x.half0, half1 := half x.half1, sk0 := sk x.sk0, sk1 := sk x.sk1
    units := tDrop (fun u => let y : AccUnit := tGet {} x.units u; y.res == r && y.epoch == ep) x.units
    topk := tMap none x.topk fun _ j => match j with
      | some t => if t.q.mine r ep then none else some t
      | none => none }

/-- An abandon of an epoch ends its dice jobs on the array and discards its mask frames (R317, R349). -/
def State.dropDraws (s : State) (a r ep : Nat) : State :=
  let d := s.die_ (a / 4)
  let mine (j : DiceJob) : Bool := bits j.word 245 244 == r && bits j.word 239 224 == ep
  let s := s.setDice (a / 4) { d with queues := tSet [] d.queues (a % 4) ((tGet [] d.queues (a % 4)).filter fun j => !mine j) }
  { s with masks := s.masks.filter fun m => !(4 * m.dice + m.eng == a && m.res == r && m.epoch == ep) }

/-- The abandon command (R141): everything of the epoch clears and its accepted bundles post ABANDONED; an epoch with no
word on the array has no other effect. -/
def State.abandonArr (s : State) (a r ep : Nat) : State :=
  let x := s.arr a
  let mine (b : Bundle) : Bool := hRes b.header == r && hEpoch b.header == ep
  let bs := x.bundles.filter mine
  let x := x.clearEpoch r ep
  let s := s.setArr a { x with bundles := x.bundles.filter fun b => !mine b
                               stop := x.stop.filter fun k => k != r * 65536 + ep }
  (applyAll (fun s b => s.postStatus a { b with status := stABANDONED }) s bs).dropDraws a r ep

/-- A run-time outcome other than CHECKSUM_MISMATCH ends a bundle at once (R139): its resident and epoch issue nothing more, its
words clear, and the status is posted. -/
def State.endBundle (s : State) (a key code word : Nat) : State :=
  let x := s.arr a
  match x.bundles.find? fun b => b.key == key with
  | none => s
  | some b =>
    let x := x.clearEpoch (hRes b.header) (hEpoch b.header)
    let s := s.setArr a { x with bundles := x.bundles.filter fun c => c.key != key
                                 stop := (hRes b.header * 65536 + hEpoch b.header) :: x.stop }
    s.postStatus a { b with status := code, word := word }

end Sys2Proof.Machine
end

