-- ==== Sys2Proof/Machine/Out.lean ====
section
/-!
DEFINITION. Request buffers and what the module sends (15_request_port_and_buffers.md R459, R470 to R481;
16_host_pool_and_peer_links.md R494 to R497).
-/
namespace Sys2Proof.Machine

/-! ## Buffers (R478 to R480) -/

def State.buf (s : State) (b : Nat) : Buf := tGet {} s.bufs b
def State.setBuf (s : State) (b : Nat) (x : Buf) : State := { s with bufs := tSet {} s.bufs b x }

/-- A handle: GEN, OWNER, INDEX (R478). -/
def handleOf (b : Nat) (x : Buf) : Nat := packFields [(8, x.gen), (8, x.owner), (16, b)]

/-- The first FREE buffer at or after index k among the next n. -/
def State.firstFree (s : State) : Nat → Nat → Option Nat
  | 0, _ => none
  | n + 1, k => if (s.buf k).state = 0 then some k else s.firstFree n (k + 1)

/-- The lowest FREE index of a die, else of the other die (R480). -/
def State.freeBufOf (s : State) (die : Nat) : Option Nat :=
  match s.firstFree 32768 (32768 * die) with
  | some b => some b
  | none => s.firstFree 32768 (32768 * (1 - die))

/-- A buffer taken and HELD for a tenant's use. -/
def State.takeBuf (s : State) (die tenant req : Nat) : Option (State × Nat) :=
  match s.freeBufOf die with
  | none => none
  | some b =>
    let s := s.setBuf b { state := 1, owner := tenant, gen := (s.buf b).gen, req := req }
    some ((s.addO (Od.bufUsed tenant) 1).subO Od.buffersFree 1, b)

/-- n buffers taken, or none. -/
def takeBufs (die tenant req : Nat) : Nat → State → Option (State × List Nat)
  | 0, s => some (s, [])
  | n + 1, s =>
    match s.takeBuf die tenant req with
    | none => none
    | some (s, b) => match takeBufs die tenant req n s with
      | none => none
      | some (s, bs) => some (s, b :: bs)

/-- A function of the PCIe port. -/
def State.fn (s : State) (f : Nat) : Fn := tGet {} s.pcie.fns f
def State.setFn (s : State) (f : Nat) (x : Fn) : State :=
  { s with pcie := { s.pcie with fns := tSet {} s.pcie.fns f x } }

/-- A buffer becomes FREE, its generation advances from 255 to 1, its output slot with it (R478, R496). -/
def State.freeBuf (s : State) (b : Nat) : State :=
  let x := s.buf b
  if x.state = 0 then s else
  let s := match x.slot with
    | some k => s.setFn x.owner { s.fn x.owner with slots := (s.fn x.owner).slots.filter fun j => j != k }
    | none => s
  let s := (s.subO (Od.bufUsed x.owner) 1).addO Od.buffersFree 1
  let s := if x.state = 2 then s.subO (Od.bufReleased x.owner) 1 else s
  s.setBuf b { gen := if x.gen = 255 then 1 else x.gen + 1 }

/-- A HELD output buffer is sealed: RELEASED to its owner (R474, R479). -/
def State.sealBuf (s : State) (b : Nat) : State :=
  let x := s.buf b
  if x.state != 1 then s else
  (s.setBuf b { x with state := 2, rel := s.beat }).addO (Od.bufReleased x.owner) 1

/-! ## Messages (R459, R470, R494, R495) -/

/-- Entries in a completion ring that the host has not read; indices carry a wrap bit at bit 16 (R489, R495). -/
def Fn.cplUsed (f : Fn) : Nat :=
  if f.cplTail / 65536 = f.cplHead / 65536 then f.cplTail - f.cplHead
  else 2 ^ f.cplLog + f.cplTail % 65536 - f.cplHead % 65536

/-- The index after CPL_TAIL. -/
def Fn.cplNext (f : Fn) : Nat :=
  if f.cplTail % 65536 + 1 < 2 ^ f.cplLog then f.cplTail + 1 else (1 - f.cplTail / 65536) * 65536

/-- An entry written to a ring with room: its phase is 1 in the first pass; MSI-X vector 0 signals it; the bytes of a DATA message go
to their slot of the output area (R494, R495, R496). -/
def State.putEntry (s : State) (m : Msg) : State :=
  let f := s.fn m.tenant
  let irq := f.coalesce = 0 ∨ f.coalesce ≤ f.sinceIrq + 1
  let g := { f with cplTail := f.cplNext
                    msix0 := if irq then f.msix0 + 1 else f.msix0, sinceIrq := if irq then 0 else f.sinceIrq + 1 }
  let data := m.typ == 0x82 && !m.payload.isEmpty
  let m := { m with phase := f.cplTail < 65536, entryAt := f.cplBase + 64 * (f.cplTail % 65536)
                    dataAt := if data then f.outBase + 4096 * m.slot + m.off else 0 }
  { s.setFn m.tenant g with tx := m :: s.tx }

/-- The bytes of a completion entry, little-endian (R494). -/
def Msg.entry (m : Msg) : List Byte :=
  let p := m.payload
  let body := if m.typ = 0x82 then [(32, m.seq), (32, m.handle), (16, m.slot), (16, m.off), (16, p.length), (8, m.kind), (1, b2n m.last), (279, 0)]
    else if m.typ = 0x83 then [(256, beAt p 0 32), (32, beAt p 32 4), (112, 0)]
    else [(128, beAt p 0 16), (272, 0)]
  leBytes 64 (packFields ([(1, b2n m.phase), (1, b2n m.dup), (6, 0), (8, m.typ), (32, m.id), (64, m.path.cookie)] ++ body))

/-- The header and the payload of a message as they stand on Ethernet (R459). -/
def Msg.body (m : Msg) : List Byte :=
  beBytes 32 (packFields [(16, 0x5638), (8, 1), (8, m.typ), (8, m.tenant), (4, 0), (1, m.path.key), (1, b2n m.dup), (2, 0),
    (16, m.payload.length), (32, m.id), (16, 0), (16, 0), (32, m.seq), (32, m.handle), (16, m.off), (8, m.kind), (1, b2n m.last), (39, 0)]) ++
  m.payload

/-- A message signed with the key in force in the key slot of what it answers (R461, R462). -/
def State.signed (s : State) (m : Msg) : Msg :=
  { m with mac := hmac256 (s.o (if m.path.key = 0 then Od.key0 m.tenant else Od.key1 m.tenant)) m.body }

/-- The bytes of the UDP payload: header, payload and trailer (R459, R461). -/
def Msg.bytes (m : Msg) : List Byte := m.body ++ beBytes 32 m.mac

/-- A message leaves: from an Ethernet port that can send, or as a completion entry of the tenant's function, which waits
when the ring is full (R497). -/
def State.sendMsg (s : State) (m : Msg) : State :=
  if m.path.port < 2 then
    if s.pdOn 89 then ({ s with tx := s.signed m :: s.tx }).addO Od.messagesSent 1 else s
  else
    let f := s.fn m.tenant
    if !f.enable then s
    else if f.waitQ.isEmpty && decide (f.cplUsed < 2 ^ f.cplLog) then s.putEntry m
    else
      s.setFn m.tenant { f with waitQ := f.waitQ ++ [m], stalled := true,
                                msix1 := if f.stalled then f.msix1 else f.msix1 + 1 }

def State.req (s : State) (r : Nat) : Req := tGet {} s.reqs r
def State.setReq (s : State) (r : Nat) (x : Req) : State := { s with reqs := tIns r x s.reqs }
def State.hasReq (s : State) (r : Nat) : Bool := tHas s.reqs r

/-- The identifier window of a tenant. -/
def State.idWin (s : State) (t : Nat) : IdWin := tGet {} s.idWins t
def State.setIdWin (s : State) (t : Nat) (w : IdWin) : State := { s with idWins := tSet {} s.idWins t w }

/-- A NOTICE (R475) to the source of the message it answers. -/
def State.notice (s : State) (path : RetPath) (tenant id kind detail freed stale foreign busy first : Nat) : State :=
  s.sendMsg { path := { path with shift := 13, cookie := 0 }, typ := 0x84, tenant := tenant, id := id
              payload := beBytes 16 (packFields [(8, kind), (8, detail), (16, freed), (16, stale), (16, foreign), (16, busy),
                (32, first), (16, 0)]) }

/-! ## Output (R471 to R474, R480, R496) -/

/-- Whether a request may take an output buffer (R480), and on the rings an output slot (R496). -/
def State.mayOutput (s : State) (x : Req) : Bool :=
  decide (s.o (Od.bufUsed x.tenant) < s.o (Od.bufQuota x.tenant)) && decide (s.o Od.bufReserve < s.o Od.buffersFree)

/-- The lowest free slot of a function's output area. -/
def Fn.freeSlot (f : Fn) : Option Nat := (List.range (2 ^ f.outLog)).find? fun k => !f.slots.contains k

/-- A new output buffer for a kind becomes the request's current buffer; none while output must wait. -/
def State.newOut (s : State) (r kind : Nat) : Option State :=
  let x := s.req r
  if !s.mayOutput x then none else
  let ring := x.path.port = 2
  let slot := if ring then (s.fn x.tenant).freeSlot else none
  if ring ∧ slot = none then none else
  match s.takeBuf 0 x.tenant r with
  | none => none
  | some (s, b) =>
    let s := match slot with
      | some k => s.setFn x.tenant { s.fn x.tenant with slots := k :: (s.fn x.tenant).slots }
      | none => s
    let s := s.setBuf b { s.buf b with slot := slot }
    let x := s.req r
    some (s.setReq r { x with current := tIns kind (some b) x.current, outBufs := b :: x.outBufs })

/-- One DATA message of the next piece of waiting output; none when it must wait for a buffer or a slot. -/
def State.emitOne (s : State) (r : Nat) : Option State :=
  let x := s.req r
  match x.waitOut with
  | [] => none
  | (kind, sz, bs) :: rest =>
    if bs.isEmpty then some (s.setReq r { x with waitOut := rest }) else
    let room (b : Nat) : Nat := min (min (4096 - (s.buf b).used) (2 ^ x.path.shift)) bs.length / sz * sz
    match tGet none x.current kind with
    | none => s.newOut r kind
    | some b =>
      let n := room b
      if n = 0 then
        (s.sealBuf b).newOut r kind
      else
        let y := s.buf b
        let rest := if bs.length = n then rest else (kind, sz, bs.drop n) :: rest
        let last := x.outEnd && rest.isEmpty
        let m : Msg := { path := x.path, typ := 0x82, tenant := x.tenant, id := x.id, seq := x.dataSeq,
                         handle := handleOf b y, off := y.used, kind := kind, last := last, slot := y.slot.getD 0
                         payload := bs.take n }
        let s := s.setBuf b { y with used := y.used + n, msgs := y.msgs ++ [m] }
        let s := if y.used + n = 4096 then s.sealBuf b else s
        let cur := if y.used + n = 4096 then tIns kind none x.current else x.current
        let s := s.setReq r { x with waitOut := rest, dataSeq := x.dataSeq + 1, current := cur, lastSent := last,
                                     firstBeat := if kind = 2 then x.firstBeat else x.firstBeat.or (some s.beat) }
        some (s.sendMsg m)

/-- All of a request's waiting output that buffers and slots allow. -/
def flushOut : Nat → State → Nat → State
  | 0, s, _ => s
  | n + 1, s, r =>
    match s.emitOne r with
    | some s => flushOut n s r
    | none =>
      let x := s.req r
      if x.waitOut.isEmpty then s.setReq r { x with outWait := false }
      else
        let s := if x.outWait || x.path.port != 2 then s else s.addO Od.outSlotWaits 1
        s.setReq r { s.req r with outWait := true }

/-- Output of a kind, in records of sz bytes; `fin` marks the request's last (R471, R473). -/
def State.emit (s : State) (r kind sz : Nat) (bs : List Byte) (fin : Bool) : State :=
  let x := s.req r
  let s := s.setReq r { x with waitOut := x.waitOut ++ [(kind, sz, bs)], outEnd := x.outEnd || fin }
  flushOut (2 * bs.length + 2 * x.waitOut.length + 8) s r

/-- The request's output of a kind has ended: its current buffer is sealed (R474). -/
def State.endKind (s : State) (r kind : Nat) : State :=
  let x := s.req r
  match tGet none x.current kind with
  | some b => (s.sealBuf b).setReq r { x with current := tIns kind none x.current }
  | none => s

/-- Every current buffer of a request is sealed. -/
def State.sealAll (s : State) (r : Nat) : State :=
  applyAll (fun s (e : Nat × Option Nat) => s.endKind r e.1) s (s.req r).current

end Sys2Proof.Machine
end

