-- ==== Sys2Proof/Machine/Requests.lean ====
section
/-!
DEFINITION. Requests: key-value pages and their reservations, completion and release (06_memory_tiers.md R198;
08_admission_and_deadlines.md R265 to R271; 09_generation.md R281, R295; 15_request_port_and_buffers.md R471).
-/
namespace Sys2Proof.Machine

/-! ## Key-value pages: eight to a HOME page of one tenant (R198) -/

/-- The global page and the eighth of a key-value page. -/
def kvPageOf (k : Nat) : Nat := k / 8
def kvBase (k : Nat) : Nat := k % 8 * 2 ^ 18

/-- The lowest eighth free in a mask of used eighths. -/
def freeEighth (m : Nat) : Option Nat := (List.range 8).find? fun i => !bitAt m i

/-- A key-value page of a tenant on a die: first in the tenant's partly filled pages there, then in a new page. -/
def State.kvAlloc (s : State) (d tenant slice : Nat) : Option (State × Nat) :=
  let part := s.mem.pages.find? fun e => e.2.cls == cHOME && e.2.owner == tenant && e.2.use.kind == 5 &&
    e.1 / 49152 == d && (freeEighth e.2.use.obj).isSome
  match part with
  | some (p, x) =>
    match freeEighth x.use.obj with
    | some i => some (s.setPage p { x with use := { x.use with obj := setBitTo x.use.obj i true } }, 8 * p + i)
    | none => none
  | none =>
    match s.takePage d cHOME tenant slice ⟨5, 1, 0⟩ with
    | some (s, p) => some (s, 8 * p)
    | none => none

/-- A key-value page released; the stack page returns to FREE with its last one (R198). -/
def State.kvFree (s : State) (k : Nat) : State :=
  let p := kvPageOf k
  let x := s.page p
  if x.use.kind != 5 || x.cls != cHOME then s else
  let m := setBitTo x.use.obj (k % 8) false
  if m = 0 then s.freePage p
  else
    let s := { s with mem := { s.mem with stack := tDrop (fun j => j / 2 ^ 18 == k) s.mem.stack } }
    s.setPage p { s.page p with use := { x.use with obj := m }, pub := setBitTo x.pub (k % 8) false }

/-- Key-value pages a request holds of its own: its sequence's unpublished pages and its feature pages. -/
def State.kvHeld (s : State) (r : Nat) : Nat :=
  let x := s.req r
  x.featPages.length + match x.seqE with
    | some q => let y := tGet {} s.seqs q
      (y.kv.filter fun e => !bitAt (s.page (kvPageOf e.2)).pub (e.2 % 8)).length + (if y.propPage.isSome then 1 else 0)
    | none => 0

/-- Stack pages a tenant has in use or promised (R198, R281). -/
def State.stackPromised (s : State) (t : Nat) : Nat :=
  s.o (Od.stackUsed t) + (s.reqs.map fun e =>
    if e.2.tenant == t && decide (e.2.state = 2) then cdiv e.2.kvResv 8 - cdiv (s.kvHeld e.1) 8 else 0).sum

/-! ## Ranks (R227) -/

/-- Interactive classes above bulk classes, then by priority. -/
def ClassVal.bulk (c : ClassVal) : Bool := bitAt c.flags 0
def ClassVal.rank (c : ClassVal) : Nat := (if c.bulk then 0 else 16) + c.prio

/-! ## Ladders (R248 to R250) -/

/-- Entry L of a ladder value (OCTETS(16)). -/
def ladEntry (v l : Nat) : Nat := octElem v 16 4 l
def ladAction (e : Nat) : Nat := bits e 31 28
def ladModel (e : Nat) : Nat := bits e 27 22
def ladParam (e : Nat) : Nat := bits e 15 0

/-- The levels of a ladder: up to its first ABSENT entry. -/
def ladLen (v : Nat) : Nat := ((List.range 4).takeWhile fun l => ladAction (ladEntry v l) != 0).length

/-- The models an entry names: its own under MODEL and DRAFT_ALONE, and the draft of a speculative GENERATE level. -/
def ladModels (stage e : Nat) : List Nat :=
  (if ladAction e = 1 ∨ ladAction e = 3 then [ladModel e] else []) ++
    (if stage = 3 ∧ ladAction e = 1 ∧ bitAt (ladParam e) 15 then [ladParam e % 64] else [])

/-- Whether level L of a stage's ladder is usable: every model it names is READY. -/
def State.usable (s : State) (stage v l : Nat) : Bool :=
  decide (l < ladLen v) && (ladModels stage (ladEntry v l)).all fun m => s.o (Od.modelState m) == 3

/-- The lowest-numbered usable level at or after one. -/
def State.usableFrom (s : State) (stage v l : Nat) : Option Nat :=
  (List.range 4).find? fun i => decide (l ≤ i) && s.usable stage v i

/-- The stages with ladders that a kind performs: 0 ENCODE, 1 SEARCH, 2 RERANK, 3 GENERATE (R24). -/
def stagesOf (kind : Nat) : List Nat :=
  match kind with
  | 1 => [0]
  | 2 => [0, 1]
  | 3 => [0, 1, 2]
  | 4 => [0, 1, 2, 3]
  | 5 => [0, 1]
  | _ => []

/-- The entry of a request's current level of a stage. -/
def Req.entry (x : Req) (stage : Nat) : Nat := ladEntry (x.cls.ladders.getD stage 0) (x.levels.getD stage 0)

/-- The model a request's stage runs now: for SEARCH under NPROBE_CAP, that of the nearest MODEL level above (R249). -/
def Req.modelOf (x : Req) (stage : Nat) : Option Nat :=
  let v := x.cls.ladders.getD stage 0
  let l := x.levels.getD stage 0
  let e := ladEntry v l
  if ladAction e = 1 ∨ ladAction e = 3 then some (ladModel e)
  else if ladAction e = 4 then
    ((List.range l).reverse.find? fun i => ladAction (ladEntry v i) == 1).map fun i => ladModel (ladEntry v i)
  else none

/-- nprobe at the request's level (R249, R398). -/
def Req.nprobeNow (x : Req) : Nat :=
  let e := x.entry 1
  if ladAction e = 4 then min x.head.nprobe (ladParam e / 16) else x.head.nprobe

/-- The feature set in force for a request's re-ranking model now (R435, R446). -/
def Req.fset (x : Req) : FsetVal := match x.modelOf 2 with
  | some m => tGet {} x.fsets m
  | none => {}

/-- Bytes of a pooled vector of a feature (R436, R438), from the table in force. -/
def State.featBytes (s : State) (f : Nat) : Nat :=
  let x : TableSlot := tGet {} s.tables (bits f 127 122)
  ((x.cur.map (·.dim)).getD 0) * (if bitAt f 117 then 4 else 2)

/-- Bytes of a candidate's block in the feature pages, and candidates to a page (R438). -/
def State.featBlock (s : State) (x : Req) : Nat := 256 * cdiv ((x.fset.feats.map fun f => 16 * cdiv (s.featBytes f) 16).sum) 256
def State.featPer (s : State) (x : Req) : Nat := max 1 (2 ^ 18 / max 1 (s.featBlock x))

/-! ## Completion (R255, R256, R266 to R271) -/

/-- The admission response (R255). -/
def respBytes (resp reason beats : Nat) (x : Req) : List Byte :=
  beBytes 16 (packFields [(8, resp), (8, reason), (16, sat 16 beats), (32, x.id), (8, x.tenant), (6, x.head.cls),
    (2, x.ingress), (48, x.beat)])

/-- The energy estimate in mJ with 8 fractional bits (R269, R271). -/
def energyBits (e : FP32) : Nat := match (val32 e).scale 8 with
  | .fin _ m x => sat 32 (if 0 ≤ x then m * 2 ^ x.toNat else m / 2 ^ (-x).toNat)
  | _ => 2 ^ 32 - 1

/-- CANCEL_TOO_LATE (R269): the final commit came before the cancel. -/
def Req.cancelLate (x : Req) (code : Nat) : Bool :=
  match x.cancel, x.final with
  | some c, some f => decide (code ≤ 1) && decide (f.1 < c.1 ∨ (f.1 = c.1 ∧ f.2 < c.2))
  | _, _ => false

/-- Beats from acceptance to the first output, all ones when there was none (R269). -/
def Req.firstAfter (x : Req) : Nat :=
  match x.firstBeat with
  | some b => b - x.beat
  | none => 2 ^ 32 - 1

/-- The completion record (R269). -/
def compBits (x : Req) (code now retry detail : Nat) : Nat :=
  let per (st : Nat) : Nat := if (stagesOf x.head.kind).contains st then x.levels.getD st 0 else 0
  packFields [(8, code), (1, b2n x.firstMiss), (1, b2n x.rowsMissing),
    (1, b2n (x.cancelLate code)),
    (1, b2n x.numfault), (1, b2n x.replayed), (1, b2n x.low), (2, 0),
    (2, per 0), (2, per 1), (2, per 2), (2, per 3), (8, x.tenant), (32, x.id), (6, x.head.cls), (26, 0),
    (32, sat 32 (now - x.beat)), (32, x.firstAfter),
    (32, energyBits x.energy), (32, x.results), (16, sat 16 retry), (8, detail), (8, 0)]

/-- What the identifier window keeps of a request (R466). -/
def State.idRec (s : State) (t id : Nat) (f : IdRec → IdRec) : State :=
  let w := s.idWin t
  if tHas w.recs id then s.setIdWin t { w with recs := tIns id (f (tGet {} w.recs id)) w.recs } else s

/-- The admission response sent and kept. -/
def State.respond (s : State) (r resp reason beats : Nat) : State :=
  let x := s.req r
  let b := respBytes resp reason beats x
  let s := s.idRec x.tenant x.id fun w => { w with path := x.path, resp := some b }
  s.sendMsg { path := x.path, typ := 0x81, tenant := x.tenant, id := x.id, payload := b }

/-- One reference less of each of a request's bindings (R243, R268, R334, R348, R437, R450). -/
def State.unbind (s : State) (r : Nat) : State :=
  let x := s.req r
  let s := applyAll (fun s (k : Nat × Nat × Nat) => s.subO (Od.skeinRefs k.2.1) 1) s x.skeins
  let s := applyAll (fun s v => s.subO (Od.vocabRefs v) 1) s x.vocabs
  let s := match x.gram with
    | some g => s.subO (Od.grammarRefs g) 1
    | none => s
  let s := match x.tmpl with
    | some t => s.subO (Od.templateRefs t) 1
    | none => s
  applyAll (fun s t => s.subO (Od.tableRefs t) 1) s x.tables

/-- A sequence entry freed: its own pages and references released (R273, R295). -/
def State.freeSeq (s : State) (q : Nat) : State :=
  let y := tGet {} s.seqs q
  let s := applyAll (fun s (e : Nat × Nat) =>
    if bitAt (s.page (kvPageOf e.2)).pub (e.2 % 8) then s else s.kvFree e.2) s y.kv
  let s := match y.propPage with
    | some k => s.kvFree k
    | none => s
  let s := applyAll (fun (s : State) p =>
    let e : Prefix := tGet {} s.prefixes p
    if tHas s.prefixes p then { s with prefixes := tIns p { e with refs := e.refs - 1 } s.prefixes } else s) s y.prefixes
  let s := s.subO Od.seqUsed (b2n (y.state != 0))
  { s with seqs := tDel q s.seqs }

/-- Everything a request holds is given back (R268, R479). -/
def State.release (s : State) (r : Nat) : State :=
  let x := s.req r
  let s := applyAll State.freeBuf s x.bufs
  let s := applyAll State.freeBuf s (x.cands.flatMap fun c => c.bufs)
  let s := applyAll (fun s (e : Nat × Nat) => s.kvFree e.2) s x.featPages
  if x.state != 2 then s else
  let s := match x.seqE with
    | some q => s.freeSeq q
    | none => s
  let s := s.unbind r
  let s := s.subO (Od.kvReserved x.tenant) x.kvResv
  let s := (s.subO (Od.inflightUsed x.tenant) 1).subO (Od.classInflight x.head.cls) 1
  s.subO Od.inflight 1

/-- The completion sent: a closing DATA message when the last one with bytes did not carry LAST, then the COMPLETION; the request
leaves the module (R256, R269, R471).  A request whose rings are reset is completed without delivery (R498). -/
def State.complete (s : State) (r code retry detail : Nat) (deliver : Bool) : State :=
  if !s.hasReq r then s else
  let x := s.req r
  let s := s.sealAll r
  let close := x.dataSeq != 0 && !x.lastSent
  let s := if close && deliver then s.sendMsg { path := x.path, typ := 0x82, tenant := x.tenant, id := x.id, seq := x.dataSeq,
                                                 last := true } else s
  let rec_ := compBits x code s.beat retry detail
  let pay := beBytes 32 rec_ ++ beBytes 16 ((x.dataSeq + b2n close) * 2 ^ 96)
  let s := s.idRec x.tenant x.id fun w => { w with path := x.path, comp := some pay }
  let s := if deliver then s.sendMsg { path := x.path, typ := 0x83, tenant := x.tenant, id := x.id, payload := pay } else s
  let s := if code = 0x0A then s.addO (Od.deadlineMisses x.head.cls) 1 else s
  let s := if x.firstMiss then s.addO (Od.firstMisses x.head.cls) 1 else s
  let s := s.release r
  let s := if x.state = 1 then s.subO Od.deferHeld 1 else s
  { s with
      reqs := tDel r s.reqs
      gate := { s.gate with waiting := s.gate.waiting.filter fun q => q != r, deferq := s.gate.deferq.filter fun q => q != r } }

/-- DONE or DONE_DEGRADED (R270). -/
def Req.doneCode' (x : Req) : Nat :=
  if x.low || x.rowsMissing || (stagesOf x.head.kind).any fun st => x.levels.getD st 0 != 0 then 1 else 0

/-- Every stage has completed: the completion follows the last output message, which may still wait for a buffer. (DEDUCED; log entry 49) -/
def State.finishReq (s : State) (r : Nat) : State :=
  if !s.hasReq r then s else
  let x := s.req r
  let s := s.setReq r { x with outEnd := true, final := x.final.or (some (s.beat, s.o Od.ingressSequence)) }
  if x.waitOut.isEmpty then s.complete r (s.req r).doneCode' 0 0 true
  else s.setReq r { s.req r with doneCode := some x.doneCode' }

/-- Output that waited for buffers goes on, and completions that waited for it follow (R480). -/
def State.pumpOutput (s : State) : State :=
  applyAll (fun s (e : Nat × Req) =>
    if e.2.waitOut.isEmpty then s else
    let s := flushOut (2 * (e.2.waitOut.map fun p => p.2.2.length).sum + 2 * e.2.waitOut.length + 8) s e.1
    let x := s.req e.1
    match x.doneCode with
    | some c => if x.waitOut.isEmpty then s.complete e.1 c 0 0 true else s
    | none => s) s s.reqs

/-! ## Append outcomes (R374, R379, R473) -/

def State.setItem (s : State) (r i : Nat) (f : Item → Item) : State :=
  let x := s.req r
  s.setReq r { x with items := x.items.set i (f (x.items.getD i {})) }

/-- The 8 bytes of one item. -/
def Item.bytes (it : Item) (outcome : Nat) : List Byte :=
  beBytes 8 (packFields [(48, if it.appended then it.entry else 0), (8, outcome), (8, 0)])

/-- Outcomes leave in item order as they become known; with `ending`, the rest leave as NOT_REACHED. -/
def State.emitOutcomes (s : State) (r : Nat) (ending : Bool) : State :=
  let x := s.req r
  let out := (x.items.dropWhile (·.sent)).takeWhile fun it => ending || it.outcome.isSome
  let n := (x.items.takeWhile (·.sent)).length
  let bs := out.flatMap fun it => it.bytes (it.outcome.getD 0xFF)
  let items := (x.items.zip (List.range x.items.length)).map fun p =>
    if n ≤ p.2 ∧ p.2 < n + out.length then { p.1 with sent := true } else p.1
  let s := s.setReq r { x with items := items, results := (items.filter (·.appended)).length }
  if bs.isEmpty then s else s.emit r 7 8 bs (ending || items.all (·.sent))

/-- The outcomes known so far are sent, and the request is done with its last. -/
def State.pumpOutcomes (s : State) (r : Nat) : State :=
  if !s.hasReq r || (s.req r).items.isEmpty then s else
  let s := s.emitOutcomes r false
  if (s.req r).items.all (·.sent) then s.finishReq r else s

/-! ## Slots and streamed text (R184, R298, R340) -/

/-- The object number of the pages of a slot's load: the slot and the load. -/
def slotObj (slot gen : Nat) : Nat := 64 * gen + slot

def State.vslot (s : State) (v : Nat) : VSlot := tGet {} s.vocabs v
def State.setVslot (s : State) (v : Nat) (x : VSlot) : State := { s with vocabs := tSet {} s.vocabs v x }
/-- A read of n bytes of a slot's image: heat of the pages and of the TIERED granules it takes bytes from. -/
def State.readSlot (s : State) (kind obj off n : Nat) : State :=
  let ps := s.pagesOf kind obj
  applyAll (fun s i =>
    match ps[i / 32]? with
    | some p =>
      let sl := (s.page p).target
      let s := match s.tieredIn sl p (i % 32) with
        | some g => s.touchGran g
        | none => s
      s.touchPage p (i % 32)
    | none => s) s ((List.range ((off + n - 1) / 65536 + 1 - off / 65536)).map fun i => off / 65536 + i)

/-- An inverse-table record (R330): its string and SPECIAL. -/
def Vocab.inv (v : Vocab) (t : Nat) : Nat := leAt v.image (v.invOff + 8 * t) 8
def invSpecial (r : Nat) : Bool := bitAt r 23
def Vocab.str (v : Vocab) (t : Nat) : List Byte :=
  let r := v.inv t
  sliceB v.image (v.strOff + bits r 63 32) (bits r 31 24)

/-- Bytes at the end of a text that begin a UTF-8 character not yet complete (R298). -/
def utf8Held (bs : List Byte) : Nat :=
  let r := (bs.reverse.take 3).map BitVec.toNat
  match r.findIdx? fun b => decide (0xC0 ≤ b) with
  | none => 0
  | some i =>
    let lead := r.getD i 0
    let size := if lead < 0xE0 then 2 else if lead < 0xF0 then 3 else if lead < 0xF8 then 4 else 1
    if (r.take i).all (fun b => decide (0x80 ≤ b)) && decide (i + 1 < size) then i + 1 else 0

/-- The bytes of a committed token: a SPECIAL entry has none (R340). -/
def Vocab.detok (v : Vocab) (t : Nat) : List Byte := if invSpecial (v.inv t) then [] else v.str t

/-- The first commit of a sequence not yet streamed is detokenized and sent; an incomplete character is held back. -/
def State.streamCommit (s : State) (q : Nat) : State :=
  let y : Seq := tGet {} s.seqs q
  match y.commits with
  | [] => s
  | (_, _, n) :: rest =>
    let ts := (y.out.take n).drop y.sent
    let x := s.vslot y.vocab
    let bs := y.held ++ match x.cur with
      | some v => ts.flatMap v.detok
      | none => []
    let s := match x.cur with
      | some v => applyAll (fun (s : State) t => s.readSlot 3 (slotObj y.vocab x.gen) (v.invOff + 8 * t) 8) s ts
      | none => s
    let k := bs.length - utf8Held bs
    let s := { s with seqs := tIns q { y with commits := rest, sent := n, held := bs.drop k } s.seqs }
    let s := if s.hasReq y.req then s.setReq y.req { s.req y.req with results := n } else s
    if k = 0 then s else s.emit y.req 1 1 (bs.take k) false

/-- Everything committed is streamed, and at completion what is held back is sent as it stands. -/
def State.streamAll (s : State) (q : Nat) : State :=
  let s := applyAll (fun (s : State) _ => s.streamCommit q) s (tGet {} s.seqs q : Seq).commits
  let y : Seq := tGet {} s.seqs q
  if y.held.isEmpty then s
  else ({ s with seqs := tIns q { y with held := [] } s.seqs }).emit y.req 1 1 y.held false

/-- An ending event of a device (R268): it completes the request with its code at once; output committed before it that is
still held back is sent first (R298), what waits for a buffer is not. -/
def State.endReq (s : State) (r code : Nat) : State :=
  if !s.hasReq r then s else
  let s := match (s.req r).seqE with
    | some q => s.streamAll q
    | none => s
  let x := s.req r
  let s := if x.state == 2 && decide (5 ≤ x.head.kind) then s.emitOutcomes r true else s
  s.complete r code 0 (if code = 0x06 then 4 else 0) (code != 0x09 && !(x.path.port == 2 && !(s.fn x.tenant).enable))

end Sys2Proof.Machine
end

