-- ==== Sys2Proof/Machine/Kv.lean ====
section
/-!
DEFINITION. Key-value pages (09_generation.md R276 to R284): their layout, headers, valid lengths and checksum vectors.
-/
namespace Sys2Proof.Machine

/-- The planes of a lane (R278): byte offsets within the lane, and its size. -/
structure LanePlanes where
  keyS  : Nat := 0
  keyV  : Nat := 0
  seg   : Nat := 0
  valE  : Nat := 0
  valS  : Nat := 0
  valV  : Nat := 0
  size  : Nat := 0
  deriving DecidableEq, Repr

def kvPlanes (x : PlanX) : LanePlanes :=
  let keyS := 32 * x.dim * fmtBits x.keyFmt
  let keyV := keyS + (if x.keyFmt = 7 then 0 else 8 * x.dim)
  let seg := keyV + 8 * x.dim
  let valE := seg + 32 * x.dim
  let valS := valE + 32 * x.dim * fmtBits x.valFmt
  let valV := valS + (if x.valFmt = 7 then 0 else 8 * x.dim)
  { keyS := keyS, keyV := keyV, seg := seg, valE := valE, valS := valS, valV := valV, size := valV + 2048 }

/-- Pages per block of a model: its lanes over the lanes of a page (R278). -/
def kvGroups (x : PlanX) : Nat := cdiv (x.layers * x.heads) (max 1 (min x.lanes 7))

/-- Lanes in the page of a lane group. -/
def kvLanesOf (x : PlanX) (g : Nat) : Nat := min (max 1 (min x.lanes 7)) (x.layers * x.heads - g * max 1 (min x.lanes 7))

/-- n bytes of a key-value page from an offset. -/
def State.kvBytes (s : State) (k o n : Nat) : List Byte := s.stackBytes (kvPageOf k) (kvBase k + o) n
def State.putKv (s : State) (k o : Nat) (bs : List Byte) : State := s.putStack (kvPageOf k) (kvBase k + o) bs

/-- The first 16 bytes of a page's header (R279). -/
def State.kvHeader (s : State) (k : Nat) : Nat := leNat (s.kvBytes k 0 16)
def kvValid (h : Nat) : Nat := bits h 79 71

/-- A header as its page is allocated. -/
def kvHeaderOf (model tenant seq block base lanes valid : Nat) : Nat :=
  packFields [(6, model), (8, tenant), (12, seq), (9, block), (10, base), (3, lanes), (9, valid), (1, 0), (1, 0), (69, 0)]

def State.setKvHeader (s : State) (k h : Nat) : State := s.putKv k 0 (leBytes 16 h)

/-- Key element i of position n of a lane, with its scale applied. -/
def State.kvKey (s : State) (k lane : Nat) (x : PlanX) (n i : Nat) : Val :=
  let p := (kvPlanes x)
  let b := 1024 + lane * p.size
  let row := leNat (s.kvBytes k (b + n * rowBytes x.keyFmt x.dim) (rowBytes x.keyFmt x.dim))
  let sc := if x.keyFmt = 7 then 0 else leNat (s.kvBytes k (b + p.keyS + n * (x.dim / 32) + i / 32) 1)
  decScaled x.keyFmt (bits row (fmtBits x.keyFmt * i + fmtBits x.keyFmt - 1) (fmtBits x.keyFmt * i)) sc

/-- The key vectors of a lane over the rows below a valid length (R280). -/
def State.kvKeyVectors (s : State) (k lane : Nat) (x : PlanX) (valid : Nat) : State :=
  let p := (kvPlanes x)
  let b := 1024 + lane * p.size
  let sumSeg (ab : Bool) (g i : Nat) : FP32 :=
    (List.range 64).foldl (fun acc j =>
      let n := 64 * g + j
      if valid ≤ n then acc else
        let v := s.kvKey k lane x n i
        rne32 ((val32 acc).add (if ab then v.abs else v))) f32zero
  let vec (ab : Bool) (g : Nat) : List FP32 := (List.range x.dim).map fun i => sumSeg ab g i
  let segs := (List.range 4).map fun g => (vec false g, vec true g)
  let total (f : List FP32 × List FP32 → List FP32) : List FP32 :=
    (List.range x.dim).map fun i => segs.foldl (fun acc g => add32 acc ((f g).getD i f32zero)) f32zero
  let put (s : State) (o : Nat) (v : List FP32) : State := s.putKv k (b + o) (v.flatMap fun w => leBytes 4 w.toNat)
  let s := (put s p.keyV (total (·.1)))
  let s := put s (p.keyV + 4 * x.dim) (total (·.2))
  (applyAll (fun (q : State × Nat) g =>
    (put (put q.1 (p.seg + q.2 * 8 * x.dim) g.1) (p.seg + q.2 * 8 * x.dim + 4 * x.dim) g.2, q.2 + 1)) (s, 0) segs).1

/-- VALID of a page set, and the vectors of every lane recomputed (R280, R284). -/
def State.setKvValid (s : State) (k : Nat) (x : PlanX) (valid : Nat) : State :=
  let h := s.kvHeader k
  if kvValid h = valid then s else
  let s := s.setKvHeader k (h - kvValid h * 2 ^ 71 + valid * 2 ^ 71)
  applyAll (fun s l => s.kvKeyVectors k l x valid) s (List.range (bits h 82 80))

/-- The number of a key-value page within a sequence: its side (0 generator, 1 draft), block and lane group. -/
def kvKeyOf (side block group : Nat) : Nat := side * 2 ^ 20 + block * 1024 + group

def State.seq (s : State) (q : Nat) : Seq := tGet {} s.seqs q
def State.setSeq (s : State) (q : Nat) (y : Seq) : State := { s with seqs := tIns q y s.seqs }

def State.model (s : State) (m : Nat) : Model := tGet {} s.models m
def State.setModel (s : State) (m : Nat) (x : Model) : State := { s with models := tSet {} s.models m x }

/-- What a model's plan fixes for firmware. -/
def State.planX (s : State) (m : Nat) : PlanX := ((s.model m).plan.map (·.x)).getD {}

/-- VALID of every unpublished page of a side of a sequence returns to what its committed length gives (R284). -/
def State.truncate (s : State) (q side : Nat) : State :=
  let y := s.seq q
  let len := if side = 0 then y.kvLen else y.drLen
  let x := s.planX (if side = 0 then y.model else y.draft)
  applyAll (fun s (e : Nat × Nat) =>
    if e.1 / 2 ^ 20 != side || bitAt (s.page (kvPageOf e.2)).pub (e.2 % 8) then s
    else s.setKvValid e.2 x (min 256 (len - 256 * (e.1 % 2 ^ 20 / 1024)))) s y.kv

end Sys2Proof.Machine
end

