-- ==== Sys2Proof/Machine/Steps.lean ====
section
/-!
DEFINITION. Stakes and batch steps: the domains a stake uses, abandon and replay, retirement of arrays, and the ending of steps
whose requests are gone (07_models_stakes_steps.md R222 to R234; 20_faults_ageing_record.md R593, R603).
-/
namespace Sys2Proof.Machine

def State.stake (s : State) (n : Nat) : Stake := tGet {} s.stakes n
def State.setStake (s : State) (n : Nat) (x : Stake) : State := { s with stakes := tSet {} s.stakes n x }
def State.step_ (s : State) (k : Nat) : Step := tGet {} s.steps k
def State.hasStep (s : State) (k : Nat) : Bool := tHas s.steps k
def State.setStep (s : State) (k : Nat) (x : Step) : State := { s with steps := tIns k x s.steps }

/-- STATE values of R222. -/
def skUNUSED : Nat := 0
def skIDLE : Nat := 1
def skBUSY : Nat := 2
def skDEGRADED : Nat := 3
def skSTOPPED : Nat := 4
def skUNLOADING : Nat := 5

/-- States of a step (R230). -/
def spPENDING : Nat := 0
def spRUNNING : Nat := 1
def spSUSPENDED : Nat := 2
def spREPLAY : Nat := 3

/-- The resident of a stake on a local array. -/
def State.residentOf (s : State) (n a : Nat) : Option Nat :=
  (List.range 4).find? fun r => let x := s.res a r; x.used && x.stake == n

/-! ## The parts a stake uses (R593) -/

/-- Dies on the routes between the stake's dies, the diagonals' intermediate dies with them (R157). -/
def Stake.dies (x : Stake) : List Nat :=
  let ds := (x.arrays.map (· / 8)).eraseDups
  let dia (a b : Nat) : Bool := ds.contains a && ds.contains b
  (ds ++ (if dia 0 3 then [1, 2] else []) ++ (if dia 1 2 then [0, 3] else [])).eraseDups

/-- Stacks that hold the stake's PINNED pages, or the key-value pages of the rows of its steps. -/
def State.stakeStacks (s : State) (n : Nat) (x : Stake) : List Nat :=
  let pins := (s.pagesOf 1 n).map (· / 24576)
  let kv := ([x.step, x.susp].filterMap id).flatMap fun k =>
    (s.step_ k).rows.flatMap fun r => match (s.req r.req).seqE with
      | some q => (s.seq q).kv.map fun e => kvPageOf e.2 / 24576
      | none => []
  (pins ++ kv).eraseDups

/-- The domains a stake uses. -/
def State.stakeDomains (s : State) (n : Nat) : List Nat :=
  let x := s.stake n
  x.arrays.map pdArray ++ x.arrays.map pdSlice ++ ((x.arrays.map (· / 8)).eraseDups.map fun d => 21 * d + 16) ++
    x.dies.map pdSpine ++ (s.stakeStacks n x).map pdStack

/-- Whether a domain not ON nevertheless leaves its stakes usable, because placement wakes it (R593). -/
def State.wakeable (s : State) (p : Nat) : Bool :=
  let asleep (q : Nat) : Bool :=
    decide (s.pdState q ≤ pdWAKING) && s.o (Od.pdPolicy q) != 2 && !s.power.downBy582
  if isArrayPd p then asleep p
  else if isSlicePd p then asleep (p - 8) && (decide (s.pdState p ≤ pdWAKING) || s.pdState p == pdRETAINED)
  else false

/-- Die-to-die links, by INSTANCE, between the dies of a route: horizontal, vertical (R157, R159). -/
def routeLinks (ds : List Nat) : List Nat :=
  ds.flatMap fun d => (if ds.contains (Nat.xor d 1) then [4096 * d] else []) ++
    (if ds.contains (Nat.xor d 2) then [4096 * d + 1] else [])

/-- Whether a stake must be DEGRADED (R223): a retired array, a failed link of its route, a domain not in service, or its next step
would find a part that is not there. -/
def State.stakeBroken (s : State) (n : Nat) : Bool :=
  let x := s.stake n
  (x.arrays.any fun a => !s.arrInService a) ||
  ((routeLinks x.dies).any fun l => s.parts.failedLinks.contains l) ||
  ((s.stakeDomains n).any fun p => !s.pdOn p && !s.wakeable p) ||
  (x.place.any fun b => bitAt b 6 && decide (s.o (Od.peerState (b % 8)) ≠ 2 ∧ s.o (Od.peerState (b % 8)) ≠ 3))

/-! ## Abandon (R141, R225, R230) -/

/-- The abandon command on every local array of a stake, for its current epoch. -/
def State.abandonOn (s : State) (n : Nat) : State :=
  let x := s.stake n
  applyAll (fun s a => match s.residentOf n a with
    | some r => s.abandonArr a r (x.epoch % 65536)
    | none => s) s x.arrays

/-- The step epoch of a stake increments, wrapping (R225). -/
def State.bumpEpoch (s : State) (n : Nat) : State :=
  let x := s.stake n
  s.setStake n { x with epoch := (x.epoch + 1) % 2 ^ 32 }

/-- What a step wrote for its rows is discarded (R229, R284). -/
def State.discardRows (s : State) (t : Step) : State :=
  applyAll (fun s (r : Row) => match (s.req r.req).seqE with
    | some q =>
      let s := s.truncate q (b2n r.draft)
      let y := s.seq q
      if r.draft && y.spec && !y.drafting then s else s.setSeq q { y with drawn := none }
    | none => s) s (t.rows.filter fun r => r.kind ≤ 2)

/-- The energy of a course, shared among the rows of its step by their positions (R271). -/
def State.chargeCourse (s : State) (t : Step) (cycles : Nat) : State :=
  let all := (t.rows.map (·.n)).sum
  let e := mul32 (ofNat32 (cycles * (s.stake t.stake).place.length)) (BitVec.ofNat 32 (s.o Od.energyArrayCycle))
  applyAll (fun s (r : Row) =>
    if s.hasReq r.req then
      let x := s.req r.req
      s.setReq r.req { x with energy := add32 x.energy (mul32 (div32 (ofNat32 r.n) (ofNat32 all)) e) }
    else s) s t.rows

/-- A peer link, and a flit sent on it (R505, R508): on a link that is UP it leaves and is held until it is acknowledged; on one that
retrains it is held; a link that is down takes none. -/
def State.peer (s : State) (l : Nat) : Peer := tGet {} s.peers l
def State.setPeer (s : State) (l : Nat) (x : Peer) : State := { s with peers := tSet {} s.peers l x }
def State.sendFlit (s : State) (l kind stake epoch : Nat) : State :=
  let st := s.o (Od.peerState l)
  if st ≠ 2 ∧ st ≠ 3 then s else
  let x := s.peer l
  let h := packFields [(16, x.next), (4, kind), (9, stake), (32, epoch), (5, 0), (4, 0), (4, 0), (22, 0), (32, 0)]
  let s := if st = 2 then s.addO (Od.peerFlitsTx l) 1 else s
  s.setPeer l { held := x.held ++ [h], next := (x.next + 1) % 65536 }

/-- Peer links towards the other modules of a stake. -/
def Stake.links (x : Stake) : List Nat := ((x.place.filter fun b => bitAt b 6).map (· % 8)).eraseDups
/-- The link towards the lead. -/
def Stake.leadLink (x : Stake) : Nat := x.place.getD 0 0 % 8

/-- STEP_START to the other segments of a stake that spans modules (R224). -/
def State.sendStart (s : State) (n : Nat) : State :=
  let x := s.stake n
  if x.lead then applyAll (fun s l => s.sendFlit l 1 n x.epoch) s x.links else s

/-- The running step of a stake has left it: a step placed behind it starts, with the epoch of its start (R225, R230); else the stake is
idle. -/
def State.nextOn (s : State) (n : Nat) : State :=
  let x := s.stake n
  match x.next with
  | none => s.setStake n { x with step := none, state := if x.state == skBUSY then skIDLE else x.state }
  | some j =>
    let t := s.step_ j
    let ep := (x.epoch + 1) % 2 ^ 32
    let s := s.setStake n { x with step := some j, next := none, epoch := ep }
    let s := s.setStep j { t with epoch := ep }
    let s := { s with masks := s.masks.map fun (f : Mask) =>
      let a := 4 * f.dice + f.eng
      if x.arrays.contains a && s.residentOf n a == some f.res && f.epoch == t.epoch % 65536 then { f with epoch := ep % 65536 } else f }
    s.sendStart n

/-- A step leaves its stake. -/
def State.leaveStake (s : State) (k : Nat) : State :=
  let t := s.step_ k
  let x := s.stake t.stake
  if !x.used then s else
  let s := s.setStake t.stake { x with
    susp := if x.susp == some k then none else x.susp
    next := if x.next == some k then none else x.next }
  if x.step == some k then s.nextOn t.stake else s

/-- A step ends: it leaves the table (R230). -/
def State.dropStep (s : State) (k : Nat) : State :=
  let s := s.leaveStake k
  { s with steps := tDel k s.steps }

/-- A RUNNING step's course is abandoned, or a SUSPENDED step's provisional writes are: the epoch increments; the step goes to REPLAY,
or ends when its fault replays exceed the limit (R230).  `fault` says whether a fault replay is counted; the numbers of requests that
end with INTERNAL_FAULT are those of its rows.  A step placed behind another's course has issued nothing.  The cycles an abandoned course had run are a free value (DESIGN CHOICE; log entry 3). -/
def State.abandonStep (s : State) (k : Nat) (fault : Bool) : State :=
  let t := s.step_ k
  if !s.hasStep k || !(t.state == spRUNNING || t.state == spSUSPENDED) then s else
  let issued := (s.stake t.stake).step == some k
  let s := if t.state == spRUNNING && issued then
      ((s.abandonOn t.stake).addO (Od.coursesAbandoned t.model) 1).took.chargeCourse t (s.freeV 16)
    else s
  let s := if issued || t.state == spSUSPENDED then s.bumpEpoch t.stake else s
  let s := s.discardRows t
  let s := s.leaveStake k
  let t := { t with state := spREPLAY, done := [], suspend := false, faults := t.faults + b2n fault }
  let s := if fault then applyAll (fun s (r : Row) =>
    if s.hasReq r.req then s.setReq r.req { s.req r.req with replayed := true } else s) s t.rows else s
  let rows := t.rows.filter fun r => s.hasReq r.req
  if s.o Od.stepReplayLimit < t.faults then
    applyAll (fun s (r : Row) => s.endReq r.req 0x0D) { s with steps := tDel k s.steps } t.rows
  else if rows.isEmpty then { s with steps := tDel k s.steps }
  else s.setStep k { t with rows := rows }

/-- Steps whose every request is gone: PENDING and REPLAY steps are dropped, a SUSPENDED step is abandoned at once; a RUNNING one goes
on to its next course end (R230). -/
def State.tidySteps (s : State) : State :=
  applyAll (fun s (e : Nat × Step) =>
    if e.2.rows.any fun r => s.hasReq r.req then s
    else if e.2.state == spRUNNING && (s.stake e.2.stake).step == some e.1 then s
    else if e.2.state == spSUSPENDED then ((s.bumpEpoch e.2.stake).discardRows e.2).dropStep e.1
    else s.dropStep e.1) s s.steps

/-- An ending event of a device for a request (R268), and for the steps that held only it. -/
def State.failReq (s : State) (r code : Nat) : State := (s.endReq r code).tidySteps

/-- The index is FAILED: the requests that still need it complete with INTERNAL_FAULT (R387). -/
def State.indexFailed (s : State) : State :=
  let s := s.setO Od.indexState 5
  let s := applyAll (fun s (e : Nat × Req) =>
    if e.2.state == 2 && decide (2 ≤ e.2.head.kind) && (decide (5 ≤ e.2.head.kind) || decide (e.2.stage ≤ 10)) then s.endReq e.1 0x0D
    else s) s s.reqs
  s.tidySteps

/-! ## Degraded stakes and retired arrays (R223, R593, R603) -/

/-- A stake becomes DEGRADED and its running and suspended steps go to REPLAY. -/
def State.degradeStake (s : State) (n : Nat) (fault : Bool) : State :=
  let x := s.stake n
  if !x.used then s else
  let s := applyAll (fun s k => s.abandonStep k fault) s ([x.next, x.step, x.susp].filterMap id)
  let x := s.stake n
  s.setStake n { x with state := if x.state == skSTOPPED || x.state == skUNLOADING then x.state else skDEGRADED }

/-- The stakes whose numbers meet a test become DEGRADED. -/
def State.degradeWhere (s : State) (p : Nat → Stake → Bool) (fault : Bool) : State :=
  applyAll (fun s (e : Nat × Stake) => if e.2.used && p e.1 e.2 then s.degradeStake e.1 fault else s) s s.stakes

/-- How many running courses the loss of a domain abandons. -/
def State.coursesOn (s : State) (p : Nat) : Nat :=
  (s.stakes.filter fun e => e.2.used && e.2.step.isSome && (s.stakeDomains e.1).contains p).length

/-- Stakes that use a domain become DEGRADED and their running courses are abandoned (R593); `counted` says whether their steps count
a fault replay (R230, R582). -/
def State.degradeFor (s : State) (p : Nat) (counted : Bool) : State :=
  s.degradeWhere (fun n _ => (s.stakeDomains n).contains p) counted

/-- A die-to-die link no longer carries anything (R607). -/
def State.linkLost (s : State) (l : Nat) : State :=
  s.degradeWhere (fun _ x => (routeLinks x.dies).contains l) true

/-- Whether a step of some resident is pending, running, suspended or awaiting replay on array a (R571). -/
def State.arrayWanted (s : State) (a : Nat) : Bool :=
  s.steps.any fun e => s.stakes.any fun x => x.2.used && x.2.arrays.contains a &&
    (if e.2.state == spRUNNING || e.2.state == spSUSPENDED then e.2.stake == x.1 else e.2.model == x.2.model)

/-- The order of a step's requests in a wake ledger: descending rank, then oldest (R573). -/
def Step.order (t : Step) : List Nat := [64 - (t.rows.map (·.rank)).foldl max 0, t.asm]

/-- The order of the first step that wants array a. -/
def State.orderOn (s : State) (a : Nat) : List Nat :=
  let ts := s.steps.filter fun e => e.2.state == spRUNNING && (s.stake e.2.stake).arrays.contains a
  (sortBy lexLt (ts.map fun e => e.2.order)).headD [64, 0]

/-- An array is retired (R100, R603, R610); cause 0 mismatches, 1 ECC, 2 margin. -/
def State.retireArray (s : State) (a cause : Nat) : State :=
  if !s.arrInService a then s else
  let n := (s.stakes.filter fun e => e.2.used && e.2.step.isSome && e.2.arrays.contains a).length
  let s := s.setO Od.arraysInService (setBitTo (s.o Od.arraysInService) a false)
  let s := s.degradeWhere (fun _ x => x.arrays.contains a) true
  if cause = 2 then s else s.faultRec 0x21 0 a 1 0 n [(8, cause)]

/-- An uncorrectable error of an array (R603): the second within ARRAY_RETIRE_WINDOW beats retires it. -/
def State.arrayEcc (s : State) (a : Nat) : State :=
  let x := s.arr a
  let again := match x.eccBeat with
    | some b => decide (s.beat < b + s.o Od.arrayRetireWindow)
    | none => false
  let s := s.setArr a { s.arr a with eccBeat := some s.beat }
  if again then s.retireArray a 1 else s

/-! ## Failed models (R140, R221) -/

/-- Whether an admitted request's stages run on a model at their current levels. -/
def Req.uses (x : Req) (m : Nat) : Bool :=
  x.state == 2 && (stagesOf x.head.kind).any fun st => x.modelOf st == some m

/-- A model becomes FAILED: the requests that use it complete with INTERNAL_FAULT, its steps end (R221). -/
def State.failModel (s : State) (m : Nat) : State :=
  let s := s.setO (Od.modelState m) 5
  let s := s.record 0x0C m (dataDown [(16, m), (8, 0xFF)])
  let s := applyAll (fun s (e : Nat × Req) => if e.2.uses m then s.endReq e.1 0x0D else s) s s.reqs
  applyAll (fun s (e : Nat × Step) => if e.2.model == m then (s.abandonStep e.1 false).dropStep e.1 else s) s s.steps

/-- The running step of a resident's stake whose epoch a word carries (R100, R101, R140). -/
def State.stepOfWord (s : State) (a r ep : Nat) : Option Nat :=
  let x := s.stake (s.res a r).stake
  if (s.res a r).used && x.used && x.epoch % 65536 == ep then x.step else none

/-- Firmware's answer to an instruction fault (R140): the course is abandoned and replayed once; when the same word fails again the
model is marked failed. -/
def State.instrFault (s : State) (a r ep code word : Nat) : State :=
  match s.stepOfWord a r ep with
  | none => s
  | some k =>
    let t := s.step_ k
    let m := s.model t.model
    let again := m.word == some (a, t.course, word)
    let s := s.faultRec 0x2C 0 a 0 0 1 [(8, code), (8, word), (8, b2n again)]
    if again then s.failModel t.model
    else (s.setModel t.model { m with word := some (a, t.course, word) }).abandonStep k true

/-- A row of a course has failed its check (R100, R101): every failing row counts against the array; the failure that marks the running
course suspect replays it, and retires the array when an earlier run of the same course was marked suspect there. -/
def State.checkFailed (s : State) (a r ep rows : Nat) : State :=
  let x := s.arr a
  let s := s.addO (Od.arrayMismatchCount a) rows
  let win := s.o Od.arrayRetireWindow
  let fails := (List.replicate rows s.beat ++ x.fails).filter fun b => decide (s.beat < b + win)
  let s := s.setArr a { x with fails := fails }
  let atLimit := decide (s.o Od.arrayRetireThreshold ≤ fails.length)
  match s.stepOfWord a r ep with
  | none => if atLimit then s.retireArray a 0 else s
  | some k =>
    let t := s.step_ k
    let again := t.failed.contains (t.course, a)
    let s := s.setStep k { t with failed := (t.course, a) :: t.failed, excl := if t.excl.contains a then t.excl else a :: t.excl }
    let s := s.fault1 0x20 0 a 0 0 1 [(8, t.course), (32, (s.stake t.stake).epoch), (16, sat 16 rows)]
    let s := s.abandonStep k true
    if atLimit || again then s.retireArray a 0 else s

/-! ## Lost key-value pages (R205, R230, R296) -/

/-- Sequences that hold a stack page, by their own pages or through prefix entries. -/
def State.seqsOn (s : State) (p : Nat) : List Nat :=
  (s.seqs.filter fun e => (e.2.kv.any fun k => kvPageOf k.2 == p) || e.2.propPage.any (fun k => kvPageOf k == p) ||
    e.2.prefixes.any fun i => (tGet {} s.prefixes i : Prefix).pages.any fun k => kvPageOf k == p).map (·.1)

/-- A HOME page is lost: the running and suspended steps with rows of its sequences are abandoned without being counted, published
blocks in it are withdrawn, and the sequences complete with LOST_STATE (R230, R296). -/
def State.homeLost (s : State) (p : Nat) : State :=
  let qs := s.seqsOn p
  let rs := qs.map fun q => (s.seq q).req
  let lost := s.prefixes.filter fun e => e.2.pages.any fun k => kvPageOf k == p
  let s := applyAll (fun s (e : Nat × Step) =>
    if e.2.rows.any fun r => rs.contains r.req then s.abandonStep e.1 false else s) s s.steps
  let s := applyAll (fun s (e : Nat × Prefix) =>
    if e.2.pages.any fun k => kvPageOf k == p then
      ({ s with prefixes := tDel e.1 s.prefixes } : State).subO Od.prefixEntriesUsed 1 else s) s s.prefixes
  let s := applyAll (fun s r => s.failReq r 0x08) s rs
  let s := applyAll (fun s (e : Nat × Prefix) => applyAll (fun s k => if kvPageOf k == p then s else s.kvFree k) s e.2.pages) s lost
  applyAll (fun s (e : Nat × Step) =>
    let rows := e.2.rows.filter fun r => s.hasReq r.req
    if rows.isEmpty || e.2.state == spRUNNING then s else s.setStep e.1 { e.2 with rows := rows }) s s.steps

end Sys2Proof.Machine
end

