-- ==== Sys2Proof/Machine/Lost.lean ====
section
/-!
DEFINITION. What resets, failures and losses of power take with them (19_power_clocks_resets.md R588, R589; 06_memory_tiers.md R205,
R206; 20_faults_ageing_record.md R604 to R606).
-/
namespace Sys2Proof.Machine

/-! ## Stack pages (R205) -/

/-- The features on a lost page are pooled again from the pool (R442). -/
def State.featLost (s : State) (r p : Nat) : State :=
  if !s.hasReq r then s else
  let x := s.req r
  let gone := (x.featPages.filter fun k => kvPageOf k.2 == p).map (·.1)
  let per := s.featPer x
  let cs := (x.cands.zip (List.range x.cands.length)).map fun c => if gone.contains (c.2 / per) then { c.1 with feats := [] } else c.1
  s.setReq r { x with cands := cs, featPages := x.featPages.filter fun k => kvPageOf k.2 != p, pool := [], fromCache := [] }

/-- A stack page has failed: its copies are gone; a PINNED or CACHED page waits to be fetched again from its origin, a HOME page's
sequences have lost their state, a FIRMWARE page is rebuilt from its mirror into a FREE page.  `cls` is its CLASS afterwards: RETIRED,
or FREE when the page itself can be used again (R206). -/
def State.failPage (s : State) (p cls : Nat) : State :=
  let x := s.page p
  if x.cls == cFREE || x.cls == cRETIRED then s.putPage p { cls := cls } else
  let s := s.untier p
  let s := if x.cls == cHOME then
      let s := if x.use.kind == 5 then s.homeLost p else s
      applyAll (fun s (e : Nat × Req) =>
        if e.2.featPages.any fun k => kvPageOf k.2 == p then
          let s := applyAll (fun s (k : Nat × Step) =>
            if k.2.rows.any fun r => r.req == e.1 then s.abandonStep k.1 false else s) s s.steps
          s.featLost e.1 p
        else s) s s.reqs
    else s
  let s := (s.putPage p { cls := cls }).wipePage p
  if x.cls == cPINNED || x.cls == cCACHED then
    { s with mem := { s.mem with refetch := s.mem.refetch ++ [(p, x)] } }
  else if x.cls == cFIRMWARE then
    match s.takePage (p / 49152) cFIRMWARE x.owner x.target x.use with
    | some (s, _) => s
    | none => s
  else s

/-- Every page of a stack fails; how many PINNED pages are to be fetched again and how many HOME pages are lost (R206, R606). -/
def State.failStack (s : State) (h cls : Nat) : State × Nat × Nat :=
  let ps := s.mem.pages.filter fun e => e.1 / 24576 == h
  let n (c : Nat) : Nat := (ps.filter fun e => e.2.cls == c).length
  (applyAll (fun s (e : Nat × Page) => s.failPage e.1 cls) s ps, n cPINNED, n cHOME)

/-! ## Home granules (R175, R201, R589) -/

/-- Home and transit granules of a resident, taken in its array's slice, and its near-window map: home granule i of the resident
is the i-th granule taken (DESIGN CHOICE; log entry 21). -/
def State.placeHome (s : State) (a r : Nat) (p : Plan) : Option State :=
  let x := s.res a r
  let owner := s.o (Od.modelOwner x.model)
  match claimGrans a gHOME owner r (p.home - p.transit) s with
  | none => none
  | some (s, hs) =>
    match claimGrans a gTRANSIT owner r p.transit s with
    | none => none
    | some (s, ts) =>
      let map := (applyAll (fun (t : Tbl Nat × Nat) g => (tSet 0 t.1 t.2 (2 ^ 15 + g % 512), t.2 + 1)) (([] : Tbl Nat), 0) hs).1
      some (s.setRes a r { s.res a r with nearMap := map, transit := ts })

/-- The descriptor images of a logical array (R209, R110). -/
def Plan.descsOf (p : Plan) (la : Nat) : Tbl Nat :=
  (p.descs.filter fun e => e.1 / 4096 == la).map fun e => (e.1 % 4096, e.2)

/-- The logical array a stake places on a local array (R216). -/
def Stake.logicalOf (x : Stake) (a : Nat) : Nat := (x.place.findIdx? fun b => !bitAt b 6 && b % 32 == a).getD 0

/-- A slice that comes back from OFF or a reset: firmware rewrites the residents' home granules and descriptor entries from their plans'
origins (R589). -/
def State.sliceBack (s : State) (a : Nat) : State :=
  applyAll (fun s r =>
    let x := s.res a r
    match x.used, (s.model x.model).plan with
    | true, some p =>
      match s.placeHome a r p with
      | some s =>
        let la := (s.stake x.stake).logicalOf a
        s.setRes a r { s.res a r with descs := p.descsOf la }
      | none => s
    | _, _ => s) s (List.range 4)

/-! ## Domains (R588, R589) -/

/-- A reset of a slice frees every granule (R589). -/
def State.sliceLost (s : State) (a : Nat) : State :=
  let gs := (s.sliceGrans a).filter fun e => e.2.state != gRETIRED
  let s := applyAll (fun s (e : Nat × Gran) =>
    if e.2.state == gTIERED then s.dropGran e.1
    else if e.2.state == gMIGRATING then s.cancelMigr e.1 else (s.putGran e.1 {}).wipeGran e.1) s gs
  let s := applyAll (fun s r =>
    let x := s.res a r
    if x.used then s.setRes a r { x with nearMap := [], transit := [], descs := [] } else s) s (List.range 4)
  { s with slots := { s.slots with live := tDrop (fun k => k / 256 == 2 * 65536 + a / 8 * 4096 + a % 8) s.slots.live } }

/-- An array's own state is lost; its counts of failures and errors are firmware's and stay. -/
def State.arrLost (s : State) (a : Nat) : State :=
  let x := s.arr a
  s.setArr a { fails := x.fails, eccBeat := x.eccBeat, idleOff := x.idleOff }

/-- Reed cores restart, and their mailboxes are empty. -/
def State.coresLost (s : State) (lo n : Nat) : State :=
  { s with cores := tDrop (fun c => decide (lo ≤ c ∧ c < lo + n)) s.cores
           mboxes := tDrop (fun k => decide (lo ≤ k / 8 ∧ k / 8 < lo + n)) s.mboxes }

/-- A dice unit loses its queues and its key; the steps with jobs on it are replayed (R596, R604). -/
def State.diceLost (s : State) (u : Nat) : State :=
  let arrays := (List.range 4).map fun i => 4 * u + i
  let busy := !(tGet {} s.dice u : Dice).queues.isEmpty
  let s := if busy then
      applyAll (fun s (e : Nat × Stake) => match e.2.step with
        | some k => if e.2.used && e.2.arrays.any fun a => arrays.contains a then s.abandonStep k true else s
        | none => s) s s.stakes
    else s
  { s with dice := tSet {} s.dice u { fails := (tGet {} s.dice u : Dice).fails, epoch := (tGet {} s.dice u : Dice).epoch }
           masks := s.masks.filter fun m => m.dice != u }

/-- Requests whose state lay in lost rim memory leave the module without a completion. -/
def State.dropReq (s : State) (r : Nat) : State :=
  let s := s.release r
  { s with reqs := tDel r s.reqs
           gate := { s.gate with waiting := s.gate.waiting.filter fun q => q != r, deferq := s.gate.deferq.filter fun q => q != r } }

/-- A rim die's spine domain is reset: RN holds the identifier windows, the assemblies, the request state and buffers 0 to 32 767,
RS the other buffers (R466, R478, R567). (DEDUCED; log entry 65) -/
def State.rimLost (s : State) (rs : Bool) : State :=
  let half (b : Nat) : Bool := decide (32768 ≤ b) == rs
  let s := applyAll (fun s (e : Nat × Req) =>
    if !rs || e.2.bufs.any half then s.dropReq e.1 else s) s s.reqs
  let s := applyAll (fun s (e : Nat × Buf) => if half e.1 then s.freeBuf e.1 else s) s s.bufs
  let s := s.coresLost (if rs then 136 else 128) 8
  let s := { s with tries := tDrop (fun u => decide (16 ≤ u) == rs) s.tries }
  if rs then s.tidySteps else
  let s := { s with rx := [], assemblies := [], preCancels := [], idWins := [], trieQ := [],
                    index := { s.index with staged := [], windows := [] } }
  (s.addO Od.windowEpoch 1).tidySteps

/-- The spokes of a group scan their shares of every started window again (R604, R387). -/
def State.spokesBack (s : State) (lo n : Nat) : State :=
  { s with index := { s.index with windows := s.index.windows.map fun w =>
      { w with done := w.done.filter fun d => !(decide (lo ≤ d.1 ∧ d.1 < lo + n)) || w.merged.contains d.2 } } }

/-- The state of a domain's parts is lost (R588, R589).  The domain still has the state it is leaving: a stack controller that leaves
QUIESCING keeps its stack's contents in self-refresh. -/
def State.partsLost (s : State) (p : Nat) : State :=
  if p < 84 then
    let d := p / 21
    let i := p % 21
    if i < 8 then s.arrLost (8 * d + i)
    else if i < 16 then s.sliceLost (8 * d + i - 8)
    else if i < 18 then s.coresLost (32 * d + 16 * (i - 16)) 16
    else if i < 20 then
      let s := if s.pdState p == pdQUIESCING then s else (s.failStack (2 * d + i - 18) cFREE).1
      { s with slots := { s.slots with live := tDrop (fun k =>
          k / 256 / 65536 == 3 && k / 256 % 65536 / 4096 == d && k / 256 % 4096 / 64 == i - 18) s.slots.live } }
    else
      let s := applyAll (fun s u => (s.diceLost u).setO (Od.rngSourceState u) 0) s [2 * d, 2 * d + 1]
      let s := applyAll (fun s u => s.setDice u { s.die_ u with fails := 0 }) s [2 * d, 2 * d + 1]
      { s with slots := { s.slots with live := tDrop (fun k =>
          (k / 256 / 65536 == 1 || k / 256 / 65536 == 4) && k / 256 % 65536 / 4096 == d) s.slots.live } }
  else if p = 84 then s.rimLost false
  else if p = 91 then s.rimLost true
  else if p ≤ 88 then s.spokesBack (4 * (p - 85)) 4
  else if p = 89 then { s with rx := [], power := { s.power with ethUp := 0 } }
  else if p = 90 then { s with pcie := {} }
  else if p ≤ 95 then s.spokesBack (16 + 4 * (p - 92)) 4
  else if p = 96 then { s with pool := { s.pool with tags := [], up := false } }.setO Od.poolLink 0
  else applyAll (fun (s : State) l => (s.setO (Od.peerState l) 0).setO (Od.peerLanes l) 0) { s with peers := [] } (List.range 8)

/-- A unit inside a domain that stays ON is cleared (R604): kinds as PART_RESET numbers them. -/
def State.partCleared (s : State) (kind unit : Nat) : State :=
  match kind with
  | 0 => s.diceLost unit
  | 1 =>
    let s := applyAll (fun s (e : Nat × Stake) => match e.2.step with
      | some k => if e.2.used && e.2.arrays.contains unit && s.masks.any fun m => 4 * m.dice + m.eng == unit
          then s.abandonStep k true else s
      | none => s) s s.stakes
    { s with masks := s.masks.filter fun m => 4 * m.dice + m.eng != unit }
  | 3 => { s with tries := tDel unit s.tries }
  | 7 => s.spokesBack unit 1
  | 8 => s.coresLost unit 1
  | _ => s

/-! ## Main power (R588) -/

/-- Objects kept in the always-on domain or in MRAM: chain, beat, lock, sensors, record store, start-up and pins, the policies and
epochs of the domains, and the window epoch (R588, R466, R619; DEDUCED; log entry 8). -/
def keptObj (k : Nat) : Bool :=
  let i := k / 256
  decide (0x1000 ≤ i ∧ i ≤ 0x12FF) || decide (0x2200 ≤ i ∧ i ≤ 0x22FF) || i == 0x9100 || decide (0xA000 ≤ i) ||
    i == 0x2001 || i == 0x2002 || k == Od.windowEpoch || (match objRow? i (k % 256) with
      | some r => r.acc == .rwp
      | none => false)

/-- What the index keeps in flash when main power is lost: what was programmed (R364, R372, R423). -/
def Index.afterLoss (x : Index) : Index :=
  { x with
    staged := [], formed := [], inflight := [], windows := [], stripe := none, textAt := none, unmount := false, retire := []
    dicts := [], dictPend := [], lastClose := 0
    lists := x.lists.map fun e => (e.1, { e.2 with heat := 0, copies := [], merge := match e.2.merge with
      | some m => if m.ready then some m else none
      | none => none })
    text := x.text.filter fun e => e.2.done }

/-- The ranges served on standby power alone (R539, R550). -/
def standbyIndex (i : Nat) : Bool :=
  decide (0x1000 ≤ i ∧ i ≤ 0x12FF) || decide (0x2200 ≤ i ∧ i ≤ 0x22FF) || decide (0x9100 ≤ i ∧ i ≤ 0x91FF) ||
    decide (0xA000 ≤ i ∧ i ≤ 0xA0FF) || decide (0xB000 ≤ i ∧ i ≤ 0xB0FF)

/-- Everything outside the always-on domain is lost; flash, the model store and the record store keep their contents (R588).  The PCIe
link is lost with it, and transfers open on objects outside the standby ranges are discarded (R551). -/
def State.mainLost (s : State) : State :=
  let s := s.endSession 1 2
  let s := match (s.path 0).seg with
    | some g => if standbyIndex (g.key / 256) then s else
        let s := s.dropSeg 0
        s.setPath 0 { s.path 0 with cut := some g.key }
    | none => s
  let s := applyAll (fun (s : State) p =>
    if s.pdState p == pdON || s.pdState p == pdRETAINED then s.addO (Od.pdEpoch p) 1 else s) s (List.range 98)
  { s with
    od := s.od.filter fun e => keptObj e.1
    arrs := [], residents := [], incrs := [], cores := [], mboxes := tDrop (fun k => decide (k < 144 * 8)) s.mboxes
    mem := {}, slots := {}, parts := {}, models := [], stakes := [], steps := [], seqs := [], prefixes := []
    rx := [], assemblies := [], preCancels := [], idWins := [], bufs := [], reqs := [], gate := {}, arb := {}, pcie := {}, pool := {}
    tables := [], peers := [], vocabs := [], grammars := [], trieQ := [], tries := [], masks := [], dice := [], aged := []
    index := s.index.afterLoss
    power := { s.power with planClk := [], capClk := 1500, below95 := 0, tripped := [], downBy582 := false, ethUp := 0
                            ledgers := [], pds := [], serdesOn := [89, 90, 96, 97] }
    dict := { s.dict with mbStatus := 0, mbReqLen := 0, mbReq := [], mbResp := [], msixDone := 0 } }.addO Od.windowEpoch 1
  |>.setO Od.indexState (if s.index.fmtLists = 0 then 0 else 6)

end Sys2Proof.Machine
end

