-- ==== Sys2Proof/Machine/Power.lean ====
section
/-!
DEFINITION. Power domains, wake ledgers, clocks, coolant and resets (19_power_clocks_resets.md; 20_faults_ageing_record.md
R604, R607; 23_ratings.md R655, R656).
-/
namespace Sys2Proof.Machine

/-! ## Epochs and states (R569, R591) -/

/-- The first cores of cluster 1 of each compute die and one of each rim die (R591). -/
def noticeCores : List Nat := [16, 48, 80, 112, 128, 136]

/-- PD_STATE written; leaving ON or RETAINED for another state advances the epoch and posts EPOCH_NOTICE (R591). (DEDUCED; log entry 65) -/
def State.setPdState (s : State) (p st : Nat) : State :=
  let old := s.pdState p
  let s := s.setO (Od.pdState p) st
  if (old == pdON || old == pdRETAINED) && st != old then
    let s := s.addO (Od.pdEpoch p) 1
    let e := s.o (Od.pdEpoch p)
    let notice := packFields [(16, e), (16, p), (96, 0)]
    applyAll (fun s c => if s.pdOn (pdCore c) then s.post c 7 0x05 notice else s) s noticeCores
  else s

/-! ## The wake ledgers (R573) -/

def State.ledger (s : State) (d : Nat) : Ledger := tGet {} s.power.ledgers d

/-- A die's ledger replaced, and WAKE_QUEUE with it (R557). -/
def State.setLedger (s : State) (d : Nat) (l : Ledger) : State :=
  let s := { s with power := { s.power with ledgers := tSet {} s.power.ledgers d l } }
  s.setO (Od.wakeQueue d) l.queue.length

/-- Depth of a domain below main power: parents come first (R573, order 4). -/
def pdDepth (p : Nat) : Nat :=
  if p = 84 ∨ p = 91 then 0 else if p < 84 ∧ p % 21 = 20 then 1 else if isArrayPd p then 3 else 2

/-- The order of grants (R573): the listed orders, then the step's rank, then parents first and ascending number. -/
def WakeReq.key (r : WakeReq) : List Nat := r.order :: (r.rank ++ [pdDepth r.unit, r.unit])

def wakeBefore (a b : WakeReq) : Bool := lexLt a.key b.key

/-- A request put into the queue of a die. -/
def State.enqueue (s : State) (d : Nat) (r : WakeReq) : State :=
  let l := s.ledger d
  if l.queue.any fun q => q.ramp == r.ramp && q.unit == r.unit then s
  else s.setLedger d { l with queue := insertBy wakeBefore { r with asked := s.power.now } l.queue }

/-- A wake of one domain asked for (R568, R569, R594), its parents' first; a RETAINED slice needs none of its own. -/
def requestWake : Nat → State → Nat → Nat → List Nat → State
  | 0, s, _, _, _ => s
  | n + 1, s, p, order, rank =>
    let st := s.pdState p
    if s.o (Od.pdPolicy p) == 2 || st == pdFAILED then s
    else if st == pdQUIESCING || st == pdRESET then s.setPd p { s.pd p with wakeAfter := true }
    else if st == pdOFF then
      let s := applyAll (fun s q => requestWake n s q order rank) s (pdParents p)
      let s := s.setPdState p pdQUEUED
      s.enqueue (dieOfPd p) { unit := p, order := order, rank := rank }
    else s

/-- WAKE_REQUEST within a placement (R569, R572). -/
def State.wake (s : State) (p order : Nat) (rank : List Nat) : State := requestWake 5 s p order rank

/-- A ramp-up of an array asked for (R85). -/
def State.askRamp (s : State) (a : Nat) (rank : List Nat) : State :=
  if s.pdOn (pdArray a) && (s.arr a).ramp == .off then
    s.enqueue (a / 8) { ramp := true, unit := a, order := 3, rank := rank }
  else s

/-- Whether array wakes and ramp-ups are withheld (R26, R582, R656). -/
def State.coolHeld (s : State) : Bool := s.interlockOpen || s.power.inletHot

/-- Whether a ledger may grant a queued domain wake (R568, R571, R573, R582). -/
def State.mayWake (s : State) (d : Nat) (r : WakeReq) : Bool :=
  !r.ramp && s.pdState r.unit == pdQUEUED && s.power.mainOn && !s.power.moduleTrip && !s.power.tripped.contains d &&
  s.o (Od.pdPolicy r.unit) != 2 && !(isArrayPd r.unit && s.coolHeld) &&
  (pdParents r.unit).all fun q => s.pdOn q || (isArrayPd r.unit && isSlicePd q && s.pdState q == pdRETAINED)

/-- WAKE_GRANT (R573, R568, R570): at time t (ns) the ledger of die d grants the first wake it may, at most one in any
5 µs; the RETAINED slice of an array domain returns to ON with it. (DESIGN CHOICE; log entry 9) -/
def execWakeGrant (d : Fin 6) (t : Nat) (s : State) : Res :=
  .next <|
    let l := s.ledger d.val
    let free := match l.lastWake with
      | none => true
      | some u => decide (u + s.o Od.wakeSpacingNs ≤ t)
    match l.queue.find? (s.mayWake d.val) with
    | none => s
    | some r =>
      if !free || decide (t < s.power.now) then s else
      let s := { s with power := { s.power with now := t } }
      let s := s.setLedger d.val { l with queue := l.queue.filter fun q => q != r, lastWake := some t }
      let s := s.addO Od.wakesDelayed (b2n (decide (r.asked < t)))
      let s := s.setPdState r.unit pdWAKING
      if isArrayPd r.unit && s.pdState (r.unit + 8) == pdRETAINED then s.setPdState (r.unit + 8) pdON else s

/-- RAMP_UP_GRANT (R573, R85, R26): at most two ramp-ups per die in any 100 ns, none while the interlock is open. -/
def execRampUpGrant (d : Fin 6) (t : Nat) (s : State) : Res :=
  .next <|
    let l := s.ledger d.val
    let recent := l.ramps.filter fun u => decide (t < u + s.o Od.rampWindowNs)
    match l.queue.find? fun r => r.ramp && s.pdOn (pdArray r.unit) && (s.arr r.unit).ramp == .off with
    | none => s
    | some r =>
      if s.coolHeld || decide (s.o Od.rampsPerWindow ≤ recent.length) || decide (t < s.power.now) then s else
      let s := { s with power := { s.power with now := t } }
      let s := s.setLedger d.val { l with queue := l.queue.filter fun q => q != r, ramps := t :: recent }
      let s := s.addO Od.wakesDelayed (b2n (decide (r.asked < t)))
      s.setArr r.unit { s.arr r.unit with ramp := .up }

/-! ## Resets (R588 to R594) -/

/-- A domain leaves ON, RETAINED or QUIESCING for IN_RESET: its parts' state is lost and their users are abandoned. -/
def State.toReset (s : State) (p : Nat) : State :=
  let st := s.pdState p
  if st == pdON || st == pdRETAINED || st == pdQUIESCING then
    let s := s.degradeFor p true
    let s := s.partsLost p
    let s := s.setPd p { s.pd p with reason := 2 }
    s.setPdState p pdRESET
  else if st == pdQUEUED || st == pdWAKING then s.setPd p { s.pd p with rstAfter := true }
  else s

/-- A reset without quiesce: a spine domain takes every domain below it with it, children first (R588, R594). -/
def State.resetNow (s : State) (p : Nat) : State :=
  let s := if p < 84 ∧ p % 21 = 20 then applyAll State.toReset s (pdBelow 4 p)
    else if p = 84 ∨ p = 91 then applyAll State.toReset s (pdBelow 4 p) else s
  s.toReset p

/-- An orderly power-down, reset or update begins: QUIESCING (R569, R590). -/
def State.quiesce (s : State) (p reason : Nat) : State :=
  if s.pdOn p then
    let s := if reason = 1 then s else s.degradeFor p false
    let s := s.setPd p { s.pd p with reason := reason }
    s.setPdState p pdQUIESCING
  else s

/-- An array domain and its slice begin a power-down (R570, R571). -/
def State.powerDown (s : State) (p : Nat) : State :=
  let s := s.quiesce p 1
  if isArrayPd p then s.quiesce (p + 8) 1 else s

/-- A power-down without quiesce (R582): the array OFF, its slice RETAINED. -/
def State.offNow (s : State) (p : Nat) : State :=
  if s.pdOn p || s.pdState p == pdQUIESCING then
    let s := s.degradeFor p false
    let s := s.partsLost p
    let s := s.setPdState p pdOFF
    if isArrayPd p && (s.pdOn (p + 8) || s.pdState (p + 8) == pdQUIESCING) then s.setPdState (p + 8) pdRETAINED else s
  else s

/-- A wake asked for while the domain was leaving ON now queues (R572, R594). -/
def State.wakePending (s : State) (p : Nat) : State :=
  if (s.pd p).wakeAfter then
    let s := s.setPd p { s.pd p with wakeAfter := false }
    s.wake p 5 [64, 0]
  else s

/-- QUIESCE_COMPLETE (R590, R569): outstanding work is done or has ended with RETRY; OFF (a slice RETAINED) after a
power-down, IN_RESET after a reset or an update. -/
def execQuiesceComplete (p : Fin 98) (s : State) : Res :=
  .next <| guardS (s.pdState p.val == pdQUIESCING) s fun s =>
    let x := s.pd p.val
    if x.reason == 1 then
      if isSlicePd p.val then
        if s.pdState (p.val - 8) == pdQUIESCING then s else s.setPdState p.val pdRETAINED
      else
        let s := s.partsLost p.val
        let s := s.setPdState p.val pdOFF
        let s := s.setPd p.val { x with reason := 0 }
        let s := if isArrayPd p.val && s.pdState (p.val + 8) == pdQUIESCING then s.setPdState (p.val + 8) pdRETAINED
          else s
        s.wakePending p.val
    else s.toReset p.val

/-- DOMAIN_RESET (R588, R589, R594): orderly (through QUIESCING) or at once; a second reset merges with the first. -/
def execDomainReset (p : Fin 98) (orderly : Bool) (s : State) : Res :=
  .next <|
    if orderly && s.pdOn p.val then s.quiesce p.val 2
    else s.resetNow p.val

/-- DOMAIN_RESET_COMPLETE (R569, R573): the domain leaves IN_RESET and its wake is queued ahead of every other. -/
def execDomainResetComplete (p : Fin 98) (s : State) : Res :=
  .next <| guardS (s.pdState p.val == pdRESET) s fun s =>
    let s := s.setPd p.val { s.pd p.val with reason := 0, wakeAfter := false }
    let s := s.setPdState p.val pdQUEUED
    s.enqueue (dieOfPd p.val) { unit := p.val, order := 1, rank := [64, 0] }

/-- WAKE_COMPLETE (R574): the domain is ON, an array in ramp state OFF, a slice from OFF with every granule FREE; a reset
asked for meanwhile follows at once (R594). -/
def execWakeComplete (p : Fin 98) (s : State) : Res :=
  .next <| guardS (s.pdState p.val == pdWAKING) s fun s =>
    let x := s.pd p.val
    let s := s.setPdState p.val pdON
    let s := s.setPd p.val { x with attempts := 0, rstAfter := false }
    let s := if isArrayPd p.val then
        let a := arrayOfPd p.val
        let s := s.setArr a { s.arr a with ramp := .off, idleOff := 0 }
        if s.arrayWanted a then s.askRamp a (s.orderOn a) else s
      else if isSlicePd p.val then s.sliceBack (arrayOfPd (p.val - 8)) else s
    if x.rstAfter then s.toReset p.val else s

/-- DOMAIN_FAILURE (R569): a switch or rail fault, or a wake attempt that failed: the third such attempt, and every
switch or rail fault, makes the domain FAILED until main power is next applied; its children leave ON first. -/
def execDomainFailure (p : Fin 98) (attempt : Bool) (s : State) : Res :=
  .next <|
    let x := s.pd p.val
    let st := s.pdState p.val
    if st == pdFAILED || !s.power.mainOn then s
    else if attempt && !(st == pdWAKING) then s
    else if attempt && decide (x.attempts + 1 < 3) then s.setPd p.val { x with attempts := x.attempts + 1 }
    else
      let n := s.coursesOn p.val
      let s := applyAll State.toReset s (pdBelow 4 p.val)
      let s := if s.pdOn p.val || st == pdQUIESCING || st == pdRETAINED then
          (s.degradeFor p.val true).partsLost p.val else s
      let l := s.ledger (dieOfPd p.val)
      let s := s.setLedger (dieOfPd p.val) { l with queue := l.queue.filter fun q => q.ramp || q.unit != p.val }
      let s := s.setPdState p.val pdFAILED
      let spokes := decide ((85 ≤ p.val ∧ p.val ≤ 88) ∨ (92 ≤ p.val ∧ p.val ≤ 95))
      let s := if spokes && (s.o Od.indexState == 3 || s.o Od.indexState == 4) then s.indexFailed else s
      s.fault1 0x2A 12 p.val 2 0 n [(16, p.val), (8, st)]

/-- HANG_WATCHDOG (R586): an access outstanding for 10 µs into a domain whose clock is stopped; the initiator's domain is
reset, the target is not. -/
def execHangWatchdog (init target : Fin 98) (s : State) : Res :=
  .next <| guardS (!s.pdOn target.val && s.pdOn init.val) s fun s =>
    let s := s.addO Od.hangResets 1
    let n := s.coursesOn init.val
    let s := s.resetNow init.val
    s.fault1 0x29 12 init.val 0 0 n [(16, init.val), (16, target.val)]

/-- PART_RESET (R604, R596): a unit inside a domain that stays ON is cleared; kind 0 dice unit, 1 mask engine, 2 pooling
unit, 3 trie unit, 4 merge top-k unit, 5 compressor, 6 decompressor, 7 spoke, 8 rim reed core; `ns` is the measured hold
of a rim reed core's duties (R597). -/
def execPartReset (kind : Fin 9) (unit : Nat) (ns : Nat) (s : State) : Res :=
  .next <|
    let k := kind.val * 256 + unit
    let e := tGet 0 s.parts.epochs k + 1
    let s := { s with parts := { s.parts with epochs := tSet 0 s.parts.epochs k e } }
    let s := s.partCleared kind.val unit
    let pk := if kind.val = 7 then 9 else if kind.val = 8 then 7 else 14
    let part := if kind.val = 7 ∨ kind.val = 8 then unit else 0x10000 + unit
    s.fault1 0x34 pk part 0 (if kind.val = 8 then ns else 0) 0 [(8, kind.val), (32, e)]

/-! ## Idle power-down (R571) -/

/-- IDLE_POWER_DOWN (R571, R572): an AUTO array domain whose array has been in ramp state OFF for 1 024 beats and is
wanted by no step, or a SerDes group whose ports are all disabled. -/
def execIdlePowerDown (p : Fin 98) (s : State) : Res :=
  .next <| guardS (s.o (Od.pdPolicy p.val) == 0 && s.pdOn p.val) s fun s =>
    if isArrayPd p.val then
      let a := arrayOfPd p.val
      let x := s.arr a
      guardS (x.ramp == .off && decide (1024 ≤ x.idleOff) && !s.arrayWanted a) s fun s => s.powerDown p.val
    else guardS ([89, 90, 96, 97].contains p.val && !s.power.serdesOn.contains p.val) s fun s => s.powerDown p.val

/-! ## Ramps (R85 to R87) -/

/-- RAMP_COMPLETE (R85, R86): the 8 stages of 4 cycles are done: FULL, or OFF. -/
def execRampComplete (a : Fin 32) (s : State) : Res :=
  .next <|
    let x := s.arr a.val
    match x.ramp with
    | .up => s.setArr a.val { x with ramp := .full }
    | .down =>
      let s := s.setArr a.val { x with ramp := .off, idleOff := 0 }
      if x.compQ.isEmpty then s else s.askRamp a.val (s.orderOn a.val)
    | _ => s

/-- RAMP_DOWN_START (R86, R87): after ARRAY_BUBBLE_FILL consecutive bubble cycles, with every issued instruction complete
or abandoned. -/
def execRampDownStart (a : Fin 32) (bubbles : Nat) (s : State) : Res :=
  .next <|
    let x := s.arr a.val
    guardS (x.ramp == .full && x.issued.isEmpty && decide (s.o Od.arrayBubbleFill ≤ bubbles)) s fun s =>
      s.setArr a.val { x with ramp := .down }

/-! ## Clocks (R577 to R581) -/

/-- The margin planner's clock of a die: the lowest planner clock among its arrays in service, never below 800. -/
def State.planOfDie (s : State) (d : Nat) : Nat :=
  max 800 (((List.range 8).filter fun i => s.arrInService (8 * d + i)).foldl
    (fun m i => min m (tGet 1200 s.power.planClk (8 * d + i))) 1500)

/-- The effective ACLK of a compute die (R577). -/
def State.effClk (s : State) (d : Nat) : Nat :=
  let m := min (min (s.planOfDie d) (s.o (Od.aclkLimitMhz d))) s.power.capClk
  let m := if s.power.throttle then min m (s.o Od.throttleMhz) else m
  let m := if s.coolHeld then min m 800 else m
  max 800 m

/-- A monitored domain's ageing history starts again (R611); monitored domain i stands at subindex i + 1. -/
def State.restartHistory (s : State) (i : Nat) : State :=
  ({ s with aged := tMod {} s.aged i fun x => { x with accum := 0, samples := 0, hist := [] } } : State).resetO (Od.floorHours i)

/-- ACLK_CHANGE (R578, R611): the decided clock of the die takes effect; where it differs, its arrays' ageing histories restart. -/
def execAclkChange (d : Fin 4) (s : State) : Res :=
  .next <|
    let old := s.o (Od.aclkMhz d.val)
    let new := s.effClk d.val
    let s := s.setO (Od.aclkMhz d.val) new
    if old = new then s else applyAll State.restartHistory s ((List.range 8).map fun i => 8 * d.val + i)

/-- FAST_POWER_COMPARATOR (R580): the 1 µs average, in W, exceeds 1.15 × POWER_LIMIT_W. -/
def execFastPowerComparator (avgW : Nat) (s : State) : Res :=
  .next <| guardS (decide (115 * s.o Od.powerLimitW < 100 * avgW)) s fun s =>
    { s with power := { s.power with capClk := s.o Od.throttleMhz } }

/-- THROTTLE_ASSERT (R581, R642): the filtered input asserts on a pin that carries the function, with main power on. -/
def execThrottleAssert (s : State) : Res :=
  .next <| guardS (s.pinWith 5 && s.power.mainOn && !s.power.throttle) s fun s =>
    let s := { s with power := { s.power with throttle := true } }
    (s.setO Od.throttleActive 1).addO Od.throttleEvents 1

/-- THROTTLE_DEASSERT (R581, R642). -/
def execThrottleDeassert (s : State) : Res :=
  .next <| guardS s.power.throttle s fun s =>
    let s := { s with power := { s.power with throttle := false } }
    s.setO Od.throttleActive 0

/-- POWER_LIMIT_UPDATE at a boundary (R655): from the inlet temperature averaged over the beat, in 0.1 °C. -/
def State.powerLimitUpdate (s : State) (tAvg : Int) : State :=
  let excess := if 400 < tAvg then (min tAvg 450 - 400).toNat else 0
  s.setO Od.powerLimitW (1800 - 10 * excess)

/-- POWER_CAP_STEP at a boundary (R579). -/
def State.powerCapStep (s : State) : State :=
  let w := s.o Od.mainInputW
  let lim := s.o Od.powerLimitW
  if lim < w then
    { s with power := { s.power with capClk := max 800 (s.power.capClk - 50), below95 := 0 } }
  else if 100 * w < 95 * lim then
    if 64 ≤ s.power.below95 + 1 then
      { s with power := { s.power with capClk := min 1500 (s.power.capClk + 50), below95 := 0 } }
    else { s with power := { s.power with below95 := s.power.below95 + 1 } }
  else { s with power := { s.power with below95 := 0 } }

/-! ## Coolant and temperature (R582, R656) -/

/-- The record of an interlock event: COOLANT_FLOW, INLET_TEMP, opened (0) or closed (1). -/
def State.interlockRec (s : State) (closed : Bool) : State :=
  s.record 0x13 0 (dataDown [(16, s.o Od.coolantFlow), (16, s.o Od.inletTemp), (8, b2n closed)])

/-- COOLANT_INTERLOCK_OPEN (R582): flow (mL/min) below FLOW_MIN for 100 ms. -/
def execCoolantInterlockOpen (flow : Nat) (s : State) : Res :=
  .next <| guardS (decide (flow < s.o Od.flowMin) && !s.interlockOpen) s fun s =>
    let s := s.setO Od.coolantFlow flow
    let s := (s.setO Od.coolantInterlock 0).addO Od.interlockOpens 1
    s.interlockRec false

/-- COOLANT_INTERLOCK_CLOSE (R582): wakes and ramp-ups are granted again. -/
def execCoolantInterlockClose (flow : Nat) (s : State) : Res :=
  .next <| guardS (decide (s.o Od.flowMin ≤ flow) && s.interlockOpen && s.power.stbyOn) s fun s =>
    let s := s.setO Od.coolantFlow flow
    let s := s.setO Od.coolantInterlock 1
    let s := { s with power := { s.power with downBy582 := s.power.downBy582 && s.power.inletHot } }
    s.interlockRec true

/-- INTERLOCK_OPEN_TIMEOUT (R582): still held 2 s after it opened: every array domain is quiesced and powered down, and the
running courses go to REPLAY with no fault replay counted. -/
def execInterlockOpenTimeout (s : State) : Res :=
  .next <| guardS s.coolHeld s fun s =>
    let s := applyAll (fun s a => if s.pdOn (pdArray a) then (s.degradeFor (pdArray a) false).powerDown (pdArray a) else s)
      s (List.range 32)
    { s with power := { s.power with downBy582 := true } }

/-- INLET_OVER_MAX (R582, R655): as for an opened interlock. -/
def execInletOverMax (temp : Int) (s : State) : Res :=
  .next <| guardS (decide (i16 (s.o Od.inletMax) < temp) && !s.power.inletHot) s fun s =>
    let s := s.setO Od.inletTemp (ofI16 temp)
    let s := { s with power := { s.power with inletHot := true } }
    (s.addO Od.interlockOpens 1).interlockRec false

/-- INLET_TEMP_RECOVERED (R656): at or below INLET_MAX for 100 ms. -/
def execInletTempRecovered (temp : Int) (s : State) : Res :=
  .next <| guardS (decide (temp ≤ i16 (s.o Od.inletMax)) && s.power.inletHot) s fun s =>
    let s := s.setO Od.inletTemp (ofI16 temp)
    { s with power := { s.power with inletHot := false, downBy582 := s.power.downBy582 && s.interlockOpen } }

/-- THERMAL_TRIPS counts, and ALERT_N is held low for 10 ms (R641). -/
def State.tripCount (s : State) : State :=
  (({ s with pins := { s.pins with alertPulse := true } } : State).addO Od.thermalTrips 1)

/-- THERMAL_TRIP_DIE (R582): hottest sensor of a compute die at or above 105.0 °C (temperatures in 0.1 °C). -/
def execThermalTripDie (d : Fin 4) (temp : Int) (s : State) : Res :=
  .next <| guardS (decide (1050 ≤ temp) && !s.power.tripped.contains d.val) s fun s =>
    let s := s.setO (Od.dieTemp d.val) (ofI16 temp)
    let s := applyAll (fun s i => s.offNow (21 * d.val + i)) s (List.range 8)
    let s := { s with power := { s.power with tripped := d.val :: s.power.tripped } }
    s.tripCount

/-- THERMAL_TRIP_CLEAR (R582): the die is below 95.0 °C. -/
def execThermalTripClear (d : Fin 4) (temp : Int) (s : State) : Res :=
  .next <| guardS (decide (temp < 950)) s fun s =>
    let s := s.setO (Od.dieTemp d.val) (ofI16 temp)
    { s with power := { s.power with tripped := s.power.tripped.filter fun x => x != d.val } }

/-- THERMAL_TRIP_MODULE (R582): any die at or above 115.0 °C: every switched domain powers down, and start-up resumes at its
coolant check only when main power is next applied. -/
def execThermalTripModule (d : Fin 6) (temp : Int) (s : State) : Res :=
  .next <| guardS (decide (1150 ≤ temp) && s.power.mainOn && !s.power.moduleTrip) s fun s =>
    let s := s.setO (Od.dieTemp d.val) (ofI16 temp)
    let s := s.tripCount
    let s := s.record 0x14 d.val (dataDown [(16, d.val), (16, ofI16 temp)])
    let s := s.mainLost
    let s := { s with power := { s.power with moduleTrip := true }, boot := { s.boot with awaitMain := true } }
    s.setO Od.bootStep 4

/-! ## Links (R583, R597, R607) -/

/-- ETHERNET_LINK_DOWN (R583, R587): the port's recovered clock stops and its crossings reset. -/
def execEthernetLinkDown (port : Fin 2) (s : State) : Res :=
  .next { s with power := { s.power with ethUp := setBitTo s.power.ethUp port.val false } }

/-- ETHERNET_LINK_UP (R583). -/
def execEthernetLinkUp (port : Fin 2) (s : State) : Res :=
  .next <| guardS (s.pdOn 89) s fun s =>
    { s with power := { s.power with ethUp := setBitTo s.power.ethUp port.val true } }

/-- A hold's length enters LONGEST_INTERRUPTION (R598). -/
def State.interrupted (s : State) (ns : Nat) : State :=
  s.setO Od.longestInterruptionNs (max (s.o Od.longestInterruptionNs) ns)

/-- A retry on a link counts towards a storm of 1 000 in one beat (kind 0x26, R614). -/
def State.retryCount (s : State) (pk l : Nat) : State :=
  let k := pk * 65536 + l
  let n := tGet 0 s.parts.retries k + 1
  let s := { s with parts := { s.parts with retries := tSet 0 s.parts.retries k n } }
  if n = 1000 then s.faultRec 0x26 pk l 0 0 0 [(16, n)] else s

/-- SPINE_FLIT_RESEND (R597, R596): the flit is sent again; a single fault whose hold lasted ns (DESIGN CHOICE; log entry 17). -/
def execSpineFlitResend (inst : Nat) (ns : Nat) (s : State) : Res :=
  .next ((s.retryCount 5 inst).fault1 0x26 5 inst 0 ns 0 [(16, 1)])

/-- D2D_FLIT_RETRY (R597): a replay after a CRC failure; a corrected error, counted in LINK_RETRIES. -/
def execD2dFlitRetry (inst : Nat) (ns : Nat) (s : State) : Res :=
  .next (((s.addO Od.linkRetries 1).retryCount 6 inst).interrupted ns)

/-- UCIe modules of a die-to-die link: 5 on a rim link, 10 elsewhere (R156, R159). -/
def d2dModules (inst : Nat) : Nat := if inst / 4096 < 4 ∧ inst % 4096 < 2 then 10 else 5

/-- LINK_LANE_REPAIR (R607): a lane of a module failed three retries: a redundant lane replaces it; with none left (0 of
`spare`) the module is disabled, and with fewer than half its modules left the link is FAILED. -/
def execLinkLaneRepair (inst module lane spare : Nat) (ns : Nat) (s : State) : Res :=
  .next <|
    let left := tGet spare s.parts.lanes (inst * 16 + module)
    let up := tGet (d2dModules inst) s.parts.modules inst
    if 0 < left then
      let s := { s with parts := { s.parts with lanes := tIns (inst * 16 + module) (left - 1) s.parts.lanes } }
      s.fault1 0x27 6 inst 0 ns 0 [(16, module), (16, lane), (16, left - 1)]
    else
      let s := { s with parts := { s.parts with modules := tIns inst (up - 1) s.parts.modules } }
      if 2 * (up - 1) < d2dModules inst then
        let s := { s with parts := { s.parts with failedLinks := inst :: s.parts.failedLinks } }
        (s.linkLost inst).fault1 0x28 6 inst 2 ns 0 [(16, up - 1)]
      else s.fault1 0x27 6 inst 1 ns 0 [(16, module), (16, lane), (16, 0)]

end Sys2Proof.Machine
end

