-- ==== Sys2Proof/Machine/Array.lean ====
section
/-!
DEFINITION. The matrix arrays' ports, queues and instructions (03_matrix_arrays.md; 04_array_instructions.md R102 to R141;
10_sampling_topk_random.md R302 to R308).  A load takes its data at execution and a compute instruction has its whole effect at
issue; what ends later, its completion, is INSTRUCTION_COMPLETE (DESIGN CHOICE; log entry 22).
-/
namespace Sys2Proof.Machine

/-! ## Routes of a core's accesses (R147, R154 to R157) -/

/-- The links from router r1 to router r2 of a die: along the row ring, the shorter way with ties east, then the cross link. -/
def spinePath (d r1 r2 : Nat) : List (Nat × Nat) :=
  let row := r1 / 4 * 4
  let dx := (r2 % 4 + 4 - r1 % 4) % 4
  let link (r dir : Nat) : Nat × Nat := (1, 4096 * d + 3 * r + dir)
  let ring := match dx with
    | 0 => []
    | 1 => [link r1 0]
    | 2 => [link r1 0, link (row + (r1 + 1) % 4) 0]
    | _ => [link r1 1]
  ring ++ (if r1 / 4 = r2 / 4 then [] else [link (row + r2 % 4) 2])

/-- The links between two compute dies' routers: horizontal link first. -/
def dieRoute (d1 r1 d2 r2 : Nat) : List (Nat × Nat) :=
  let h := d1 % 2 != d2 % 2
  let v := d1 / 2 != d2 / 2
  let mid := Nat.xor d1 1
  match h, v with
  | false, false => spinePath d1 r1 r2
  | true, false => spinePath d1 r1 3 ++ [(4, 4096 * d1)] ++ spinePath d2 3 r2
  | false, true => spinePath d1 r1 7 ++ [(4, 4096 * d1 + 1)] ++ spinePath d2 7 r2
  | true, true => spinePath d1 r1 3 ++ [(4, 4096 * d1)] ++ spinePath mid 3 7 ++ [(4, 4096 * mid + 1)] ++ spinePath d2 7 r2

/-- The router of a compute core's cluster (R142, R154). -/
def coreRouter (c : Nat) : Nat := if c % 32 < 16 then 2 else 6

/-- Whether a live table has a slot of an owner. -/
def State.ownsSlot (s : State) (kind inst owner : Nat) : Bool :=
  !s.slots.idled.contains (kind * 65536 + inst) &&
    s.slots.live.any fun e => e.1 / 256 == kind * 65536 + inst && e.2 == owner

/-- Whether a core's access goes ahead under its SPINE_OWNER: SERVICE has slots on every link, another owner needs one on each link of
the route; accesses of and to rim cores are not constrained in this model (DESIGN CHOICE; log entry 23). -/
def State.mayGo (s : State) (c : Nat) (acc : Access) : Bool :=
  let o := (s.core c).owner
  let route := match acc with
    | .header a _ => if c < 128 then dieRoute (c / 32) (coreRouter c) (a / 8) (a % 8) else []
    | .word a _ _ => if c < 128 then dieRoute (c / 32) (coreRouter c) (a / 8) (a % 8) else []
    | .post t _ _ _ => if c < 128 ∧ t < 128 then dieRoute (c / 32) (coreRouter c) (t / 32) (coreRouter t) else []
  o == 0x3FF || route.all fun l => s.ownsSlot l.1 l.2 o

/-! ## Acceptance (R106 to R109, R135) -/

/-- Whether epoch e is older than f, in 16-bit serial order (R135; DEDUCED; log entry 24). -/
def epochOlder (e f : Nat) : Bool := e != f && decide ((f + 65536 - e) % 65536 < 32768)

/-- The rank of the step an array runs, for its ramp-up (R573). -/
def State.rampRank (s : State) (a r : Nat) : List Nat :=
  match (s.stake (s.res a r).stake).step with
  | some k => (s.step_ k).order
  | none => [64, 0]

/-- A new epoch becomes the resident's active epoch, and its counters with an older epoch are cleared (R135). -/
def Arr.newEpoch (x : Arr) (r ep : Nat) : Arr :=
  let newer := match tGet none x.actEp r with
    | none => true
    | some e => epochOlder e ep
  if !newer then x else
  let old (k : Nat) : Bool := k / 16 == r && epochOlder (tGet 0 x.syncEp k) ep
  { x with actEp := tIns r (some ep) x.actEp, sync := tDrop old x.sync, syncEp := tDrop old x.syncEp }

/-- The first word of a bundle that does not fit its queue. -/
def firstOver : Nat → Nat → Nat → List Nat → Option Nat
  | _, _, _, [] => none
  | i, l, c, w :: ws =>
    if isLoadWord w then (if l = 0 then some i else firstOver (i + 1) (l - 1) c ws)
    else (if c = 0 then some i else firstOver (i + 1) l (c - 1) ws)

/-- The last word of a bundle has arrived: the bundle is checked whole and enters both queues, or is refused (R107). -/
def State.acceptBundle (s : State) (a : Nat) (h : Nat) (ws : List Nat) : State :=
  let x := s.arr a
  let b : Bundle := { key := x.nextKey, header := h, left := ws.length }
  let r := hRes h
  let refuse (code word : Nat) : State :=
    let s := s.postStatus a { b with status := code, word := word }
    if code = stQFULL then s else s.instrFault a r (hEpoch h) code word
  if !headerOk h then refuse stENCODING 0
  else if !(s.res a r).used then refuse stACCESS 0
  else
    let cs := ws.map fun w => s.acceptWord a (s.res a r) (hPriv h) w
    match cs.findIdx? fun c => c.1 != 0 with
    | some i => refuse (cs.getD i (0, [])).1 (i + 1)
    | none =>
      match firstOver 1 (64 - x.loadQ.length) (64 - x.compQ.length) ws with
      | some i => refuse stQFULL i
      | none =>
        let qs := (applyAll (fun (q : List QWord × Nat) (p : Nat × (Nat × List Nat)) =>
          (q.1 ++ [{ word := p.1, descs := p.2.2, bundle := x.nextKey, idx := q.2, res := r, epoch := hEpoch h }], q.2 + 1))
          (([] : List QWord), 1) (ws.zip cs)).1
        let x := x.newEpoch r (hEpoch h)
        let s := s.setArr a { x with
          loadQ := x.loadQ ++ qs.filter fun q => isLoadWord q.word
          compQ := x.compQ ++ qs.filter fun q => !isLoadWord q.word
          bundles := x.bundles ++ [b], nextKey := x.nextKey + 1 }
        if (qs.any fun q => !isLoadWord q.word) && x.ramp == .off then s.askRamp a (s.rampRank a r) else s

/-- A 16-byte word reaches a bundle port (R106): it locks an open port, is the next word of the lock's own writer, or is a header of
another writer, answered PORT_BUSY; any other word is dropped (DEDUCED; log entry 25). -/
def State.portWord (s : State) (a c w : Nat) : State :=
  let x := s.arr a
  if !s.pdOn (pdArray a) then s else
  match x.port with
  | none =>
    if wOp w != 0xF0 then s
    else if hCount w = 0 then s.acceptBundle a w []
    else s.setArr a { x with port := some { core := c, header := w } }
  | some l =>
    if l.core = c then
      let ws := l.words ++ [w]
      if ws.length < hCount l.header then s.setArr a { x with port := some { l with words := ws } }
      else (s.setArr a { x with port := none }).acceptBundle a l.header ws
    else if wOp w = 0xF0 then s.postStatus a { header := w, status := stBUSY }
    else s

/-- A write into a post window (R151): 16 bytes at offset 16m post to mailbox m, anything else is dropped and counted. -/
def State.postWrite (s : State) (t off bytes w : Nat) : State :=
  if bytes = 16 ∧ off % 16 = 0 ∧ off / 16 < 8 then (if s.pdOn (pdCore t) then s.post t (off / 16) 0x03 w else s)
  else s.addO Od.bundlePortBadWriteCount 1

/-- An access has its effect at its target (R145, R146, R151). -/
def State.doAccess (s : State) (c : Nat) (acc : Access) : State :=
  match acc with
  | .header a w => s.portWord a c w
  | .word a bytes w => if bytes = 16 then s.portWord a c w else s.addO Od.bundlePortBadWriteCount 1
  | .post t off bytes w => s.postWrite t off bytes w

/-- An access leaves a core: it goes ahead or is held (R147); a core whose access is held makes none. -/
def State.access (s : State) (c : Nat) (acc : Access) : State :=
  let x := s.core c
  if !s.pdOn (pdCore c) || x.held.isSome then s
  else if s.mayGo c acc then s.doAccess c acc
  else s.setCore c { x with held := some acc }

/-- What firmware stores before it issues a bundle (R110, R176): dynamic descriptor entries, key-value entries of the stack-window map,
and bytes in the near window (row attribute words, skein positions). -/
def State.prepare (s : State) (a r : Nat) (ds kv : List (Nat × Nat)) (fill : List (Nat × List Byte)) : State :=
  let x := s.res a r
  if !x.used then s else
  let x := { x with
    descs := applyAll (fun (t : Tbl Nat) e => if 3584 ≤ e.1 ∧ e.1 < 4096 then tSet 0 t e.1 (e.2 % 2 ^ 256) else t) x.descs ds
    stackMap := applyAll (fun (t : Tbl Nat) e =>
      let old := tGet 0 t e.1
      if e.1 < 65536 ∧ (old = 0 ∨ old / 2 ^ 30 = 2) ∧ (e.2 = 0 ∨ e.2 / 2 ^ 30 = 2) then tSet 0 t e.1 e.2 else t) x.stackMap kv }
  applyAll (fun s (f : Nat × List Byte) => s.putRes a x f.1 f.2) (s.setRes a r x) fill

/-- BUNDLE (R105, R106): core c writes a header to the port of array a; before it, firmware has filled the resident's dynamic entries. -/
def execBundle (a : Fin 32) (c : Fin 144) (w : Nat) (ds kv : List (Nat × Nat)) (fill : List (Nat × List Byte)) (s : State) : Res :=
  .next ((s.prepare a.val (hRes w) ds kv fill).access c.val (.header a.val (w % 2 ^ 128)))

/-- BUNDLE_WORD_WRITE (R146, R107): core c writes `bytes` bytes to the port of array a. -/
def execBundleWordWrite (a : Fin 32) (c : Fin 144) (bytes w : Nat) (s : State) : Res :=
  .next (s.access c.val (.word a.val bytes (w % 2 ^ 128)))

/-- BUNDLE_PORT_TIMEOUT (R106): 256 SCLK cycles without a word: the partial bundle is discarded and its writer gets INCOMPLETE. -/
def execBundlePortTimeout (a : Fin 32) (s : State) : Res :=
  .next <| match (s.arr a.val).port with
  | none => s
  | some l => (s.setArr a.val { s.arr a.val with port := none }).postStatus a.val { header := l.header, status := stINCOMPLETE }

/-- BUNDLE_COMPLETE (R109): every word of a bundle has issued and completed: its status is posted. -/
def execBundleComplete (a : Fin 32) (key : Nat) (s : State) : Res :=
  .next <|
    let x := s.arr a.val
    match x.bundles.find? fun b => b.key == key && b.left == 0 with
    | none => s
    | some b => (s.setArr a.val { x with bundles := x.bundles.filter fun c => c.key != key }).postStatus a.val b

/-! ## Loads (R115 to R118, R191 to R193) -/

/-- Whether an array may issue a word: its domain is ON, and its resident and epoch have not stopped (R139). -/
def State.mayIssue (s : State) (a : Nat) (q : QWord) : Bool :=
  s.pdOn (pdArray a) && s.pdOn (pdSlice a) && !(s.arr a).stop.contains (q.res * 65536 + q.epoch)

/-- One word of a bundle has completed. -/
def Arr.wordDone (x : Arr) (key : Nat) : Arr :=
  { x with bundles := x.bundles.map fun b => if b.key == key then { b with left := b.left - 1 } else b }

/-- A run-time outcome of a word (R139), and what firmware does about it (R140). -/
def State.wordFault (s : State) (a : Nat) (q : QWord) (code : Nat) : State :=
  (s.endBundle a q.bundle code q.idx).instrFault a q.res q.epoch code q.idx

/-- The counter a load waits for (R115). -/
def loadCtr (w : Nat) : Option Nat :=
  match wOp w with
  | 1 => if bitAt w 99 then some (bits w 98 95) else none
  | 2 => if bitAt w 98 then some (bits w 97 94) else none
  | _ => if bitAt w 94 then some (bits w 93 90) else none

/-- Sync counters of a resident. -/
def Arr.ctr (x : Arr) (r c : Nat) : Nat := tGet 0 x.sync (r * 16 + c)
def Arr.setCtr (x : Arr) (r c v : Nat) : Arr := { x with sync := tSet 0 x.sync (r * 16 + c) v }

/-- The pieces of the stack window a byte run touches: page and piece. -/
def State.piecesOf (s : State) (a : Nat) (r : Resident) (run : Nat × Nat) : List (Nat × Nat) :=
  if run.2 = 0 then [] else
  ((List.range ((run.1 + run.2 - 1) / 2 ^ 16 - run.1 / 2 ^ 16 + 1)).filterMap fun i =>
    match s.locate a r ((run.1 / 2 ^ 16 + i) * 2 ^ 16) with
    | .stack p o => some (p, o / 2 ^ 16)
    | _ => none).eraseDups

/-- The pieces a load reads. -/
def State.loadPieces (s : State) (a : Nat) (r : Resident) (q : QWord) : List (Nat × Nat) :=
  let d := q.descs.getD 0 0
  let k := match wOp q.word with
    | 1 => 1
    | 2 => 2
    | _ => 4
  ((descRuns k d).flatMap fun x => s.piecesOf a r x).eraseDups

/-- Bytes of some runs that lie in pieces not TIERED in the reader's own slice, in whole 256-byte lines. -/
def State.missRuns (s : State) (a : Nat) (r : Resident) (runs : List (Nat × Nat)) : Nat :=
  (runs.map fun run =>
    if (s.piecesOf a r run).any fun p => (s.tieredIn a p.1 p.2).isNone then
      ((run.1 + run.2 + 255) / 256 - run.1 / 256) * 256 else 0).sum

/-- The bytes a load misses (R191). -/
def State.missBytes (s : State) (a : Nat) (r : Resident) (q : QWord) : Nat :=
  s.missRuns a r (descRuns (match wOp q.word with
    | 1 => 1
    | 2 => 2
    | _ => 4) (q.descs.getD 0 0))

/-- The byte runs of a compute word's VECTOR reads: the bias of an MMA or an IMPORT, the gain and the offset of a NORM. -/
def QWord.vecRuns (q : QWord) : List (Nat × Nat) :=
  let w := q.word
  let run (k n : Nat) : Nat × Nat := (dElem (q.descs.getD k 0), 4 * n)
  match wOp w with
  | 0x10 => if mBias w then [run (q.descs.length - 1) (dN (q.descs.getD 2 0))] else []
  | 0x11 => if mBias w then [run (q.descs.length - 1) (dN (q.descs.getD 1 0))] else []
  | 0x22 => (if bitAt w 61 then [run 2 (bits w 26 11)] else []) ++
      (if bitAt w 60 then [run (if bitAt w 61 then 3 else 2) (bits w 26 11)] else [])
  | _ => []

/-- The pieces of the stack window a compute word's VECTOR reads take. -/
def State.vecPieces (s : State) (a : Nat) (q : QWord) : List (Nat × Nat) :=
  (q.vecRuns.flatMap fun x => s.piecesOf a (s.res a q.res) x).eraseDups

/-- Whether every byte a compute word's VECTOR reads take is in near store (R191). -/
def State.vecsIn (s : State) (a : Nat) (q : QWord) : Bool :=
  !((s.vecPieces a q).any fun p => s.mem.refetch.any fun e => e.1 == p.1) &&
    (s.missRuns a (s.res a q.res) q.vecRuns == 0 || (s.arr a).vecs == some (q.bundle, q.idx))

/-- Access events of the pieces a read takes (R184). -/
def State.touchPieces (s : State) (a : Nat) (ps : List (Nat × Nat)) : State :=
  applyAll (fun s (p : Nat × Nat) =>
    let s := s.touchPage p.1 p.2
    match s.tieredIn a p.1 p.2 with
    | some g => s.touchGran g
    | none => s) s ps

/-- The access events of a compute word's VECTOR reads. -/
def State.readVecs (s : State) (a : Nat) (q : QWord) : State := s.touchPieces a (s.vecPieces a q)

/-- A compute word waits for its vectors: the on-demand fetch starts when the engine is free and their pages are there (R191, R205). -/
def State.fetchVecs (s : State) (a : Nat) (q : QWord) : State :=
  let x := s.arr a
  if x.fetch.isSome || (s.vecPieces a q).any (fun p => s.mem.refetch.any fun e => e.1 == p.1) then s else
  let miss := s.missRuns a (s.res a q.res) q.vecRuns
  let s := s.setArr a { x with fetch := some { q := q, bytes := miss } }
  (s.addO Od.ondemandFetches 1).addO Od.ondemandBytes miss

/-- Whether a piece's page is being fetched again from its origin: loads of it wait (R205). -/
def State.pageGone (s : State) (p : Nat) : Bool := s.mem.refetch.any fun e => e.1 == p

/-- Whether the target of a load is free: the shadow, its half, or its skein half with room for the entries (R116 to R118). -/
def Arr.targetFree (x : Arr) (q : QWord) : Bool :=
  let w := q.word
  match wOp w with
  | 1 => x.shadow.isNone
  | 2 => (if bitAt w 99 then x.half1 else x.half0).desc.isNone
  | _ =>
    let h := if bitAt w 99 then x.sk1 else x.sk0
    let others := if h.used then 0 else
      ((h.tiles.filter fun e => e.1 != bits w 98 95).map fun e => e.2.entries.length).sum
    (h.used || h.tiles.isEmpty || (h.res == q.res && h.epoch == q.epoch)) && decide (others + dEntries (q.descs.getD 0 0) ≤ 32768)

/-- A load writes its target and completes. -/
def State.finishLoad (s : State) (a : Nat) (q : QWord) : State :=
  let r := s.res a q.res
  let d := q.descs.getD 0 0
  let s := s.touchPieces a (s.loadPieces a r q)
  let x := s.arr a
  match wOp q.word with
  | 1 => s.setArr a ({ x with shadow := some (s.readTile a r d q.res q.epoch) }.wordDone q.bundle)
  | 2 =>
    let h := s.readStream a r d q.res q.epoch
    if h.attrs.any fun e => bits e.2 25 0 != 0 then s.wordFault a q stDESC
    else s.setArr a ((if bitAt q.word 99 then { x with half1 := h } else { x with half0 := h }).wordDone q.bundle)
  | _ =>
    let t := s.readSkein a r d
    let put (h : SkHalf) : SkHalf :=
      let h : SkHalf := if h.used || h.res != q.res || h.epoch != q.epoch then {} else h
      { h with tiles := tIns (bits q.word 98 95) t h.tiles, res := q.res, epoch := q.epoch }
    s.setArr a ((if bitAt q.word 99 then { x with sk1 := put x.sk1 } else { x with sk0 := put x.sk0 }).wordDone q.bundle)

/-- The head of the load queue starts (R104, R116 to R118): it waits for its engine, its target and its counter, and when some of its
bytes are not in near store, for an on-demand fetch (R191). -/
def State.startLoad (s : State) (a op : Nat) : State :=
  let x := s.arr a
  match x.loadQ with
  | [] => s
  | q :: rest =>
    let r := s.res a q.res
    let ok := match loadCtr q.word with
      | some c => decide (1 ≤ x.ctr q.res c)
      | none => true
    if wOp q.word != op || x.fetch.isSome || !s.mayIssue a q || !x.targetFree q || !ok ||
      (s.loadPieces a r q).any (fun p => s.pageGone p.1) then s
    else
      let x := match loadCtr q.word with
        | some c => x.setCtr q.res c (x.ctr q.res c - 1)
        | none => x
      let x := { x with loadQ := rest }
      let miss := s.missBytes a r q
      if miss = 0 then (s.setArr a x).finishLoad a q
      else
        let s := s.setArr a { x with fetch := some { q := q, bytes := miss } }
        (s.addO Od.ondemandFetches 1).addO Od.ondemandBytes miss

/-- TLOAD (R115, R116, R73, R80). -/
def execTload (a : Fin 32) (s : State) : Res := .next (s.startLoad a.val 0x01)

/-- FEED (R115, R117). -/
def execFeed (a : Fin 32) (s : State) : Res := .next (s.startLoad a.val 0x02)

/-- SKLD (R115, R118). -/
def execSkld (a : Fin 32) (s : State) : Res := .next (s.startLoad a.val 0x03)

/-- FETCH_COMPLETE (R191, R194): the last byte is in near store, and the waiting load starts, or the compute word that waits for its
vectors may issue; the TRANSIT granules are free again. -/
def execFetchComplete (a : Fin 32) (s : State) : Res :=
  .next <| match (s.arr a.val).fetch with
  | none => s
  | some f =>
    if decide (0x10 ≤ wOp f.q.word) then
      s.setArr a.val { s.arr a.val with fetch := none, vecs := some (f.q.bundle, f.q.idx) }
    else if (s.loadPieces a.val (s.res a.val f.q.res) f.q).any (fun p => s.pageGone p.1) || !s.pdOn (pdSlice a.val) then s
    else (s.setArr a.val { s.arr a.val with fetch := none }).finishLoad a.val f.q

/-! ## Compute instructions -/

/-- Whether a NORM is in progress: no later compute instruction issues before it completes (R130). -/
def Arr.normBusy (x : Arr) : Bool := x.issued.any fun i => i.op == 0x22

/-- The head of a compute queue with an opcode, when the array may issue it (R82 items 8 and 9). -/
def State.headOf (s : State) (a op : Nat) : Option QWord :=
  let x := s.arr a
  match x.compQ with
  | [] => none
  | q :: _ => if wOp q.word == op && x.ramp == .full && s.mayIssue a q && !x.normBusy then some q else none

/-- The head leaves the queue and is issued; it completes later. -/
def Arr.issue (x : Arr) (q : QWord) (dsig : Option Nat) : Arr :=
  { x with compQ := x.compQ.drop 1, vecs := none, issued := x.issued ++ [{ q := q, op := wOp q.word, dsig := dsig }] }

/-- The head leaves the queue and completes at once. -/
def Arr.issueDone (x : Arr) (q : QWord) : Arr := ({ x with compQ := x.compQ.drop 1 }).wordDone q.bundle

/-- What a bundle's rows have counted so far (R137). -/
def Arr.count (x : Arr) (key mismatch numfault : Nat) (ovf : Bool) : Arr :=
  { x with bundles := x.bundles.map fun b => if b.key == key then
      { b with mismatch := b.mismatch + mismatch, numfault := b.numfault + numfault, overflow := b.overflow || ovf
               status := if b.status = 0 ∧ mismatch ≠ 0 then stCHECKSUM else b.status } else b }

/-- Channels with armed PORT jobs that still want values, in issue order (R132, R306). -/
def Arr.armed (x : Arr) : List (Nat × TkJob) :=
  let js := x.topk.filterMap fun e => match e.2 with
    | some j => if j.port && decide (j.vals.length < j.count) then some (e.1, j) else none
    | none => none
  sortBy (fun a b => decide (a.2.q.bundle < b.2.q.bundle) || (a.2.q.bundle == b.2.q.bundle && decide (a.2.q.idx < b.2.q.idx))) js

/-- Values to the earliest armed job, and on into the next when it is full (R306); a NaN counts one numeric fault on channels 0 to 2
(R308).  Answers the array and the faults. -/
def feedPort : Nat → Arr → List FP32 → Arr × Nat
  | 0, x, _ => (x, 0)
  | n + 1, x, vs =>
    match vs, x.armed with
    | [], _ => (x, 0)
    | _, [] => (x, 0)
    | _, (c, j) :: _ =>
      let k := j.count - j.vals.length
      let f := if c = 3 then 0 else ((vs.take k).filter isNan32).length
      let p := feedPort n { x with topk := tIns c (some { j with vals := j.vals ++ vs.take k }) x.topk } (vs.drop k)
      (p.1, f + p.2)

/-- The units an instruction accumulates into: FIRST needs free ones, otherwise each must hold a partial of the same resident and
epoch whose last block is the one before (R84, R121). -/
def Arr.unitsFree (x : Arr) (us : List Nat) : Bool := us.all fun u => !(tGet {} x.units u : AccUnit).held
def Arr.unitsFollow (x : Arr) (q : QWord) (us : List Nat) (block : Nat) : Bool :=
  us.all fun u => let y : AccUnit := tGet {} x.units u
    y.held && y.res == q.res && y.epoch == q.epoch && y.last + 1 == block

/-- After an instruction: its units hold its last block, or are free when it was final. -/
def Arr.markUnits (x : Arr) (q : QWord) (us : List Nat) (block : Nat) (bf16 final : Bool) : Arr :=
  { x with units := applyAll (fun (t : Tbl AccUnit) u => tSet {} t u
      (if final then {} else { held := true, res := q.res, epoch := q.epoch, last := block, bf16 := bf16 })) x.units us }

/-- Where an exported row lies in its owner's staging area: resident, address, row. -/
def stageKey (r addr m : Nat) : Nat := (r * 2 ^ 40 + addr) * 512 + m

/-- One finished row converted and written, and routed to the top-k port (R122, R133). -/
def State.emitRow (s : State) (a : Nat) (q : QWord) (o m : Nat) (sr : Bool) (ys : List FP32) : State :=
  let r := s.res a q.res
  let d := s.draws a sr ys.length
  let row := convRow (dFmt o) (mOvf q.word) d.2 ys
  let s := d.1.writeRow a r o (dN o) m row
  let x := s.arr a
  let (x, f) := if mRoute q.word = 2 then feedPort (ys.length + 8) x ys else (x, 0)
  let f := f + row.2.2
  (s.setArr a (x.count q.bundle 0 f false)).addO (Od.arrayNumfaultCount a) f

/-- The final stages of row m (R88, R122), counted in its bundle; whether it failed its check. -/
def State.finalRow (s : State) (a : Nat) (q : QWord) (o row m : Nat) (bf16 sr : Bool) (bias : List FP32) : State × Nat :=
  let out := (s.arr a).finish row (dN o) (q.res * 512 + m) bf16 q.word bias
  let k := q.res * 512 + m
  let x := out.arr
  let x := { x with rows := tSet {} x.rows k { (tGet {} x.rows k : RowState) with sr := sr } }
  let s := s.setArr a (x.count q.bundle out.mismatch out.numfault out.overflow)
  let s := s.addO (Od.arrayNumfaultCount a) out.numfault
  (s.emitRow a q o m sr out.outs, out.mismatch)

/-- The bias vector of an instruction. -/
def State.biasOf (s : State) (a : Nat) (q : QWord) (n : Nat) : List FP32 :=
  let r := s.res a q.res
  if mBias q.word then (List.range n).map fun i => s.resF32 a r (dElem (q.descs.getLastD 0) + 4 * i) else []

/-- A value with some of its bits upset by the hardware (what the checksum finds, R97). -/
def upset (fl : List (Nat × Nat)) (m n : Nat) (v : FP32) : FP32 :=
  match fl.find? fun f => f.1 == m * 256 + n with
  | some f => v ^^^ BitVec.ofNat 32 f.2
  | none => v

/-- Whether every row that carries a skein finds its tile in the skein half (R82 item 5). -/
def skeinsReady (h : SHalf) (sk : SkHalf) (q : QWord) (rows : Nat) : Bool :=
  (List.range rows).all fun m => match atSkein (tGet 0 h.attrs m) with
    | some p => tHas sk.tiles p && sk.res == q.res && sk.epoch == q.epoch
    | none => true

/-- The rows of an issued MMA (R122). -/
def State.mmaRows (s : State) (a : Nat) (q : QWord) (h : SHalf) (t : Tile) (sk : SkHalf) (fl : List (Nat × Nat)) : State :=
  let w := q.word
  let r := s.res a q.res
  let xd := q.descs.getD 0 0
  let o := q.descs.getD 1 0
  let n := dN (q.descs.getD 2 0)
  let bf16 := dFmt xd == 7 && t.fmt == 7
  let bias := s.biasOf a q n
  let s := s.rngDone (a / 4) (a % 4)
  let one (st : State × Nat) (m : Nat) : State × Nat :=
    let s := st.1
    let att := tGet 0 h.attrs m
    let tile := if mSken w then (atSkein att).map fun p => tGet {} sk.tiles p else none
    let bs := (List.range 256).map fun c => blockSum h t m c
    let sums := (List.range 256).map fun c => upset fl m c (bs.getD c (0, false)).1
    let d := tile.map fun k => (List.range 256).map fun c => skeinSum h k m c
    let rb := refOf h t tile m (dK xd)
    let ovf := bs.any (·.2)
    if mRoute w = 1 then
      let tgt := dOwner o
      let rt := (s.residentOf r.stake tgt).getD q.res
      let st2 : Staged := { sums := sums, sk := d, ref := rb.1, mag := rb.2, bf16 := bf16 }
      ({ s.setArr a ((s.arr a).count q.bundle 0 0 ovf) with
          incrs := s.incrs ++ [{ target := tgt, res := rt, ctr := dSctr o, value := 1, epoch := q.epoch
                                 staged := some (stageKey rt (dElem o) m, st2) }] }, st.2)
    else
      let row := (r.accBase + mAccBase w) * 16 + m
      let (x, ov) := (s.arr a).accumulate row (mFirst w) sums d rb.1 rb.2
      let s := s.setArr a (x.count q.bundle 0 0 (ovf || ov))
      if mFinal w then
        let p := s.finalRow a q o row m bf16 (atSr att) bias
        (p.1, st.2 + p.2)
      else (s, st.2)
  let p := applyAll one (s, 0) (List.range (dRows xd))
  let s := p.1
  let x := s.arr a
  let us := (unitsOf (r.accBase + mAccBase w) (dRows xd))
  let x := if mRoute w = 1 then x else x.markUnits q us (dBlock xd) bf16 (mFinal w)
  let x := if mKeep w then x else if mHalf w then { x with half1 := {} } else { x with half0 := {} }
  let x := if !mSken w then x else if mSkh w then { x with sk1 := { x.sk1 with used := true } }
    else { x with sk0 := { x.sk0 with used := true } }
  let s := s.setArr a x
  if p.2 = 0 then s else s.checkFailed a q.res q.epoch p.2

/-- MMA (R119 to R124, R82): the head of the compute queue streams its half through the grid; `upsets` are the block sums the hardware
gets wrong (row * 256 + column, the bits), none when it works. (DESIGN CHOICE; log entry 22) -/
def execMma (a : Fin 32) (upsets : List (Nat × Nat)) (s : State) : Res :=
  .next <| match s.headOf a.val 0x10 with
  | none => s
  | some q =>
    let w := q.word
    let x := s.arr a.val
    let r := s.res a.val q.res
    let xd := q.descs.getD 0 0
    let sd := q.descs.getD 2 0
    let us := unitsOf (r.accBase + mAccBase w) (dRows xd)
    let export_ := mRoute w == 1
    let room := (x.armed.map fun j => j.2.count - j.2.vals.length).sum
    let order := (!export_ && !mFirst w && !x.unitsFollow q us (dBlock xd)) || (mFirst w && dBlock xd != 0) ||
      (mRoute w == 2 && decide (room < dRows xd * dN sd))
    if order then s.wordFault a.val q stORDER else
    let h := if mHalf w then x.half1 else x.half0
    let mine (t : Tile) : Bool := t.desc == sd && t.res == q.res
    let tile := match x.active with
      | some t => if mine t then some t else none
      | none => none
    let swap := match x.shadow with
      | some t => if mine t then some t else none
      | none => none
    let sk := if mSkh w then x.sk1 else x.sk0
    if h.desc != some xd || h.res != q.res || h.epoch != q.epoch then s
    else if !export_ && mFirst w && !x.unitsFree us then s
    else if mSken w && !skeinsReady h sk q (dRows xd) then s
    else if mFinal w && !(s.die_ (a.val / 4)).hasKey && (List.range (dRows xd)).any fun m => atSr (tGet 0 h.attrs m) then s
    else
      match tile, swap with
      | none, none => s
      | some t, _ =>
        if s.vecsIn a.val q then ((s.readVecs a.val q).setArr a.val (x.issue q (mDsig w))).mmaRows a.val q h t sk upsets
        else s.fetchVecs a.val q
      | none, some t =>
        if s.vecsIn a.val q then
          ((s.readVecs a.val q).setArr a.val { x.issue q (mDsig w) with active := some t, shadow := none }).mmaRows a.val q h t sk upsets
        else s.fetchVecs a.val q

/-- An IMPORT adds the staged rows, which its counter has announced (R125, R126). -/
def State.importRows (s : State) (a : Nat) (q : QWord) : State :=
  let w := q.word
  let r := s.res a q.res
  let g := q.descs.getD 0 0
  let o := q.descs.getD 1 0
  let us := unitsOf (r.accBase + mAccBase w) (dRows g)
  let x := s.arr a
  let x := (x.issue q (mDsig w)).setCtr q.res (dSctr g) (x.ctr q.res (dSctr g) - dRows g)
  let s := s.setArr a x
  let bias := s.biasOf a q (dN o)
  let key (m : Nat) : Nat := stageKey q.res (dElem g) m
  let bf16 := (tGet {} x.staged (key 0) : Staged).bf16
  let one (st : State × Nat) (m : Nat) : State × Nat :=
    let s := st.1
    let y : Staged := tGet {} (s.arr a).staged (key m)
    let sums := (List.range 256).map fun c => y.sums.getD c f32zero
    let row := (r.accBase + mAccBase w) * 16 + m
    let (x, ov) := (s.arr a).accumulate row (mFirst w) sums y.sk y.ref y.mag
    let s := s.setArr a (({ x with staged := tDel (key m) x.staged }).count q.bundle 0 0 ov)
    if mFinal w then
      let p := s.finalRow a q o row m bf16 false bias
      (p.1, st.2 + p.2)
    else (s, st.2)
  let p := applyAll one (s, 0) (List.range (dRows g))
  let s := p.1.setArr a ((p.1.arr a).markUnits q us (dBlock g) bf16 (mFinal w))
  if p.2 = 0 then s else s.checkFailed a q.res q.epoch p.2

/-- IMPORT (R125, R126): adds an exported block, once its counter holds ROWS. -/
def execImport (a : Fin 32) (s : State) : Res :=
  .next <| match s.headOf a.val 0x11 with
  | none => s
  | some q =>
    let w := q.word
    let x := s.arr a.val
    let r := s.res a.val q.res
    let g := q.descs.getD 0 0
    let o := q.descs.getD 1 0
    let us := unitsOf (r.accBase + mAccBase w) (dRows g)
    let room := (x.armed.map fun j => j.2.count - j.2.vals.length).sum
    let order := (!mFirst w && !x.unitsFollow q us (dBlock g)) || (mFirst w && dBlock g != 0) ||
      (mRoute w == 2 && decide (room < dRows g * dN o))
    if order then s.wordFault a.val q stORDER
    else if x.ctr q.res (dSctr g) < dRows g || (mFirst w && !x.unitsFree us) then s
    else if s.vecsIn a.val q then (s.readVecs a.val q).importRows a.val q
    else s.fetchVecs a.val q

/-- ESTATE (R127, R128). -/
def execEstate (a : Fin 32) (s : State) : Res :=
  .next <| match s.headOf a.val 0x20 with
  | none => s
  | some q =>
    let x := s.arr a.val
    let rows := applyAll (fun (t : Tbl RowState) m =>
      let k := q.res * 512 + m
      let st : RowState := tGet {} t k
      let st := if bitAt q.word 101 then { st with prevMax := f32ninf, maxv := f32ninf, sum := f32zero } else st
      let st := if bitAt q.word 100 then { st with rsum := f32zero, sumsq := f32zero } else st
      tSet {} t k st) x.rows (List.range (bits q.word 111 102))
    s.setArr a.val ({ x with rows := rows }.issue q none)

/-- SMRES (R127, R129). -/
def execSmres (a : Fin 32) (s : State) : Res :=
  .next <| match s.headOf a.val 0x21 with
  | none => s
  | some q =>
    let x := s.arr a.val
    let r := s.res a.val q.res
    let base := (r.accBase + bits q.word 111 107) * 16
    let x := applyAll (fun (x : Arr) m =>
      let f := rescale (tGet {} x.rows (q.res * 512 + m))
      let row := base + m
      let ys := (List.range 256).map fun c => mul32 (x.accAt row c) f
      let x := x.setAccRow row ys
      { x with ref := tSet f32zero x.ref row (mul32 (tGet f32zero x.ref row) f)
               mag := tSet f32zero x.mag row (mul32 (tGet f32zero x.mag row) f) }) x (List.range (bits q.word 106 97))
    s.setArr a.val (x.issue q none)

/-- NORM (R127, R130): issues after every earlier instruction has completed. -/
def execNorm (a : Fin 32) (s : State) : Res :=
  .next <| match s.headOf a.val 0x22 with
  | none => s
  | some q =>
    let x := s.arr a.val
    let i := q.descs.getD 0 0
    let srRow (m : Nat) : Bool := (tGet {} x.rows (q.res * 512 + m) : RowState).sr
    if !x.issued.isEmpty || (!(s.die_ (a.val / 4)).hasKey && (List.range (dRows i)).any srRow) then s
    else if !s.vecsIn a.val q then s.fetchVecs a.val q else
    let w := q.word
    let r := s.res a.val q.res
    let s := (s.readVecs a.val q).rngDone (a.val / 4) (a.val % 4)
    let o := q.descs.getD 1 0
    let g := bitAt w 61
    let cols := bits w 26 11
    let vec (k n : Nat) : FP32 := s.resF32 a.val r (dElem (q.descs.getD k 0) + 4 * n)
    let s := s.setArr a.val (x.issue q none)
    applyAll (fun (s : State) m =>
      let st : RowState := tGet {} (s.arr a.val).rows (q.res * 512 + m)
      let ys := (List.range cols).map fun n =>
        let y := normVal (bits w 63 62) cols (BitVec.ofNat 32 (bits w 58 27)) st (s.readOut a.val r i cols m n)
        let y := if g then mul32 y (vec 2 n) else y
        if bitAt w 60 then add32 y (vec (if g then 3 else 2) n) else y
      let d := s.draws a.val st.sr cols
      let row := convRow (dFmt o) (bitAt w 59) d.2 ys
      let s := d.1.writeRow a.val r o cols m row
      (s.setArr a.val ((s.arr a.val).count q.bundle 0 row.2.2 false)).addO (Od.arrayNumfaultCount a.val) row.2.2)
      s (List.range (dRows i))

/-- TKSUB (R131, R132): a PORT job is armed; a SLICE job waits for every earlier instruction and reads its values. -/
def execTksub (a : Fin 32) (s : State) : Res :=
  .next <| match s.headOf a.val 0x30 with
  | none => s
  | some q =>
    let w := q.word
    let x := s.arr a.val
    let c := bits w 76 75
    let slice := bitAt w 74
    if (tGet none x.topk c).isSome || (slice && !x.issued.isEmpty) then s else
    let r := s.res a.val q.res
    let v := q.descs.getD 0 0
    let count := bits w 73 55
    let vals := if slice then (List.range count).map fun i => s.readOut a.val r v (dN v) (i / dN v) (i % dN v) else []
    let f := if c = 3 then 0 else (vals.filter isNan32).length
    let job : TkJob := { k := bits w 87 77, count := count, base := bits w 54 36, port := !slice
                         idesc := q.descs.getLastD 0, vals := vals, q := q }
    let x := { x.issue q none with topk := tIns c (some job) x.topk }
    (s.setArr a.val (x.count q.bundle 0 f false)).addO (Od.arrayNumfaultCount a.val) f

/-- The indices a job writes (R305, R308): the K best, 0xFFFF_FFFF beyond COUNT. -/
def topkIndices (ch3 : Bool) (base k : Nat) (vals : List FP32) : List Nat :=
  let ord := sortBy (topkBefore ch3) (vals.zip ((List.range vals.length).map fun i => base + i))
  (List.range k).map fun j => match ord[j]? with
    | some e => e.2
    | none => 0xFFFFFFFF

/-- TOPK_JOB_COMPLETE (R305): a channel's job that has all its values writes its K indices. -/
def execTopkJobComplete (a : Fin 32) (c : Fin 4) (s : State) : Res :=
  .next <|
    let x := s.arr a.val
    match tGet none x.topk c.val with
    | none => s
    | some j =>
      if j.vals.length < j.count then s else
      let r := s.res a.val j.q.res
      let s := s.putRes a.val r (dElem j.idesc) ((topkIndices (c.val == 3) j.base j.k j.vals).flatMap fun i => leBytes 4 i)
      let x := s.arr a.val
      s.setArr a.val ({ x with topk := tDel c.val x.topk, issued := x.issued.filter fun i =>
        !(i.op == 0x30 && i.q == j.q) }.wordDone j.q.bundle)

/-- WAIT (R134): issues when the counter is at least VALUE, and subtracts it. -/
def execWait (a : Fin 32) (s : State) : Res :=
  .next <| match s.headOf a.val 0x40 with
  | none => s
  | some q =>
    let x := s.arr a.val
    let c := bits q.word 111 108
    let v := bits q.word 107 92
    if x.ctr q.res c < v then s
    else s.setArr a.val ((x.setCtr q.res c (x.ctr q.res c - v)).issueDone q)

/-- SIGNAL (R134, R135): an increment for an array of the stake; with AFTER it is sent once every earlier instruction has completed. (DEDUCED; log entry 28) -/
def execSignal (a : Fin 32) (s : State) : Res :=
  .next <| match s.headOf a.val 0x41 with
  | none => s
  | some q =>
    let w := q.word
    let x := s.arr a.val
    if bitAt w 86 && !x.issued.isEmpty then s else
    let t := bits w 111 107
    let rt := (s.residentOf (s.res a.val q.res).stake t).getD q.res
    let s := s.setArr a.val (x.issueDone q)
    { s with incrs := s.incrs ++ [{ target := t, res := rt, ctr := bits w 106 103, value := bits w 102 87, epoch := q.epoch }] }

/-- FENCE (R134, R136): issues when every earlier instruction has completed; NOTIFY posts PAYLOAD. -/
def execFence (a : Fin 32) (s : State) : Res :=
  .next <| match s.headOf a.val 0x42 with
  | none => s
  | some q =>
    let w := q.word
    let x := s.arr a.val
    if !x.issued.isEmpty then s else
    let s := s.setArr a.val (x.issueDone q)
    if bitAt w 111 then
      s.post (bits w 110 103) (bits w 102 100) 0x02
        (packFields [(16, q.epoch), (5, a.val), (2, q.res), (41, 0), (64, bits w 63 0)])
    else s

/-- A counter takes an increment of an epoch (R134, R135): dropped as stale when the receiver's active epoch is newer. -/
def State.increment (s : State) (t : Nat) (i : Incr) : State :=
  let x := s.arr t
  let stale := match tGet none x.actEp i.res with
    | some e => epochOlder i.epoch e
    | none => false
  if stale then s.addO (Od.staleArrivalCount t) 1
  else
    let k := i.res * 16 + i.ctr
    let x := { x with sync := tSet 0 x.sync k (min 65535 (tGet 0 x.sync k + i.value))
                      syncEp := if epochOlder i.epoch (tGet 0 x.syncEp k) && tGet 0 x.sync k != 0 then x.syncEp
                        else tSet 0 x.syncEp k i.epoch }
    let x := match i.staged with
      | some (key, d) => { x with staged := tSet {} x.staged key d }
      | none => x
    s.setArr t x

/-- INSTRUCTION_COMPLETE (R136): the n-th issued instruction has made its last write, export, rescale or index; DSIG increments a local
counter (R119).  An export completes once its rows have arrived. (DESIGN CHOICE; log entry 22) -/
def execInstructionComplete (a : Fin 32) (n : Nat) (s : State) : Res :=
  .next <|
    let x := s.arr a.val
    match x.issued[n]? with
    | none => s
    | some i =>
      let o := i.q.descs.getD 1 0
      let waits := i.op == 0x10 && mRoute i.q.word == 1 &&
        s.incrs.any fun e => e.staged.isSome && e.target == dOwner o && e.ctr == dSctr o && e.epoch == i.q.epoch
      if i.op == 0x30 || waits then s else
      let s := s.setArr a.val ({ x with issued := x.issued.take n ++ x.issued.drop (n + 1) }.wordDone i.q.bundle)
      match i.dsig with
      | some c => s.increment a.val { target := a.val, res := i.q.res, ctr := c, value := 1, epoch := i.q.epoch }
      | none => s

/-- SYNC_INCREMENT_ARRIVAL (R135, R136): the n-th increment on its way arrives, an exported row's data with it. -/
def execSyncIncrementArrival (n : Nat) (s : State) : Res :=
  .next <| match s.incrs[n]? with
  | none => s
  | some i =>
    let s := { s with incrs := s.incrs.take n ++ s.incrs.drop (n + 1) }
    if s.pdOn (pdArray i.target) then s.increment i.target i else s.addO Od.epochDrops 1

/-- ABANDON (R141): the abandon command names a resident and an epoch. -/
def execAbandon (a : Fin 32) (r : Fin 4) (epoch : Nat) (s : State) : Res :=
  .next (guardS (s.pdOn (pdArray a.val)) s fun s => s.abandonArr a.val r.val (epoch % 65536))

/-- WAIT_LIMIT (R138, R600): the head of the compute queue has not issued for `beats` beats, holds apart. (DEDUCED; log entry 28) -/
def execWaitLimit (a : Fin 32) (beats : Nat) (s : State) : Res :=
  .next <| match (s.arr a.val).compQ with
  | [] => s
  | q :: _ =>
    if beats < s.o Od.arrayWaitLimit || !s.mayIssue a.val q then s else
    let s := s.endBundle a.val q.bundle stWAIT q.idx
    let s := s.faultRec 0x2B 0 a.val 0 0 1 [(16, a.val), (16, q.res), (32, q.epoch)]
    match s.stepOfWord a.val q.res q.epoch with
    | some k => s.abandonStep k true
    | none => s

/-- ECC_FAULT (R138, R596, R603): an uncorrectable error in accumulator or edge-unit state (0), a bundle queue or sync counter (1) or
the top-k unit (2): the bundle ends with ECC_FAULT, the array's domain is reset, and a second error in the window retires it. -/
def execEccFault (a : Fin 32) (mem : Fin 3) (key addr : Nat) (s : State) : Res :=
  .next <| guardS (s.pdOn (pdArray a.val)) s fun s =>
    let n := s.coursesOn (pdArray a.val)
    let s := s.addO Od.eccUncorrectable 1
    let s := s.endBundle a.val key stECC 0
    let s := s.degradeFor (pdArray a.val) true
    let s := s.fault1 0x22 0 a.val 0 0 n [(8, mem.val), (64, addr)]
    let s := s.arrayEcc a.val
    s.resetNow (pdArray a.val)

end Sys2Proof.Machine
end

