-- ==== Sys2Proof/Machine/Cores.lean ====
section
/-!
DEFINITION. Reed cores, mailboxes, keeper cores and slot tables (05_reed_cores_and_spine.md R142 to R169).
-/
namespace Sys2Proof.Machine

/-- SPINE_OWNER_WRITE (R147): a core sets the owner whose slots carry its later accesses; a held access is tried again. -/
def execSpineOwnerWrite (c : Fin 144) (v : Nat) (s : State) : Res :=
  .next <| guardS (s.pdOn (pdCore c.val)) s fun s =>
    let x := { s.core c.val with owner := v % 65536 }
    let s := s.setCore c.val x
    match x.held with
    | some acc => if s.mayGo c.val acc then (s.setCore c.val { x with held := none }).doAccess c.val acc else s
    | none => s

/-- CORE_HOLD_LIMIT (R147): a held access ends with a store access-fault exception (7), and has no effect. -/
def execCoreHoldLimit (c : Fin 144) (s : State) : Res :=
  .next <| guardS (s.core c.val).held.isSome s fun s => s.setCore c.val { s.core c.val with held := none, exc := 7 }

/-- MBOX_POP (R149): the head entry is removed; nothing happens to an empty mailbox.  Cores 144 and 145 are the keepers. -/
def execMboxPop (c : Fin 146) (n : Fin 8) (s : State) : Res :=
  .next <|
    let m := s.mbox c.val n.val
    s.setMbox c.val n.val { m with entries := m.entries.drop 1 }

/-- MBOX_STATUS_WRITE (R149, R152): IRQ_EN takes bit 17; OVERFLOW is cleared by a 1 in bit 16, and firmware that finds it set on a
mailbox that receives array posts abandons the courses that post there and replays them. -/
def execMboxStatusWrite (c : Fin 146) (n : Fin 8) (v : Nat) (s : State) : Res :=
  .next <|
    let m := s.mbox c.val n.val
    let clear := bitAt v 16
    let s := s.setMbox c.val n.val { m with irqEn := bitAt v 17, overrun := m.overrun && !clear }
    if m.overrun && clear then
      applyAll (fun s (e : Nat × Stake) => match e.2.step with
        | some k =>
          let posts := e.2.arrays.any fun a => (s.arr a).bundles.any fun b =>
            hCore b.header == c.val && hMbox b.header == n.val && (s.res a (hRes b.header)).stake == e.1
          if e.2.used && posts then s.abandonStep k false else s
        | none => s) s s.stakes
    else s

/-- POST_WINDOW_WRITE (R151, R152): core c writes `bytes` bytes at an offset of the post window of core t. -/
def execPostWindowWrite (c t : Fin 144) (off bytes w : Nat) (s : State) : Res :=
  .next (s.access c.val (.post t.val off bytes (w % 2 ^ 128)))

/-! ## Keepers (R153, R596) -/

/-- Keeper k is reset: its mailboxes are empty; a reset of keeper 0 breaks the session lock (R153, R544, R588). -/
def State.keeperReset (s : State) (k : Nat) : State :=
  let s := s.setKeeper k {}
  let s := if k = 0 then s.breakLock 5 else s
  let s := { s with mboxes := tDrop (fun m => m / 8 == 144 + k) s.mboxes }
  s.addO Od.keeperResets 1

/-- KEEPER_HEARTBEAT (R153): keeper k writes its heartbeat word into the other's window; a keeper that had taken over its duties gives
them back. -/
def execKeeperHeartbeat (k : Fin 2) (w : Nat) (s : State) : Res :=
  .next <| guardS s.power.stbyOn s fun s =>
    s.setKeeper (1 - k.val) { s.keeper (1 - k.val) with window := w % 2 ^ 32, tookOver := false }

/-- KEEPER_HEARTBEAT_MISS (R153): keeper k finds three heartbeats missing: it resets the other, records it and takes over. -/
def execKeeperHeartbeatMiss (k : Fin 2) (s : State) : Res :=
  .next <| guardS s.power.stbyOn s fun s =>
    let o := 1 - k.val
    let s := s.keeperReset o
    let s := s.setKeeper k.val { s.keeper k.val with tookOver := true }
    let s := s.addO Od.singleFaults 1
    let s := s.setO Od.lastFault (lastFaultBits 0x08 8 o 0 0 0 s.beat)
    let s := { s with pins := { s.pins with faultPulse := true } }
    s.record 0x08 o (dataDown [(16, o), (8, 0)])

/-- KEEPER_DUAL_TIMEOUT (R153): the always-on timer resets both keepers; keeper 0 records it when it starts. -/
def execKeeperDualTimeout (s : State) : Res :=
  .next <| guardS s.power.stbyOn s fun s =>
    let s := (s.keeperReset 0).keeperReset 1
    applyAll (fun s o => s.record 0x08 o (dataDown [(16, o), (8, 1)])) s [0, 1]

/-! ## Slot tables (R160 to R169) -/

/-- The live owner of a slot, coded as in R163: the reserve slots at all times, an idled instance's slots read as they are held. -/
def slotOwnerIn (t : Tbl Nat) (inst i : Nat) : Nat :=
  if i % 32 = 31 then 0x3FF else if i % 32 = 15 then 0x3FE else tGet 0 t (inst * 256 + i)

/-- The live owner of slot i of an instance (RKIND * 65536 + INSTANCE). -/
def State.slotOwner (s : State) (inst i : Nat) : Nat := slotOwnerIn s.slots.live inst i

/-- LIVE_TABLE_ERROR (R169): every slot of the instance is idle, the reload begins, and the courses whose traffic was due in it are
abandoned and replayed. -/
def execLiveTableError (kind inst : Nat) (slot : Fin 256) (s : State) : Res :=
  .next <|
    let k := kind * 65536 + inst
    if s.slots.idled.contains k then s else
    let owners := (((s.slots.live.filter fun e => e.1 / 256 == k).map (·.2))).eraseDups
    let hit := s.stakes.filter fun e => e.2.used && e.2.step.isSome && owners.contains (e.1 + 1)
    let s := { s with slots := { s.slots with idled := k :: s.slots.idled }
                      parts := { s.parts with holdFrom := tIns k (hit.length * 256 + slot.val) s.parts.holdFrom } }
    let s := s.addO Od.eccUncorrectable 1
    applyAll (fun s (e : Nat × Stake) => match e.2.step with
      | some q => s.abandonStep q true
      | none => s) s hit

/-- LIVE_TABLE_RELOAD_DONE (R169, R597): the table is the ledger's again, and the instance carries traffic; the hold lasted ns. -/
def execLiveTableReloadDone (kind inst ns : Nat) (s : State) : Res :=
  .next <|
    let k := kind * 65536 + inst
    if !s.slots.idled.contains k then s else
    let h := tGet 0 s.parts.holdFrom k
    let live := tDrop (fun e => e / 256 == k) s.slots.live
    let live := applyAll (fun (t : Tbl Nat) (e : Nat × Nat) => tIns e.1 e.2 t) live (s.slots.ledger.filter fun e => e.1 / 256 == k)
    let s := { s with slots := { s.slots with live := live, idled := s.slots.idled.filter fun i => i != k }
                      parts := { s.parts with holdFrom := tDel k s.parts.holdFrom } }
    s.fault1 0x33 13 inst 0 ns (h / 256) [(4, kind), (8, h % 256)]

/-- SLOT_LEDGER_ERROR (R169): loads and unloads end until keeper 0 has rebuilt the ledger. -/
def execSlotLedgerError (addr : Nat) (s : State) : Res :=
  .next <| guardS (!s.slots.ledgerBad) s fun s =>
    let s := { s with slots := { s.slots with ledgerBad := true } }
    (s.addO Od.eccUncorrectable 1).fault1 0x22 13 0xFFFFF 0 0 0 [(8, 7), (64, addr)]

/-- SLOT_LEDGER_REBUILT (R169): the ledger is what the live tables hold. -/
def execSlotLedgerRebuilt (s : State) : Res :=
  .next <| guardS s.slots.ledgerBad s fun s =>
    { s with slots := { s.slots with ledgerBad := false, ledger := s.slots.live } }

end Sys2Proof.Machine
end

