-- ==== Sys2Proof/Machine/Store.lean ====
section
/-!
DEFINITION. The model store's objects, measurement, and plans as containers (07_models_stakes_steps.md R208 to R214;
12_flash_index_and_spokes.md R382; 21_boot_measurement_update.md R625 to R627).
-/
namespace Sys2Proof.Machine

def State.storeObj (s : State) (n : Nat) : StoreObj := tGet {} s.store n
def State.setStoreObj (s : State) (n : Nat) (x : StoreObj) : State := { s with store := tSet {} s.store n x }
def State.storeValid (s : State) (n : Nat) : Bool := (s.storeObj n).state == 2 && !(s.storeObj n).bad

/-! ## Measurement (R625, R627) -/

/-- A slot extended with a digest, and its log entry; a full log keeps no further entry and is flagged. -/
def State.measure (s : State) (slot event digest object info : Nat) : State :=
  let v := sha384 (beBytes 48 (s.o (Od.measurement slot)) ++ beBytes 48 digest)
  let s := s.setO (Od.measurement slot) v
  let b := s.boot
  let e : MeasEntry := { slot := slot, event := event, digest := digest, object := object, info := info, beat := s.beat }
  let b := if b.log.length < 16384 then { b with log := b.log ++ [e], logCount := b.logCount + 1 }
    else { b with logOver := true, logCount := b.logCount + 1 }
  ({ s with boot := b }).setO Od.measurementLogEntries (sat (odWidth Od.measurementLogEntries) b.logCount)

/-! ## The plan container (R208 to R214) -/

/-- A section of the directory: kind, count, offset, length. -/
structure PlanSec where
  kind  : Nat := 0
  count : Nat := 0
  off   : Nat := 0
  len   : Nat := 0
  rsv   : Nat := 0
  deriving DecidableEq, Repr

def planSec (bs : List Byte) (i : Nat) : PlanSec :=
  let v := leAt bs (64 + 16 * i) 16
  { kind := bits v 127 120, count := bits v 95 64, off := bits v 63 32, len := bits v 31 0, rsv := bits v 119 96 }

/-- The directory of a container, and its section of a kind. -/
def planSecs (bs : List Byte) : List PlanSec := (List.range (bits (leAt bs 0 64) 405 400)).map (planSec bs)
def planSecOf (bs : List Byte) (kind : Nat) : PlanSec := ((planSecs bs).find? fun c => c.kind == kind).getD {}

/-- Record j of a section, n bytes each, as a number. -/
def PlanSec.rec_ (c : PlanSec) (bs : List Byte) (n j : Nat) : Nat := leAt bs (c.off + n * j) n

/-- The share record (R162). -/
def shareOf (i v : Nat) : Share :=
  { idx := i, rkind := bits v 383 380, inst := bits v 375 360, stake := bits v 359 357, group := bits v 356 349
    step := bits v 348 341, mask := bits v 255 0, clean := bits v 379 376 == 0 && bits v 340 256 == 0 }

/-- The largest pacing of R95 over stationary formats (R214): 3 for the 8- and 6-bit formats, 6 for MXFP4, 1 for BF16. -/
def paceOf (fmts : List Nat) : Nat :=
  fmts.foldl (fun m f => max m (if f = 5 then 6 else if f = 7 then 1 else 3)) 1

/-- Cycles of a course over P positions, Σ (s − 1) being `paced` (R212). -/
def CourseRec.cycles (c : CourseRec) (p paced : Nat) : Nat := c.base + c.rowC * p + c.skein * paced

/-- A stream of one (fold, course, logical array): its words. -/
structure PlanStream where
  fold   : Nat := 0
  course : Nat := 0
  la     : Nat := 0
  words  : List Nat := []
  ok     : Bool := false
  deriving DecidableEq, Repr

def planStream (bs : List Byte) (c : PlanSec) (j : Nat) : PlanStream :=
  let v := c.rec_ bs 8 j
  let n := bits v 45 32
  let o := bits v 31 0
  { fold := bits v 63 59, course := bits v 58 51, la := bits v 50 46
    words := (List.range n).map fun i => leAt bs (c.off + 16 * (o + i)) 16
    ok := decide (1 ≤ n) && decide (16 * (o + n) ≤ c.len) }

/-- The descriptor images of the DESCRIPTORS section, logical array by logical array (DESIGN CHOICE; log entry 20). -/
def planDescs (bs : List Byte) (c : PlanSec) (arrays : Nat) : Tbl Nat :=
  (List.range arrays).flatMap fun la => ((List.range 3584).map fun e =>
    (la * 4096 + e, leAt bs (c.off + 32 * (3584 * la + e)) 32)).filter fun p => p.2 != 0

/-- The stationary formats of a course: what its MMA words name through SDESC; a dynamic entry counts as MXFP4 (R214). -/
def courseFormats (descs : Tbl Nat) (ss : List PlanStream) : List Nat :=
  ss.flatMap fun t => (t.words.filter fun w => wOp w == 0x10).filterMap fun w =>
    let d := tGet 0 descs (t.la * 4096 + wD2 w)
    if 3584 ≤ wD2 w then some 5 else if dKind d = 1 then some (dFmt d) else none

/-- A plan as a container of `size` bytes holds it, when the container check passes (R214); `x` is what has no place in it (log entry
20). -/
def planAt (size : Nat) (bs : List Byte) (x : PlanX) : Option Plan :=
  let h := leAt bs 0 64
  let stakes := bits h 463 456
  let folds := bits h 455 448
  let courses := bits h 447 440
  let secs := planSecs bs
  let sec (k : Nat) : PlanSec := planSecOf bs k
  let within (c : PlanSec) (n : Nat) : Bool := decide (n * c.count ≤ c.len)
  let stakeRecs := (List.range stakes).map fun j => (sec 1).rec_ bs 4 j
  let arrays := bits (stakeRecs.getD 0 0) 31 26
  let maxRows := (List.range folds).map fun j => bits ((sec 2).rec_ bs 4 j) 31 18
  let descs := planDescs bs (sec 6) arrays
  let streams := (List.range (sec 4).count).map (planStream bs (sec 4))
  let fmtsOf (f c : Nat) : List Nat := courseFormats descs (streams.filter fun t => t.fold == f && t.course == c)
  let recs := (List.range (sec 3).count).map fun j =>
    let v := (sec 3).rec_ bs 16 j
    { fold := bits v 127 123, course := bits v 122 115, last := bitAt v 114, remote := bitAt v 113, kvWrite := bitAt v 112
      base := bits v 95 64, rowC := bits v 63 48, skein := bits v 47 32, remoteNs := bits v 31 0
      pace := paceOf (fmtsOf (bits v 127 123) (bits v 122 115)) : CourseRec }
  let kind := bits h 439 436
  let top := maxRows.foldl max 0
  let ascending := (maxRows.zip (maxRows.drop 1)).all fun p => decide (p.1 < p.2)
  let header := bits h 511 480 == 0x43594431 && bits h 479 464 == 2 && decide (1 ≤ stakes ∧ stakes ≤ 8) &&
    decide (1 ≤ folds ∧ folds ≤ 32) && decide (1 ≤ courses ∧ courses ≤ 255) && decide (kind ≤ 4) &&
    bits h 435 432 == 0 && decide (1 ≤ bits h 431 424 ∧ bits h 431 424 ≤ 32) &&
    decide (2 ≤ bits h 423 414 ∧ bits h 423 414 ≤ 512) && decide (2 ≤ bits h 413 406 ∧ bits h 413 406 ≤ 255) &&
    decide (8 ≤ bits h 405 400 ∧ bits h 405 400 ≤ 16) && bits h 287 0 == 0 &&
    [0, 256, 512, 1024, 2048].contains (bits h 399 384) &&
    decide (bits h 413 406 ≤ bits h 423 414)
  let dirOk := (secs.all fun c => c.rsv == 0 && decide (c.kind ≤ 8) && c.off % 256 == 0 && decide (c.off + c.len ≤ size) &&
      (c.kind != 0 || (c.count == 0 && c.off == 0 && c.len == 0))) &&
    (List.range 8).all fun k => (secs.filter fun c => c.kind == k + 1).length == 1
  let counts := (sec 1).count == stakes && (sec 2).count == folds && (sec 3).count == folds * courses &&
    (sec 4).count == folds * courses * arrays && decide ((sec 5).count ≤ 2048) && within (sec 1) 4 && within (sec 2) 4 &&
    within (sec 3) 16 && within (sec 4) 8 && within (sec 5) 48 && decide (32 * 3584 * arrays ≤ (sec 6).len) &&
    decide (48 ≤ (sec 8).len)
  let recsOk := decide (1 ≤ arrays ∧ arrays ≤ 32) &&
    (stakeRecs.all fun v => bits v 31 26 == arrays && bits v 25 0 == 0) &&
    ((List.range folds).all fun j => bits ((sec 2).rec_ bs 4 j) 17 0 == 0) && ascending &&
    (maxRows.all fun m => decide (1 ≤ m ∧ m ≤ 8192)) &&
    ((List.range (sec 3).count).all fun j => bits ((sec 3).rec_ bs 16 j) 111 96 == 0) &&
    ((List.range folds).all fun f => (List.range courses).all fun c =>
      (recs.filter fun r => r.fold == f && r.course == c).length == 1) &&
    (recs.all fun r => r.last == (r.course + 1 == courses) && (r.remote || r.remoteNs == 0)) &&
    ((List.range folds).all fun f => (List.range courses).all fun c => (List.range arrays).all fun a =>
      (streams.filter fun t => t.fold == f && t.course == c && t.la == a).length == 1) &&
    (streams.all fun t => t.ok) &&
    (kind != 1 || decide (4 ≤ top)) && (kind != 3 || decide (2 ≤ top)) &&
    recs.all fun r =>
      let p := maxRows.getD r.fold 0
      decide (r.cycles p (p * (r.pace - 1)) * 10 + r.remoteNs * 12 ≤ 240000)
  if header && dirOk && counts && recsOk then
    let d := sec 8
    some { stakes := stakes, folds := folds, courses := courses, kind := kind, accUnits := bits h 431 424
           home := bits h 423 414, transit := bits h 413 406, bin := bits h 399 384, base := bits h 383 320
           pinned := bits h 319 288, arrays := arrays, maxRows := maxRows, recs := recs
           shares := (List.range (sec 5).count).map fun j => shareOf j ((sec 5).rec_ bs 48 j)
           descs := descs, tiles := (sec 7).off, tilesLen := (sec 7).len
           digest := beAt bs d.off 48
           digestOk := beAt bs d.off 48 == sha384 (bs.take d.off ++ bs.drop (d.off + d.len))
           first := streams.filterMap fun t =>
             (t.words.find? fun w => wOp w == 0x01).map fun w => (t.fold, t.course, t.la, tGet 0 descs (t.la * 4096 + wD0 w))
           x := x }
  else none

/-- The container check of a plan (R214). -/
def parsePlan (bs : List Byte) (x : PlanX) : Option Plan := planAt bs.length bs x

/-- The course records of a plan as they stand in its container (OD 5000:0A). -/
def planCostTable (bs : List Byte) : List Byte :=
  match (planSecs bs).find? fun c => c.kind == 3 with
  | some c => (bs.drop c.off).take c.len
  | none => []

/-- The fold shape a step of P positions uses (R210). -/
def Plan.foldFor (p : Plan) (n : Nat) : Nat := ((p.maxRows.findIdx? fun m => decide (n ≤ m))).getD (p.folds - 1)

/-- The largest MAX_ROWS of a plan. -/
def Plan.top (p : Plan) : Nat := p.maxRows.foldl max 0

def Plan.course? (p : Plan) (f c : Nat) : Option CourseRec := p.recs.find? fun r => r.fold == f && r.course == c

end Sys2Proof.Machine
end

