-- ==== Sys2Proof/Machine/Models.lean ====
section
/-!
DEFINITION. Loading and unloading models, the slot load check, and skeins (07_models_stakes_steps.md R215 to R221, R238 to R244;
05_reed_cores_and_spine.md R160 to R168).
-/
namespace Sys2Proof.Machine

/-! ## The slot load check (R165, R166) -/

/-- A share's instance with physical numbers: logical die d is the die of logical array 8d, a slice port that of the placed array
(R162; DEDUCED; log entry 26). -/
def placeInst (x : Stake) (sh : Share) : Nat :=
  let la (i : Nat) : Nat := x.place.getD i 0 % 32
  let die := sh.inst / 4096
  if sh.rkind = 5 then sh.inst
  else if sh.rkind = 2 then let a := la (8 * die + sh.inst % 4096); 4096 * (a / 8) + a % 8
  else 4096 * (la (8 * die) / 8) + sh.inst % 4096

/-- Whether an instance exists and is in service (R158, R159, R165). -/
def State.instOk (s : State) (kind inst : Nat) : Bool :=
  let d := inst / 4096
  let i := inst % 4096
  match kind with
  | 1 => decide (d < 6 ∧ i < 24) && s.pdState (pdSpine d) != pdFAILED
  | 2 => decide (d < 4 ∧ i < 8) && s.pdState (21 * d + 8 + i) != pdFAILED
  | 3 => decide (d < 4 ∧ i < 128) && s.pdState (21 * d + 18 + i / 64) != pdFAILED && !s.mem.stacksOut.contains (2 * d + i / 64) &&
      !bitAt (tGet 0 s.mem.pcOut (2 * d + i / 64)) (i % 64)
  | 4 => decide ((d < 4 ∧ i < 3) ∨ (4 ≤ d ∧ d < 6 ∧ i < 2)) && !s.parts.failedLinks.contains inst
  | 5 => decide (inst < 8) && s.o (Od.peerState inst) != 4
  | _ => false

/-- The slots of a mask rotated by r (R164). -/
def rotSlots (mask r : Nat) : List Nat := (setBits 256 mask).map fun i => (i + r) % 256

/-- Whether a mask, taken cyclically, has a run of 8 or more unset slots. -/
def hasGap (mask : Nat) : Bool :=
  (List.range 256).any fun i => (List.range 8).all fun j => !bitAt mask ((i + j) % 256)

/-- Why a group is refused (R166): the reason, the first failing share, slot and owner at r = 0, PENDING_RELEASE and rotations tried. -/
structure SlotFail where
  reason  : Nat := 0
  share   : Share := {}
  inst    : Nat := 0
  slot    : Nat := 0
  owner   : Nat := 0
  pending : Bool := false
  tried   : Nat := 0
  deriving DecidableEq, Repr

/-- Owner codes of stakes whose model's unload is committed. -/
def State.leaving (s : State) (owner : Nat) : Bool :=
  decide (1 ≤ owner ∧ owner ≤ 0x200) && s.o (Od.modelState (s.stake (owner - 1)).model) == 4

/-- The shares of one rotation group against a ledger: the chosen rotation, or the refusal. -/
def State.checkGroup (s : State) (led : Tbl Nat) (g : List (Share × Nat)) : SlotFail ⊕ Nat :=
  let fail (n : Nat) (p : Share × Nat) : SlotFail ⊕ Nat := .inl { reason := n, share := p.1, inst := p.2 }
  let one := (g.headD ({}, 0)).1
  match g.find? fun p => !(decide (1 ≤ p.1.rkind ∧ p.1.rkind ≤ 5) && p.1.clean && p.1.mask != 0 && p.1.rkind == one.rkind &&
      p.1.step == one.step) with
  | some p => fail 1 p
  | none =>
  match g.find? fun p => !s.instOk p.1.rkind p.2 with
  | some p => fail 2 p
  | none =>
  match g.find? fun p => (p.1.rkind == 1 || p.1.rkind == 4) && hasGap p.1.mask with
  | some p => fail 5 p
  | none =>
    let owner (p : Share × Nat) (i : Nat) : Nat := slotOwnerIn led (p.1.rkind * 65536 + p.2) i
    let bad (r : Nat) : List (Share × Nat × Nat × Nat) := g.flatMap fun p =>
      (sortBy (fun a b => decide (a < b)) (rotSlots p.1.mask r)).filterMap fun i =>
        let o := owner p i
        if o = 0 then none else some (p.1, p.2, i, o)
    let rs := if one.step = 0 then [0] else (List.range (cdiv 256 one.step)).map (· * one.step)
    match rs.find? fun r => (bad r).isEmpty with
    | some r => .inr r
    | none =>
      let b0 := bad 0
      let f := b0.headD ({}, 0, 0, 0)
      .inl { reason := if b0.all fun e => decide (0x3FE ≤ e.2.2.2) then 3 else 4
             share := f.1, inst := f.2.1, slot := f.2.2.1, owner := f.2.2.2
             pending := rs.any fun r => (bad r).all fun e => s.leaving e.2.2.2
             tried := rs.length }

/-- The owner entries of a share at a rotation. -/
def ownSlots (led : Tbl Nat) (code kind inst : Nat) (slots : List Nat) : Tbl Nat :=
  applyAll (fun (t : Tbl Nat) i => tIns ((kind * 65536 + inst) * 256 + i) code t) led slots

/-- The whole check of a model's shares: groups in ascending stake and ROT_GROUP order, each claimed against the ledger and the groups
before it; the shares placed and rotated. -/
def State.loadCheck (s : State) (stakes : List Nat) (shares : List Share) : SlotFail ⊕ List Share :=
  let keys := sortBy (fun a b => decide (a < b)) ((shares.map fun h => h.stake * 256 + h.group).eraseDups)
  let go (acc : SlotFail ⊕ (Tbl Nat × List Share)) (k : Nat) : SlotFail ⊕ (Tbl Nat × List Share) :=
    match acc with
    | .inl f => .inl f
    | .inr (led, out) =>
      let n := stakes.getD (k / 256) 512
      let x := s.stake n
      let g := (shares.filter fun h => h.stake * 256 + h.group == k).map fun h => (h, placeInst x h)
      match s.checkGroup led g with
      | .inl f => .inl f
      | .inr r =>
        let led := applyAll (fun (t : Tbl Nat) (p : Share × Nat) => ownSlots t (n + 1) p.1.rkind p.2 (rotSlots p.1.mask r)) led g
        .inr (led, out ++ g.map fun p => { p.1 with inst := p.2, mask := (rotSlots p.1.mask r).foldl (fun m i => m + 2 ^ i) 0 })
  match keys.foldl go (.inr (s.slots.ledger, [])) with
  | .inl f => .inl f
  | .inr (_, out) => .inr out

/-- A slot refusal reported: SLOT_REFUSAL, its counter and its record (R166). -/
def State.slotRefused (s : State) (model : Nat) (f : SlotFail) : State :=
  let v := packFields [(8, f.reason), (6, model), (3, f.share.stake), (11, f.share.idx), (4, f.share.rkind), (16, f.inst),
    (8, f.slot), (10, f.owner), (1, b2n f.pending), (9, f.tried), (4, 0), (48, s.beat)]
  ((s.setO Od.slotRefusal v).addO Od.slotLoadRefusedCount 1).record 0x0D model (dataDown [(128, v)])

/-! ## Loading (R217 to R219) -/

/-- The code width check 3 compares with (R218). -/
def State.widthInForce (s : State) : Nat :=
  let st := s.o Od.indexState
  if st = 2 ∨ st = 3 ∨ st = 4 then s.index.fmtWidth else s.o Od.codeWidth

/-- A load refused: LOAD_REASON, EMPTY, and a record (R217). -/
def State.loadRefused (s : State) (m reason : Nat) : State :=
  let s := s.setO (Od.loadReason m) reason
  let s := s.setO (Od.modelState m) 0
  let s := s.setModel m {}
  s.record 0x0C m (dataDown [(16, m), (8, reason)])

/-- The placement bytes of a plan stake (R216). -/
def State.placeBytes (s : State) (m ps n : Nat) : List Nat :=
  (List.range n).map fun a => octElem (s.o (Od.placement m)) 256 1 (32 * ps + a)

/-- Check 4 of one plan stake (R216, R217). -/
def State.placeOk (s : State) (m ps arrays : Nat) : Bool :=
  let bs := s.placeBytes m ps 32
  let ours := bs.take arrays
  let loc := (ours.filter fun b => !bitAt b 6).map (· % 32)
  let span := ours.any fun b => bitAt b 6
  (ours.all fun b => bitAt b 7 && !bitAt b 5 && (!bitAt b 6 || b % 32 / 8 == 0)) && ((bs.drop arrays).all fun b => !bitAt b 7) &&
  loc.eraseDups.length == loc.length && (loc.all s.arrInService) &&
  (loc.all fun a => (List.range 4).all fun r =>
    !(s.res a r).used || (!span && (s.stake (s.res a r).stake).segs == 1))

/-- The local arrays of every plan stake. -/
def State.localsOf (s : State) (m : Nat) (p : Plan) : List (List Nat) :=
  (List.range p.stakes).map fun ps =>
    ((s.placeBytes m ps p.arrays).filter fun b => !bitAt b 6).map (· % 32)

/-- Whether a stake that spans modules shares an array with another stake of the same load. -/
def spansMeet (ls : List (List Nat)) (spans : List Bool) : Bool :=
  (List.range ls.length).any fun i => spans.getD i false &&
    (List.range ls.length).any fun j => i != j && (ls.getD i []).any fun a => (ls.getD j []).contains a

/-- Home granules of every local array claimed on a scratch state: check 9. -/
def claimAll (owner home : Nat) : List Nat → State → Option State
  | [], s => some s
  | a :: as, s => match claimGrans a gHOME owner 0 home s with
    | none => none
    | some (s, _) => claimAll owner home as s

/-- Checks 3 to 9 of R217: the reason of the first that fails, 0 when none does. (DEDUCED; log entry 66) -/
def State.loadChecks (s : State) (m : Nat) (p : Plan) : Nat :=
  let ls := s.localsOf m p
  let spans := (List.range p.stakes).map fun ps => (s.placeBytes m ps p.arrays).any fun b => bitAt b 6
  let all := ls.flatMap id
  let owner := s.o (Od.modelOwner m)
  let resOf (a : Nat) : Nat := ((List.range 4).filter fun r => (s.res a r).used).length + (all.filter (· == a)).length
  let accOf (a : Nat) : Nat := ((List.range 4).map fun r => if (s.res a r).used then (s.res a r).accUnits else 0).sum +
    p.accUnits * (all.filter (· == a)).length
  let free := 512 - (s.stakes.filter fun e => e.2.used).length
  firstCode [
    need (p.bin == 0 || p.bin == s.widthInForce) 0x03,
    need (((List.range p.stakes).all fun ps => s.placeOk m ps p.arrays) && !spansMeet ls spans) 0x04,
    need (all.all fun a => decide (resOf a ≤ 4)) 0x05,
    need (all.all fun a => decide (accOf a ≤ 32)) 0x06,
    need (decide (p.stakes ≤ free)) 0x07,
    need (decide (s.o (Od.nearUsed owner) + p.home * all.length ≤ s.o (Od.nearQuota owner)) &&
      decide (s.stackPromised owner + p.pinned * p.stakes ≤ s.o (Od.stackQuota owner)) && s.stackFits) 0x08,
    need (claimAll owner p.home all s).isSome 0x09]

/-- The lowest free stake number (R219). -/
def State.freeStake (s : State) : Nat := ((List.range 512).find? fun n => !(s.stake n).used).getD 512

/-- Stake ps of a model takes its number, and its residents the lowest free index of each array (R219); descriptor entries 0 to 3 583
are the plan's. -/
def State.takeStake (s : State) (m ps : Nat) (p : Plan) : State :=
  let n := s.freeStake
  let pl := s.placeBytes m ps p.arrays
  let loc := (pl.filter fun b => !bitAt b 6).map (· % 32)
  let links := ((pl.filter fun b => bitAt b 6).map (· % 8)).eraseDups
  let s := s.setStake n { used := true, model := m, plan := ps, segs := 1 + links.length, lead := !bitAt (pl.getD 0 0) 6
                          arrays := loc, place := pl }
  let s := s.setO (Od.stakeNumbers m) (octSet (s.o (Od.stakeNumbers m)) 16 2 ps n)
  (applyAll (fun (q : State × Nat) b =>
    let s := q.1
    if bitAt b 6 then (s, q.2 + 1) else
      let a := b % 32
      let r := ((List.range 4).find? fun r => !(s.res a r).used).getD 3
      (s.setRes a r { used := true, model := m, stake := n, accBase := 32 * r, accUnits := p.accUnits
                      descs := p.descsOf q.2 }, q.2 + 1)) (s, 0) pl).1

/-- Resident pages a descriptor's addresses name in the stack window (R175). -/
def descPages (d : Nat) : List Nat :=
  ([dElem d, dScale d, dSum d, dMag d].filter fun a => decide (0x8000000000 ≤ a ∧ a < 0xA000000000)).map fun a =>
    a / 2 ^ 21 % 2 ^ 16

/-- The lowest-numbered local array of a stake that names resident page i in a descriptor, else its lowest-numbered local array (R182). -/
def State.pageArray (s : State) (n i : Nat) : Nat :=
  let x := s.stake n
  let named := x.arrays.filter fun a => match s.residentOf n a with
    | some r => (s.res a r).descs.any fun e => (descPages e.2).contains i
    | none => false
  let low (as : List Nat) : Nat := as.foldl min 31
  if named.isEmpty then low x.arrays else low named

/-- PINNED pages of a stake for the plan's TILES (R182), page i being resident page i of every array of the stake (DESIGN CHOICE; log entry 21). -/
def pinTiles (n owner : Nat) : List Nat → State → Option State
  | [], s => some s
  | i :: is, s =>
    let a := s.pageArray n i
    match s.takePage (a / 8) cPINNED owner a ⟨1, n, i⟩ with
    | none => none
    | some (s, p) =>
      let s := applyAll (fun s b => match s.residentOf n b with
        | some r => s.setRes b r { s.res b r with stackMap := tIns i (2 ^ 30 + p) (s.res b r).stackMap }
        | none => s) s (s.stake n).arrays
      pinTiles n owner is s

/-- The stake numbers of a model, by plan stake. -/
def State.stakesOf (s : State) (m : Nat) : List Nat :=
  ((List.range 8).map fun i => octElem (s.o (Od.stakeNumbers m)) 16 2 i).filter fun n => decide (n < 512)

/-- Everything a model or a load of it holds is given back (R166, R168, R204). -/
def State.unloadModel (s : State) (m : Nat) : State :=
  let ns := s.stakesOf m
  let s := applyAll (fun s n =>
    let x := s.stake n
    let s := s.freeObject 1 n
    let s := applyAll (fun s a => match s.residentOf n a with
      | some r =>
        let y := s.res a r
        let s := applyAll (fun s (e : Nat × Gran) =>
          if granHome e.2 && e.2.res == r && e.2.state != gRETIRED then (s.putGran e.1 {}).wipeGran e.1 else s) s (s.sliceGrans a)
        let z := (s.arr a).clearEpoch r (x.epoch % 65536)
        let s := s.setArr a { z with actEp := tDel r z.actEp, sync := tDrop (fun k => k / 16 == r) z.sync
                                     syncEp := tDrop (fun k => k / 16 == r) z.syncEp, rows := tDrop (fun k => k / 512 == r) z.rows
                                     staged := tDrop (fun k => k / 512 / 2 ^ 40 == r) z.staged }
        if y.used then s.setRes a r {} else s
      | none => s) s x.arrays
    let free (t : Tbl Nat) : Tbl Nat := t.filter fun e => e.2 != n + 1
    let s := { s with slots := { s.slots with live := free s.slots.live, ledger := free s.slots.ledger } }
    s.setStake n {}) s ns
  let s := applyAll (fun s k =>
    if s.o (Od.skeinState k) != 0 && s.o (Od.skeinModel k) == m then
      let s := s.freeObject 2 k
      applyAll (fun s f => s.resetO (Od.skeinState k + f)) s (List.range 10)
    else s) s (List.range 512)
  let s := (s.resetO (Od.stakeNumbers m)).setO (Od.modelState m) 0
  { s.setModel m {} with steps := s.steps.filter fun e => e.2.model != m }

/-- What a load that passes checks 1 to 8 takes: its stakes with their residents, and its pinned pages; none when the pages are not
there (R217). -/
def State.takeLoad (s : State) (m : Nat) (p : Plan) : Option State :=
  let owner := s.o (Od.modelOwner m)
  let t := applyAll (fun s ps => s.takeStake m ps p) s (List.range p.stakes)
  (t.stakesOf m).foldl (fun (acc : Option State) n => match acc with
    | some t => pinTiles n owner (List.range p.pinned) t
    | none => none) (some t)

/-- MODEL_LOAD (R217, R382): a LOAD command runs checks 1 to 9, takes the load's resources and starts the copy of TILES. -/
def execModelLoad (m : Fin 64) (x : PlanX) (s : State) : Res :=
  .next <| guardS (s.o (Od.modelState m.val) == 1 && !s.slots.ledgerBad) s fun s =>
    let obj := s.o (Od.planObject m.val)
    if !s.storeValid obj then s.loadRefused m.val 0x0A else
    let bs := (s.storeObj obj).bytes
    match parsePlan bs x with
    | none => s.loadRefused m.val 0x01
    | some p =>
      if !p.digestOk then s.loadRefused m.val 0x02 else
      let c := s.loadChecks m.val p
      if c ≠ 0 then
        let s := if c = 0x08 then s.addO (Od.quotaRefusals (s.o (Od.modelOwner m.val))) 1 else s
        s.loadRefused m.val c
      else
        match s.takeLoad m.val p with
        | none => s.loadRefused m.val 0x09
        | some t => (t.setModel m.val { plan := some p }).setO (Od.modelState m.val) 2

/-- TILE_COPY_COMPLETE (R217, R165): the copy of TILES has ended, or could not read its origin; then the slot load check. -/
def execTileCopyComplete (m : Fin 64) (ok : Bool) (s : State) : Res :=
  .next <| match (s.model m.val).plan with
  | none => s
  | some p =>
    if s.o (Od.modelState m.val) != 2 || (s.model m.val).passed then s else
    let obj := s.storeObj (s.o (Od.planObject m.val))
    if !ok || obj.state != 2 then (s.unloadModel m.val).loadRefused m.val 0x0A else
    let tiles := (obj.bytes.drop p.tiles).take p.tilesLen
    let ns := s.stakesOf m.val
    match s.loadCheck ns p.shares with
    | .inl f => ((s.slotRefused m.val f).unloadModel m.val).loadRefused m.val 0x0B
    | .inr shs =>
      let s := applyAll (fun s n => s.fillPages (s.pagesOf 1 n) tiles) s ns
      s.setModel m.val { s.model m.val with shares := shs, passed := true }

/-- The largest cycle term of R212 over a plan at MAX_ROWS, with the pacing of R214. -/
def Plan.maxCycles (p : Plan) : Nat :=
  (p.recs.map fun r => let n := p.maxRows.getD r.fold 0; r.cycles n (n * (r.pace - 1))).foldl max 0

/-- Bytes and load cycles of a first tile, by its stationary format (R73). -/
def tileBytes (fmt : Nat) : Nat :=
  if fmt = 5 then 65536 + 4096 + 4096 else if fmt = 7 then 131072 + 2048 else if fmt = 3 ∨ fmt = 4 then 49152 + 4096 else 65536 + 4096
def tileCycles (fmt : Nat) : Nat := if fmt = 7 then 64 else if fmt = 3 ∨ fmt = 4 then 24 else 32

/-- The longest cyclic run of slots outside a mask. -/
def longestRun (mask : Nat) : Nat :=
  (((List.range 256).map fun i => ((List.range 256).takeWhile fun j => !bitAt mask ((i + j) % 256)).length)).foldl max 0

/-- T_fetch of R194 in ps for S bytes, with the stake's pseudo-channel shares. -/
def fetchPs (shares : List Share) (ps bytes : Nat) : Nat :=
  let pcs := shares.filter fun h => h.stake == ps && h.rkind == 3
  let n := (pcs.map fun h => popCount 256 h.mask).foldl min 256
  let g := (pcs.map fun h => longestRun h.mask).foldl max 0
  400000 + (if n = 0 ∨ pcs.isEmpty then 0 else cdiv (bytes * 128000) (n * 1000)) + (g - 32) * 2048

/-- SWITCH_WORST_NS (R215, R235): drained, the slowest clock, the plan's largest first tile missing in whole. -/
def Plan.switchNs (p : Plan) (shares : List Share) : Nat :=
  let t := p.first.map fun d =>
    let f := dFmt d.2.2.2
    (32 + (if f = 7 then 152 else 56) + tileCycles f + 32) * 1250 +
      ((List.range p.stakes).map fun ps => fetchPs shares ps (tileBytes f)).foldl max 0
  cdiv (t.foldl max 0) 1000

/-- Every stake's home granules placed, slice by slice; none when a slice cannot supply them (R201). -/
def placeAll (p : Plan) : List (Nat × Nat) → State → Option State
  | [], s => some s
  | (n, a) :: r, s => match s.residentOf n a with
    | none => placeAll p r s
    | some k => match s.placeHome a k p with
      | none => none
      | some s => placeAll p r s

/-- MODEL_LOAD_COMMIT (R167, R201, R202): at a beat boundary a passed load takes its home granules, and its shares enter the ledger and
the live tables. -/
def execModelLoadCommit (m : Fin 64) (s : State) : Res :=
  .next <| match (s.model m.val).plan with
  | none => s
  | some p =>
    let md := s.model m.val
    if !md.passed || s.o (Od.modelState m.val) != 2 || s.slots.ledgerBad then s else
    let ns := s.stakesOf m.val
    match placeAll p (ns.flatMap fun n => (s.stake n).arrays.map fun a => (n, a)) s with
    | none => (s.unloadModel m.val).loadRefused m.val 0x09
    | some s =>
      let put (t : Tbl Nat) : Tbl Nat := applyAll (fun (t : Tbl Nat) (h : Share) =>
        ownSlots t (ns.getD h.stake 0 + 1) h.rkind h.inst (setBits 256 h.mask)) t md.shares
      let s := { s with slots := { s.slots with ledger := put s.slots.ledger, live := put s.slots.live } }
      let s := applyAll (fun s n => s.setStake n { s.stake n with state := skIDLE }) s ns
      let s := s.setModel m.val { md with passed := false }
      let s := s.setO (Od.loadReason m.val) 0
      let s := s.setO (Od.modelState m.val) 3
      let s := s.setO (Od.courseMaxCycles m.val) p.maxCycles
      let s := s.setO (Od.switchWorstNs m.val) (p.switchNs md.shares)
      let s := { s with blobs := tIns (Od.costTable m.val) (planCostTable (s.storeObj (s.o (Od.planObject m.val))).bytes) s.blobs }
      s.measure 4 0x05 p.digest (s.o (Od.planObject m.val)) m.val

/-! ## Unloading (R220, R221) -/

/-- Whether a request that is not yet complete names a model in some level of its ladders. -/
def Req.binds (x : Req) (m : Nat) : Bool :=
  (stagesOf x.head.kind).any fun st => let v := x.cls.ladders.getD st 0
    (List.range (ladLen v)).any fun l => (ladModels st (ladEntry v l)).contains m

/-- MODEL_UNLOAD (R220): an UNLOAD of a READY model refuses new admissions that name it. -/
def execModelUnload (m : Fin 64) (s : State) : Res :=
  .next <| guardS (s.o (Od.modelState m.val) == 3 && (s.model m.val).unloadAsked) s fun s =>
    (s.setModel m.val { s.model m.val with unloadAsked := false }).setO (Od.modelState m.val) 4

/-- MODEL_UNLOAD_COMMIT (R220, R168, R204): at the first boundary at which no admitted request binds the model and no step of it
remains. -/
def execModelUnloadCommit (m : Fin 64) (s : State) : Res :=
  .next <| guardS (s.o (Od.modelState m.val) == 4 && !s.slots.ledgerBad &&
      !(s.reqs.any fun e => e.2.state == 2 && e.2.binds m.val) && !(s.steps.any fun e => e.2.model == m.val)) s fun s =>
    s.unloadModel m.val

/-- MODEL_CLEAR (R221): a FAILED model is unloaded at once. -/
def execModelClear (m : Fin 64) (s : State) : Res :=
  .next <| guardS (s.o (Od.modelState m.val) == 5 && s.o (Od.modelCommand m.val) == 3) s fun s => s.unloadModel m.val

/-- MODEL_FAIL (R221): none of the model's stakes could take a step for MODEL_FAIL_BEATS beats. -/
def execModelFail (m : Fin 64) (s : State) : Res :=
  .next <| guardS ((s.o (Od.modelState m.val) == 3 || s.o (Od.modelState m.val) == 4) &&
      decide (s.o Od.modelFailBeats ≤ (s.model m.val).stuck)) s fun s => s.failModel m.val

/-! ## Skeins (R238 to R244) -/

/-- SKEIN_CMD_STATUS with its record; a RESULT other than PENDING ends the command (R240). -/
def State.skeinStatus (s : State) (m result slot : Nat) (old : Option Nat) : State :=
  let v := packFields [(8, result), (9, slot), (9, old.getD 0), (1, b2n old.isSome), (53, 0), (48, s.beat)]
  let s := s.setO (Od.skeinCmdStatus m) v
  if result = 1 then s else
    (s.setModel m { s.model m with sk := none }).record 0x0E m (dataDown [(128, v)])

/-- The slot that is ACTIVE for a tenant, model and identifier. -/
def State.skeinOf (s : State) (tenant m id : Nat) : Option Nat :=
  (List.range 512).find? fun k => s.o (Od.skeinState k) == 2 && s.o (Od.skeinTenant k) == tenant && s.o (Od.skeinModel k) == m &&
    s.o (Od.skeinId k) == id

/-- A skein slot FREE again, its pages released. -/
def State.freeSkein (s : State) (k : Nat) : State :=
  let m := s.o (Od.skeinModel k)
  let s := s.freeObject 2 k
  let s := applyAll (fun s n => applyAll (fun s a => match s.residentOf n a with
    | some r => s.setRes a r { s.res a r with stackMap := tDrop (fun i => decide (32768 + 64 * k ≤ i ∧ i < 32832 + 64 * k)) (s.res a r).stackMap }
    | none => s) s (s.stake n).arrays) s (s.stakesOf m)
  applyAll (fun s f => s.resetO (Od.skeinState k + f)) s (List.range 10)

/-- A skein LOAD refused. -/
def State.skeinRefuse (s : State) (m result : Nat) (c : SkCmd) : State :=
  let s := if c.phase = 3 ∨ c.phase = 4 then s.freeSkein c.slot else s
  let s := if result = 4 then s.addO (Od.quotaRefusals c.tenant) 1 else s
  s.skeinStatus m result 0 none

/-- Steps 1 to 4 of R241 as far as they go now: a FREE slot, quota while older versions still count, a version not loaded yet, then the
slot LOADING with its PINNED pages; page j of slot k is resident page 32 768 + 64 k + j (DESIGN CHOICE; log entry 27). -/
def State.skeinTry (s : State) (m : Nat) (c : SkCmd) : State :=
  let wait (phase result : Nat) : State :=
    if s.beat < c.started + c.wait then
      (s.setModel m { s.model m with sk := some { c with phase := phase } }).skeinStatus m 1 0 none
    else s.skeinRefuse m result { c with phase := phase }
  match (List.range 512).find? fun k => s.o (Od.skeinState k) == 0 with
  | none => wait 1 3
  | some k =>
    if s.o (Od.stackQuota c.tenant) < s.stackPromised c.tenant + c.pages || !s.stackFits then wait 2 4
    else if (List.range 512).any fun j => s.o (Od.skeinState j) != 0 && s.o (Od.skeinTenant j) == c.tenant &&
        s.o (Od.skeinModel j) == m && s.o (Od.skeinId j) == c.id && s.o (Od.skeinVersion j) == c.ver then
      s.skeinRefuse m 6 { c with phase := 1 }
    else if !s.storeValid c.source then s.skeinRefuse m 7 { c with phase := 1 }
    else
      let a := ((s.stake ((s.stakesOf m).headD 512)).arrays).foldl min 31
      match takePages (a / 8) cPINNED c.tenant a 2 k c.pages 0 s with
      | none => wait 2 4
      | some (s, ps) =>
        let s := applyAll (fun s n => applyAll (fun s b => match s.residentOf n b with
          | some r => s.setRes b r { s.res b r with stackMap := (applyAll (fun (t : Tbl Nat × Nat) p =>
              (if t.2 < 64 then tIns (32768 + 64 * k + t.2) (2 ^ 30 + p) t.1 else t.1, t.2 + 1)) ((s.res b r).stackMap, 0) ps).1 }
          | none => s) s (s.stake n).arrays) s (s.stakesOf m)
        let s := applyAll (fun s (e : Nat × Nat) => s.setO e.1 e.2) s
          [(Od.skeinState k, 1), (Od.skeinTenant k, c.tenant), (Od.skeinModel k, m), (Od.skeinId k, c.id),
           (Od.skeinVersion k, c.ver), (Od.skeinPages k, c.pages), (Od.skeinSource k, c.source)]
        let s := s.setModel m { s.model m with sk := some { c with slot := k, phase := 3 } }
        s.skeinStatus m 1 k none

/-- SKEIN_LOAD (R239, R241): a LOAD command seeks a slot and quota for the `pages` its tiles need (DESIGN CHOICE; log entry 20), then the copy starts. -/
def execSkeinLoad (m : Fin 64) (pages : Nat) (s : State) : Res :=
  .next <| match (s.model m.val).sk with
  | none => s
  | some c => if c.op != 1 || c.phase != 0 then s else s.skeinTry m.val { c with pages := pages }

/-- The tests of steps 1 and 2 repeated at a beat boundary (R241). -/
def State.skeinRetry (s : State) (m : Nat) : State :=
  match (s.model m).sk with
  | none => s
  | some c => if c.phase = 1 ∨ c.phase = 2 then
      (if s.beat < c.started + c.wait then s.skeinTry m c else s) else s

/-- SKEIN_WAIT_EXPIRY (R241): WAIT_BEATS beats have passed. -/
def execSkeinWaitExpiry (m : Fin 64) (s : State) : Res :=
  .next <| match (s.model m.val).sk with
  | none => s
  | some c =>
    if (c.phase = 1 ∨ c.phase = 2) ∧ c.started + c.wait ≤ s.beat then s.skeinRefuse m.val (if c.phase = 1 then 3 else 4) c else s

/-- SKEIN_COPY_COMPLETE (R241): the tiles are in PINNED pages, or could not be read; `tiles` are the tiles' entries, each with 1 for a
512 × 256 MXFP4 tile, and `baseId` the skein's BASE_ID (DESIGN CHOICE; log entry 20).  The slot becomes ACTIVE at the next beat boundary. -/
def execSkeinCopyComplete (m : Fin 64) (ok : Bool) (baseId : Nat) (tiles : List (Nat × Nat)) (s : State) : Res :=
  .next <| match (s.model m.val).sk with
  | none => s
  | some c =>
    if c.phase != 3 then s
    else if !ok || !s.storeValid c.source then s.skeinRefuse m.val 7 c
    else
      let dense := tiles.any fun t => decide ((if t.2 = 1 then 5242 else 2621) < t.1)
      let base := ((s.model m.val).plan.map (·.base)).getD 0
      if dense || baseId != base then s.skeinRefuse m.val 5 c
      else
        let s := s.fillPages (s.pagesOf 2 c.slot) (s.storeObj c.source).bytes
        let s := s.setO (Od.skeinMaxTileEntries c.slot) ((tiles.map (·.1)).foldl max 0)
        s.setModel m.val { s.model m.val with sk := some { c with phase := 4 } }

/-- A copied skein becomes ACTIVE at a beat boundary, and the one before it RETIRING (R241, step 5). -/
def State.skeinActivate (s : State) (m : Nat) : State :=
  match (s.model m).sk with
  | none => s
  | some c =>
    if c.phase != 4 then s else
    let old := s.skeinOf c.tenant m c.id
    let s := match old with
      | some k => s.setO (Od.skeinState k) 3
      | none => s
    let s := s.setO (Od.skeinState c.slot) 2
    let s := s.setO (Od.skeinActiveBeat c.slot) s.beat
    let s := s.measure 4 0x06 (s.storeObj c.source).digest c.source m
    s.skeinStatus m 2 c.slot old

/-- SKEIN_REMOVE (R242): the ACTIVE slot becomes RETIRING, or the command answers NOT_FOUND. -/
def execSkeinRemove (m : Fin 64) (s : State) : Res :=
  .next <| match (s.model m.val).sk with
  | none => s
  | some c =>
    if c.op != 2 then s else
    match s.skeinOf c.tenant m.val c.id with
    | none => s.skeinStatus m.val 8 0 none
    | some k => (s.setO (Od.skeinState k) 3).skeinStatus m.val 2 k none

/-- SKEIN_SLOT_FREE (R242, R244): a RETIRING or FAILED slot without references becomes FREE at a beat boundary. -/
def execSkeinSlotFree (k : Fin 512) (s : State) : Res :=
  .next <| guardS ((s.o (Od.skeinState k.val) == 3 || s.o (Od.skeinState k.val) == 4) && s.o (Od.skeinRefs k.val) == 0) s fun s =>
    s.freeSkein k.val

end Sys2Proof.Machine
end

