-- ==== Sys2Proof/Machine/Words.lean ====
section
/-!
DEFINITION. Vocabularies, trie units, grammars and their certification (11_tokenizer_and_grammar.md R328 to R356).
-/
namespace Sys2Proof.Machine

/-! ## Vocabulary images (R328 to R331) -/

/-- A node record (R329) and the fields of it. -/
def Vocab.node (v : Vocab) (i : Nat) : Nat := leAt v.image (v.trieOff + 16 * i) 16
def ndDense (n : Nat) : Bool := bits n 127 126 == 1
def ndTok (n : Nat) : Option Nat := if bitAt n 125 then some (bits n 124 107) else none

/-- The labels of a node with their child's record, ascending. -/
def Vocab.edges (v : Vocab) (n : Nat) : List (Nat × Nat) :=
  let base := bits n 103 84
  let labels := if ndDense n then
      let m := leAt v.image (v.trieOff + 16 * v.nodes + 32 * bits n 83 65) 32
      (List.range 256).filter fun b => bitAt m b
    else (List.range (bits n 106 104)).map fun i => bits n (83 - 8 * i) (76 - 8 * i)
  (labels.zip (List.range labels.length)).map fun p => (p.1, base + p.2)

/-- The child of a node for a byte (R329, R335). -/
def Vocab.child (v : Vocab) (n b : Nat) : Option Nat := ((v.edges n).find? fun e => e.1 == b).map (·.2)

/-- The nodes reached from the root with the bytes that lead to them; none when a node is reached twice or lies outside. -/
def trieWalk (v : Vocab) : Nat → List (Nat × List Byte) → List (Nat × List Byte) → Option (List (Nat × List Byte))
  | 0, [], acc => some acc
  | 0, _, _ => none
  | _, [], acc => some acc
  | f + 1, (i, path) :: work, acc =>
    if v.nodes ≤ i || acc.any fun a => a.1 == i then none
    else trieWalk v f (((v.edges (v.node i)).map fun e => (e.2, path ++ [BitVec.ofNat 8 e.1])) ++ work) ((i, path) :: acc)

/-- Whether labels ascend. -/
def ascend (xs : List Nat) : Bool := (xs.zip (xs.drop 1)).all fun p => decide (p.1 < p.2)

/-- Whether an image ends with the digest of the bytes before it (11_tokenizer_and_grammar.md, the vocabulary image; R341 for a grammar). (DEDUCED; log entry 16) -/
def imageDigestOk (bs : List Byte) : Bool := sha384 (bs.take (bs.length - 48)) == beNat (bs.drop (bs.length - 48))

/-- Checks 1 to 4 of a vocabulary load (R331), check 2 being `ok`: the reason of the first that fails, or the content. (DEDUCED; log entry 55) -/
def vocabChecks (ok : Bool) (bs : List Byte) : Nat ⊕ Vocab :=
  let h := leAt bs 0 64
  let maps := bits h 287 256
  let strN := bits h 159 128
  let v : Vocab := { entries := bits h 463 445, endTok := bits h 444 427, fb := bits h 426 425, fbTok := bits h 424 407
                     maxB := bits h 406 399, id := bits h 383 320, image := bs, trieOff := bits h 255 224
                     nodes := bits h 319 288, invOff := bits h 223 192, strOff := bits h 191 160
                     pages := cdiv bs.length (2 ^ 21), digest := beNat (bs.drop (bs.length - 48)) }
  let stop := bs.length - 48
  let trieB := 16 * v.nodes + 32 * maps
  let recs := (List.range v.entries).map v.inv
  let ns := (List.range v.nodes).map v.node
  let format := bits h 511 480 == 0x56434231 && bits h 479 464 == 1 && decide (64 + 48 ≤ bs.length) &&
    decide (1 ≤ v.entries ∧ v.entries ≤ 262144) && decide (v.endTok < v.entries) && decide (v.fb ≤ 2) &&
    (if v.fb = 0 then decide (v.fbTok + 255 < v.entries) else if v.fb = 1 then decide (v.fbTok < v.entries) else v.fbTok == 0) &&
    decide (1 ≤ v.maxB ∧ v.maxB ≤ 128) && bits h 398 384 == 0 && bits h 127 0 == 0 &&
    decide (1 ≤ v.nodes ∧ v.nodes ≤ 1048576) && decide (maps ≤ 524288) && decide (trieB ≤ 2 ^ 24) &&
    v.trieOff % 256 == 0 && v.invOff % 256 == 0 && v.strOff % 256 == 0 &&
    decide (v.trieOff + trieB ≤ stop ∧ v.invOff + 8 * v.entries ≤ stop ∧ v.strOff + strN ≤ stop) &&
    (recs.all fun r => bits r 22 0 == 0 && decide (bits r 31 24 ≤ 128) && decide (bits r 63 32 + bits r 31 24 ≤ strN)) &&
    invSpecial (v.inv v.endTok) &&
    ns.all fun n => decide (bits n 127 126 ≤ 1) && bits n 35 0 == 0 &&
      (if ndDense n then bits n 106 104 == 0 && bits n 64 36 == 0 && decide (bits n 83 65 < maps) else decide (bits n 106 104 ≤ 6) && bits n (83 - 8 * bits n 106 104) 36 == 0)
  if !format then .inl 1
  else if !ok then .inl 2
  else
    match trieWalk v (v.nodes + 1) [(0, [])] [] with
    | none => .inl 3
    | some ws =>
      let toks := ws.filterMap fun w => (ndTok (v.node w.1)).map fun t => (t, w.2)
      let trie := ws.length == v.nodes && (ns.all fun n => ascend ((v.edges n).map (·.1))) &&
        (toks.all fun t => decide (t.1 < v.entries) && v.str t.1 == t.2 && t.2 != [] && !invSpecial (v.inv t.1)) &&
        (List.range v.entries).all fun t => (toks.filter fun x => x.1 == t).length == b2n (!invSpecial (v.inv t))
      let single (b : Nat) : Bool := toks.any fun t => t.2 == [BitVec.ofNat 8 b]
      let cover := match v.fb with
        | 0 => (List.range 256).all fun b => v.str (v.fbTok + b) == [BitVec.ofNat 8 b]
        | 2 => (List.range 256).all single
        | _ => true
      if !trie then .inl 3 else if !cover then .inl 4 else .inr v

def parseVocab (bs : List Byte) : Nat ⊕ Vocab := vocabChecks (imageDigestOk bs) bs

/-! ## Pages of slots -/

/-- n pages on one stack for an object, from page index k on; none when the stack runs out. -/
def takeOn (h cls owner target kind obj : Nat) : Nat → Nat → State → Option State
  | 0, _, s => some s
  | n + 1, k, s =>
    match s.freePageOf h with
    | none => none
    | some p => takeOn h cls owner target kind obj n (k + 1)
        (s.putPage p { cls := cls, owner := owner, target := target, use := ⟨kind, obj, k⟩ })

/-- PINNED pages of a slot's image on one stack of its target slice's die, charged to its owner and filled; none when the quota or the
stack does not allow them (R199). -/
def State.pinImage (s : State) (owner target kind obj : Nat) (bs : List Byte) : Option State :=
  let n := cdiv bs.length (2 ^ 21)
  if s.o (Od.stackQuota owner) < s.stackPromised owner + n || !s.stackFits then none
  else match s.stackOfDie (target / 8) with
    | none => none
    | some h => (takeOn h cPINNED owner target kind obj n 0 s).map fun s => s.fillPages (s.pagesOf kind obj) bs

/-- An IMAGE_LOAD record (R614): slot kind 0 vocabulary, 1 grammar, 2 table, 3 text dictionary. -/
def State.imageRec (s : State) (kind slot reason : Nat) : State :=
  s.record 0x0F (256 * kind + slot) (dataDown [(8, kind), (16, slot), (8, reason)])

def State.gslot (s : State) (g : Nat) : GSlot := tGet {} s.grammars g
def State.setGslot (s : State) (g : Nat) (x : GSlot) : State := { s with grammars := tSet {} s.grammars g x }

/-! ## Vocabulary slots (R332, R333) -/

/-- VOCAB_LOAD (R331, R333): the load that a LOAD command began in an EMPTY or READY slot runs its checks; `ok` says whether its origin
could be read. -/
def execVocabLoad (v : Fin 16) (ok : Bool) (s : State) : Res :=
  .next <|
    let st := s.o (Od.vocabState v.val)
    let x := s.vslot v.val
    if !(st == 1 || st == 3) || x.next.isSome then s else
    let fail (s : State) (reason : Nat) : State :=
      let s := s.setO (Od.vocabState v.val) (if st = 1 then 0 else 2)
      (s.setO (Od.vocabLoadReason v.val) reason).imageRec 0 v.val reason
    let src := s.o (Od.vocabSource v.val)
    let owner := s.o (Od.vocabOwner v.val)
    if !s.storeValid src then fail s 6
    else match parseVocab (s.storeObj src).bytes with
      | .inl r => fail s r
      | .inr w =>
        match s.pinImage owner (s.o (Od.vocabTargetSlice v.val)) 3 (slotObj v.val (x.gen + 1)) w.image with
        | none => fail (s.addO (Od.quotaRefusals owner) 1) 5
        | some t =>
          if !ok then fail s 6
          else
            let w := { w with src := src }
            (t.setVslot v.val { x with next := some w }).setO (Od.vocabPages v.val) (((x.cur.map (·.pages)).getD 0) + w.pages)

/-- VOCAB_LOAD_DONE (R333): at a beat boundary a passed load becomes READY, or takes over a replaced slot without references. -/
def execVocabLoadDone (v : Fin 16) (s : State) : Res :=
  .next <|
    let st := s.o (Od.vocabState v.val)
    let x := s.vslot v.val
    match x.next with
    | none => s
    | some w =>
      if !(st == 1 || (st == 3 && s.o (Od.vocabRefs v.val) == 0)) then s else
      let s := s.freeObject 3 (slotObj v.val x.gen)
      let s := s.setVslot v.val { cur := some w, next := none, gen := x.gen + 1 }
      let s := applyAll (fun s (e : Nat × Nat) => s.setO e.1 e.2) s
        [(Od.vocabState v.val, 2), (Od.vocabEntries v.val, w.entries), (Od.vocabEndToken v.val, w.endTok),
         (Od.vocabMaxBytes v.val, w.maxB), (Od.vocabId v.val, w.id), (Od.vocabPages v.val, w.pages), (Od.vocabLoadReason v.val, 0)]
      s.measure 5 0x07 w.digest w.src v.val

/-- VOCAB_CLOSE (R333): a CLOSE in READY makes the slot CLOSING. -/
def execVocabClose (v : Fin 16) (s : State) : Res :=
  .next <| guardS (s.o (Od.vocabState v.val) == 2 && s.o (Od.vocabCommand v.val) == 2) s fun s => s.setO (Od.vocabState v.val) 4

/-- VOCAB_CLOSE_DONE (R333): at the first boundary without references the slot is EMPTY and its pages are released. -/
def execVocabCloseDone (v : Fin 16) (s : State) : Res :=
  .next <| guardS (s.o (Od.vocabState v.val) == 4 && s.o (Od.vocabRefs v.val) == 0) s fun s =>
    let x := s.vslot v.val
    let s := s.freeObject 3 (slotObj v.val x.gen)
    let s := s.setVslot v.val { gen := x.gen }
    applyAll State.resetO s [Od.vocabState v.val, Od.vocabEntries v.val, Od.vocabEndToken v.val, Od.vocabMaxBytes v.val,
      Od.vocabId v.val, Od.vocabPages v.val]

/-! ## Trie units (R335 to R339) -/

/-- What a job has done so far: the lines of its unit's cache by slot, load and line, lookups, misses, fallbacks, bytes read. -/
structure TrieRun where
  lines : List (Nat × Nat × Nat) := []
  looks : Nat := 0
  miss  : Nat := 0
  falls : Nat := 0
  reads : List Nat := []
  deriving DecidableEq, Repr

/-- A byte range of the trie is used: in the crown (`crown`), or through a line of the cache, least recently used replaced first. -/
def TrieRun.use (x : TrieRun) (slot gen off : Nat) (crown : Bool) : TrieRun :=
  if crown then x else
  let l := (slot, gen, off / 64)
  if x.lines.contains l then { x with lines := l :: x.lines.filter fun m => m != l }
  else { x with lines := (l :: x.lines).take 1024, miss := x.miss + 1, reads := (off / 64 * 64) :: x.reads }

/-- A node record is read. -/
def TrieRun.useNode (x : TrieRun) (slot gen i : Nat) : TrieRun := x.use slot gen (16 * i) (decide (i < 3072))

/-- One lookup (R339): the node's record, and its bitmap when it is DENSE. -/
def TrieRun.look (x : TrieRun) (v : Vocab) (slot gen i : Nat) : TrieRun :=
  let n := v.node i
  let x := { x.useNode slot gen i with looks := x.looks + 1 }
  if ndDense n then x.use slot gen (16 * v.nodes + 32 * bits n 83 65) (decide (bits n 83 65 < 512)) else x

/-- The walk of one longest match (R335): the best entry and its length. -/
def trieMatch (v : Vocab) (slot gen : Nat) : List Byte → Nat → Nat → Option (Nat × Nat) → TrieRun → Option (Nat × Nat) × TrieRun
  | [], _, _, best, x => (best, x)
  | b :: t, node, len, best, x =>
    let x := x.look v slot gen node
    match v.child (v.node node) b.toNat with
    | none => (best, x)
    | some c =>
      let x := x.useNode slot gen c
      let best := match ndTok (v.node c) with
        | some k => some (k, len + 1)
        | none => best
      trieMatch v slot gen t c (len + 1) best x

/-- Longest match over a text (R335): tokens so far, newest first, and the bytes left when MAX_OUT was reached. -/
def trieText (v : Vocab) (slot gen maxOut : Nat) : Nat → List Byte → List Nat → TrieRun → List Nat × List Byte × TrieRun
  | 0, t, out, x => (out, t, x)
  | _, [], out, x => (out, [], x)
  | f + 1, b :: t, out, x =>
    if maxOut ≤ out.length then (out, b :: t, x) else
    match trieMatch v slot gen (b :: t) 0 0 none x with
    | (some (k, n), x) => trieText v slot gen maxOut f ((b :: t).drop n) (k :: out) x
    | (none, x) =>
      let k := if v.fb = 0 then v.fbTok + b.toNat else v.fbTok
      trieText v slot gen maxOut f t (k :: out) { x with falls := x.falls + 1 }

/-- The tokens of a text by R335 alone. -/
def Vocab.tokens (v : Vocab) (maxOut : Nat) (t : List Byte) : List Nat := (trieText v 0 0 maxOut (t.length + 1) t [] {}).1.reverse

/-! ## Tokenization jobs (R334, R336, R337) -/

/-- Largest MAX_ROWS of the plan of a model. -/
def State.topRows (s : State) (m : Nat) : Nat := ((s.model m).plan.map Plan.top).getD 512

/-- R_max of the re-ranking model, and the query tokens of a row (R446). -/
def State.rowMax (s : State) (x : Req) : Nat := min x.fset.rowMax (s.topRows ((x.modelOf 2).getD 64))
def State.queryToks (s : State) (x : Req) : Nat := min (min x.fset.qMax (s.rowMax x - 4)) ((x.rtoks.map (·.length)).getD 0)

/-- The prompt budget of a request (R452). -/
def Req.promptBudget (x : Req) : Nat :=
  if x.head.budget ≠ 0 ∧ x.head.budget < x.tmplV.budget then x.head.budget else x.tmplV.budget

/-- The slot and MAX_OUT of a job (R334, R336, R446). -/
def State.jobBounds (s : State) (j : TrieJob) : Nat × Nat :=
  let x := s.req j.req
  match j.role with
  | 0 => (x.head.encV, min 512 (s.topRows ((x.modelOf 0).getD 64)))
  | 5 => (x.head.encV, min 512 (s.topRows ((x.modelOf 0).getD 64)))
  | 1 => (x.head.rerV, min x.fset.qMax (s.rowMax x - 4))
  | 3 => (x.head.rerV, s.rowMax x - 3 - s.queryToks x)
  | _ => (x.head.genV, x.promptBudget)

/-- The text of a job. -/
def State.jobText (s : State) (j : TrieJob) : List Byte :=
  let x := s.req j.req
  if j.role = 5 then (x.items.getD j.item {}).text
  else if j.role = 3 ∨ j.role = 4 then (x.cands.getD j.item {}).text.getD []
  else x.head.question

/-- The rim die whose memory holds the text (R337): 0 RN, 1 RS. -/
def State.jobDie (s : State) (j : TrieJob) : Nat :=
  if j.role = 3 ∨ j.role = 4 then (if ((s.req j.req).cands.getD j.item {}).spoke < 16 then 0 else 1) else 0

/-- A job enters its die's queue, or waits in its stage when that holds 1 024 (R337). -/
def State.askTokens (s : State) (r role item : Nat) : State :=
  let j : TrieJob := { req := r, role := role, item := item, rank := (s.req r).cls.rank }
  let n := (s.trieQ.filter fun k => s.jobDie k == s.jobDie j).length
  let s := if n < 1024 then s else s.addO Od.trieQueueFull 1
  { s with trieQ := s.trieQ ++ [j] }

/-- The tokens of a job reach the stage that asked for them. -/
def State.putTokens (s : State) (j : TrieJob) (ts : List Nat) (trunc : Bool) : State :=
  let x := s.req j.req
  let cand (f : Cand → Cand) : Req := { x with cands := x.cands.set j.item (f (x.cands.getD j.item {})) }
  s.setReq j.req <| match j.role with
    | 0 => { x with toks := some ts }
    | 1 => { x with rtoks := some ts }
    | 3 => cand fun c => { c with toks := some ts, trunc := trunc }
    | 4 => cand fun c => { c with gtoks := some ts }
    | 5 => { x with items := x.items.set j.item { x.items.getD j.item {} with toks := some ts } }
    | _ => { x with gtoks := some ts }

/-- The next job of a die: among its first 1 024, descending rank, then ascending arrival stamp. -/
def State.nextJob (s : State) (die : Nat) : Option TrieJob :=
  let js := (s.trieQ.filter fun j => s.jobDie j == die).take 1024
  let key (j : TrieJob) : List Nat := [32 - j.rank, (s.req j.req).beat, (s.req j.req).seq]
  (sortBy (fun a b => lexLt (key a) (key b)) js).head?

/-- The unit that runs a job on a slot: the lowest free one whose crown holds the slot, else the lowest free one (R337). -/
def State.pickTrie (s : State) (die slot gen : Nat) (busy : List Nat) : Option Nat :=
  let free := ((List.range 16).map fun i => 16 * die + i).filter fun u => !busy.contains u
  match free.find? fun u => (tGet {} s.tries u : Trie).crown == some (slot, gen) with
  | some u => some u
  | none => free.head?

/-- A passage of the question's own needs: after the query of stage 11 is tokenized its passages follow (R446). -/
def State.passagesAfter (s : State) (j : TrieJob) : State :=
  if j.role != 1 then s else
  let x := s.req j.req
  applyAll (fun s i => if (x.cands.getD i {}).text.isSome && (x.cands.getD i {}).toks.isNone then s.askTokens j.req 3 i else s) s
    (List.range x.cands.length)

/-! ## Grammar images (R341 to R346) -/

def Grammar.stRec (g : Grammar) (i : Nat) : Nat := leAt g.image (g.stOff + 16 * i) 16
def Grammar.trRec (g : Grammar) (i : Nat) : Nat := leAt g.image (g.trOff + 32 * i) 32
def Grammar.reRec (g : Grammar) (i : Nat) : Nat := leAt g.image (g.reOff + 16 * i) 16
/-- Bytes of a mask, and mask m as a number whose bit v is token v. -/
def Grammar.maskBytes (g : Grammar) : Nat := 256 * cdiv g.entries 2048
def Grammar.mask (g : Grammar) (m : Nat) : Nat := leAt g.image (g.maOff + g.maskBytes * m) g.maskBytes

/-- Symbol i of a 64-bit field. -/
def sym (v i : Nat) : Nat := bits v (16 * i + 15) (16 * i)

/-- Whether the top n symbols of a stack (top last) are those of a field, symbol 0 the top. -/
def topIs (k : List Nat) (n v : Nat) : Bool :=
  decide (n ≤ k.length) && (k.reverse.take n == (List.range n).map (sym v))

/-- The refinement entries of a state that match a stack, in order (R344). -/
def Grammar.matching (g : Grammar) (st : Nat) (k : List Nat) : List Nat :=
  let r := g.stRec st
  ((List.range (bits r 111 107)).map fun i => bits r 63 32 + i).filter fun e =>
    let v := g.reRec e
    decide (bits v 123 117 ≤ k.length ∧ k.length ≤ bits v 116 110) && topIs k (bits v 126 124) v

/-- The mask of a state with a stack (R344). -/
def Grammar.maskOf (g : Grammar) (st : Nat) (k : List Nat) : Nat :=
  (g.matching st k).foldl (fun m e =>
    let v := g.reRec e
    let x := g.mask (bits v 109 94)
    if bitAt v 127 then Nat.xor m (Nat.land m x) else Nat.lor m x) (g.mask (bits (g.stRec st) 127 112))

/-- The hash of a token in a state's table. -/
def grHash (x b : Nat) : Nat := x * 2654435761 % 2 ^ 32 / 2 ^ (32 - b)

/-- A token advances the automaton (R343): the state and stack after it, or none. -/
def Grammar.advance (g : Grammar) (st : Nat) (k : List Nat) (x : Nat) : Option (Nat × List Nat) :=
  let r := g.stRec st
  let b := bits r 106 103
  let hit := if b = 0 then none else
    ((List.range g.probe).map fun p => g.trRec (bits r 31 0 + (grHash x b + p) % 2 ^ b)).find? fun e =>
      bitAt e 237 && bits e 255 238 == x && topIs k (bits e 220 218) (bits e 127 64)
  match hit with
  | some e =>
    let pops := bits e 220 218
    let push := (List.range (bits e 217 215)).map (sym (bits e 63 0))
    let k := k.take (k.length - pops) ++ push
    if 64 < k.length then none else some (bits e 236 221, k)
  | none => if bitAt r 102 then some (bits r 101 86, k) else none

/-- The most refinement entries of a state that one depth and stack can match at once (R346, check 5). -/
def Grammar.mostMatches (g : Grammar) (st : Nat) : Nat :=
  let r := g.stRec st
  let es := (List.range (bits r 111 107)).map fun i => g.reRec (bits r 63 32 + i)
  let on (d e : Nat) : Bool := decide (bits e 123 117 ≤ d ∧ d ≤ bits e 116 110 ∧ bits e 126 124 ≤ d)
  let pre (a b : Nat) : Bool := decide (bits a 126 124 ≤ bits b 126 124) &&
    (List.range (bits a 126 124)).all fun i => sym a i == sym b i
  ((List.range 65).flatMap fun d => es.map fun e =>
    if on d e then (es.filter fun f => on d f && pre f e).length else 0).foldl max 0

/-- Checks 1, 4 and 5 of a grammar load and, between them, checks 2 and 3, which `ok` and `vocab` decide (R346). (DEDUCED; log entry 55) -/
def grammarChecks (ok : Bool) (bs : List Byte) (vocab : Nat → Nat → Bool) : Nat ⊕ Grammar :=
  let h := leAt bs 0 64
  let stop := bs.length - 48
  let g : Grammar := { states := bits h 463 447, start := bits h 446 431, masks := bits h 430 414, entries := bits h 413 395
                       probe := bits h 394 392, maxMatch := bits h 391 388, maxTrans := bits h 387 384, vid := bits h 383 320
                       image := bs, stOff := bits h 319 288, trOff := bits h 287 256, reOff := bits h 255 224
                       maOff := bits h 223 192, trSlots := bits h 191 160, refines := bits h 159 128
                       pages := cdiv bs.length (2 ^ 21), digest := beNat (bs.drop stop) }
  let sts := (List.range g.states).map g.stRec
  let trs := (List.range g.trSlots).map g.trRec
  let res := (List.range g.refines).map g.reRec
  let format := bits h 511 480 == 0x47524D31 && bits h 479 464 == 1 && decide (64 + 48 ≤ bs.length) &&
    decide (1 ≤ g.states ∧ g.states ≤ 65536) && decide (1 ≤ g.masks ∧ g.masks ≤ 65536) &&
    decide (1 ≤ g.entries ∧ g.entries ≤ 262144) && decide (1 ≤ g.probe ∧ g.probe ≤ 4) && decide (g.maxMatch ≤ 8) &&
    decide (g.maxTrans ≤ 11) && bits h 127 0 == 0 && g.stOff % 256 == 0 && g.trOff % 256 == 0 && g.reOff % 256 == 0 &&
    g.maOff % 256 == 0 && decide (g.stOff + 16 * g.states ≤ stop ∧ g.trOff + 32 * g.trSlots ≤ stop ∧
      g.reOff + 16 * g.refines ≤ stop ∧ g.maOff + g.maskBytes * g.masks ≤ stop) &&
    (sts.all fun r => decide (bits r 111 107 ≤ 16 ∧ bits r 106 103 ≤ 11) && bits r 85 64 == 0) &&
    (trs.all fun e => decide (bits e 220 218 ≤ 4 ∧ bits e 217 215 ≤ 4) && bits e 214 128 == 0) &&
    res.all fun e => decide (bits e 126 124 ≤ 4 ∧ bits e 123 117 ≤ 64 ∧ bits e 116 110 ≤ 64) && bits e 93 64 == 0
  let table (r : Nat) : Bool :=
    let b := bits r 106 103
    let es := ((List.range (2 ^ b)).map fun i => (i, g.trRec (bits r 31 0 + i))).filter fun e => bitAt e.2 237
    b == 0 || (decide (bits r 31 0 + 2 ^ b ≤ g.trSlots) &&
      (es.all fun e => decide ((e.1 + 2 ^ b - grHash (bits e.2 255 238) b) % 2 ^ b < g.probe)) &&
      es.all fun e => (es.filter fun f => bits f.2 255 238 == bits e.2 255 238 && bits f.2 127 64 == bits e.2 127 64).length == 1)
  let structure_ := decide (g.start < g.states) &&
    (sts.all fun r => decide (bits r 127 112 < g.masks) && (!bitAt r 102 || decide (bits r 101 86 < g.states)) &&
      decide (bits r 63 32 + bits r 111 107 ≤ g.refines) && table r) &&
    (trs.all fun e => !bitAt e 237 || decide (bits e 236 221 < g.states)) &&
    (res.all fun e => decide (bits e 109 94 < g.masks)) &&
    (List.range g.masks).all fun m => decide (g.mask m < 2 ^ g.entries)
  let bounds := ((List.range g.states).all fun i => decide (g.mostMatches i ≤ g.maxMatch)) &&
    sts.all fun r => decide (bits r 106 103 ≤ g.maxTrans)
  if !format then .inl 1
  else if !ok then .inl 2
  else if !vocab g.vid g.entries then .inl 3
  else if !structure_ then .inl 4
  else if !bounds then .inl 5
  else .inr g

def parseGrammar (bs : List Byte) (vocab : Nat → Nat → Bool) : Nat ⊕ Grammar := grammarChecks (imageDigestOk bs) bs vocab

/-! ## Grammar slots (R347, R333) -/

/-- GRAMMAR_LOAD (R346, R347): as VOCAB_LOAD, with the vocabulary slot of GRAMMAR_VOCAB_SLOT for check 3. -/
def execGrammarLoad (g : Fin 64) (ok : Bool) (s : State) : Res :=
  .next <|
    let st := s.o (Od.grammarSlotState g.val)
    let x := s.gslot g.val
    if !(st == 1 || st == 3) || x.next.isSome then s else
    let fail (s : State) (reason : Nat) : State :=
      let s := s.setO (Od.grammarSlotState g.val) (if st = 1 then 0 else 2)
      (s.setO (Od.grammarLoadReason g.val) reason).imageRec 1 g.val reason
    let src := s.o (Od.grammarSource g.val)
    let owner := s.o (Od.grammarOwner g.val)
    let v := s.o (Od.grammarVocabSlot g.val)
    let vok (id n : Nat) : Bool := s.o (Od.vocabState v) == 2 && s.o (Od.vocabId v) == id && s.o (Od.vocabEntries v) == n
    if !s.storeValid src then fail s 7
    else match parseGrammar (s.storeObj src).bytes vok with
      | .inl r => fail s r
      | .inr w =>
        match s.pinImage owner (s.o (Od.grammarTargetSlice g.val)) 4 (slotObj g.val (x.gen + 1)) w.image with
        | none => fail (s.addO (Od.quotaRefusals owner) 1) 6
        | some t =>
          if !ok then fail s 7
          else
            let w := { w with src := src }
            (t.setGslot g.val { x with next := some w }).setO (Od.grammarPages g.val) (((x.cur.map (·.pages)).getD 0) + w.pages)

/-- GRAMMAR_LOAD_DONE (R347, R333): at a beat boundary a passed load becomes READY, or takes over a slot without references. -/
def execGrammarLoadDone (g : Fin 64) (s : State) : Res :=
  .next <|
    let st := s.o (Od.grammarSlotState g.val)
    let x := s.gslot g.val
    match x.next with
    | none => s
    | some w =>
      if !(st == 1 || (st == 3 && s.o (Od.grammarRefs g.val) == 0)) then s else
      let s := s.freeObject 4 (slotObj g.val x.gen)
      let s := s.setGslot g.val { cur := some w, next := none, gen := x.gen + 1 }
      let h := (s.pagesOf 4 (slotObj g.val (x.gen + 1))).headD 0 / 24576
      let s := applyAll (fun s (e : Nat × Nat) => s.setO e.1 e.2) s
        [(Od.grammarSlotState g.val, 2), (Od.grammarStates g.val, w.states), (Od.grammarStack g.val, h),
         (Od.grammarPages g.val, w.pages), (Od.grammarLoadReason g.val, 0)]
      s.measure 5 0x08 w.digest w.src g.val

/-- GRAMMAR_CLOSE (R347, R333). -/
def execGrammarClose (g : Fin 64) (s : State) : Res :=
  .next <| guardS (s.o (Od.grammarSlotState g.val) == 2 && s.o (Od.grammarCommand g.val) == 2) s fun s =>
    s.setO (Od.grammarSlotState g.val) 4

/-- GRAMMAR_CLOSE_DONE (R347, R333). -/
def execGrammarCloseDone (g : Fin 64) (s : State) : Res :=
  .next <| guardS (s.o (Od.grammarSlotState g.val) == 4 && s.o (Od.grammarRefs g.val) == 0) s fun s =>
    let x := s.gslot g.val
    let s := s.freeObject 4 (slotObj g.val x.gen)
    let s := s.setGslot g.val { gen := x.gen }
    applyAll State.resetO s [Od.grammarSlotState g.val, Od.grammarStates g.val, Od.grammarStack g.val, Od.grammarPages g.val,
      Od.grammarCertNs g.val]

/-! ## Certification (R352, R353) -/

/-- The slots a stake owns on each pseudo-channel of a stack: the least number, and the longest cyclic run it does not own (R194). -/
def State.stackSlots (s : State) (n h : Nat) : Nat × Nat :=
  let mask (pc : Nat) : Nat :=
    ((s.slots.ledger.filter fun e => e.1 / 256 == 3 * 65536 + h / 2 * 4096 + h % 2 * 64 + pc && e.2 == n + 1).map
      fun e => 2 ^ (e.1 % 256)).sum
  let ms := (List.range 64).map mask
  ((ms.map (popCount 256)).foldl min 256, (ms.map longestRun).foldl max 0)

/-- The feed lead's cycles of a plan: the least sum of BASE_CYCLES before the last course (R351). -/
def Plan.feedCycles (p : Plan) : Nat :=
  ((List.range p.folds).map fun f => ((p.recs.filter fun r => r.fold == f && !r.last).map (·.base)).sum).foldl min (2 ^ 64)

/-- T_prep of a grammar on one stake in ns, rounded up, when both bounds of R352 hold there. -/
def State.certify (s : State) (g : Grammar) (h budget m n : Nat) : Option Nat :=
  let p : Plan := ((s.model m).plan).getD {}
  let (own, run) := s.stackSlots n h
  if own = 0 then none else
  let masks := (1 + g.maxMatch) * g.maskBytes
  let sg := masks + (if g.maxTrans = 0 then 0 else 32 * 2 ^ g.maxTrans)
  let den := 512000 * own
  let comb := (8 * 512 + masks) * 1250 * own
  let fetch := 128 * 512 * sg
  let prep := 400 * den + fetch + (run - 32) * 2048 * 512 * own + comb
  let st := s.stake n
  let smp := ((List.range st.place.length).filter fun la => p.x.sampling.contains la && !bitAt (st.place.getD la 0) 6).map
    fun la => st.place.getD la 0 % 32 / 4
  let nk := ((List.range 8).map fun u => (smp.filter fun d => d == u).length).foldl max 0
  if prep ≤ budget * den ∧ 3 * prep ≤ 2 * p.feedCycles * den ∧ 3 * nk * (fetch + comb) ≤ 2 * cdiv g.entries 64 * den
  then some (cdiv prep den) else none

/-- GRAMMAR_CERT_NS of a class (R352): over every stake of every generator and draft model its GENERATE ladder names. -/
def State.certOf (s : State) (g c : Nat) : Nat :=
  match (s.gslot g).cur with
  | none => 0xFFFFFFFF
  | some gr =>
    let v := s.o (Od.ladderGenerate c)
    let ms := ((List.range (ladLen v)).flatMap fun l => ladModels 3 (ladEntry v l)).eraseDups
    let ks := ms.flatMap fun m => (s.stakesOf m).map fun n => (m, n)
    let ts := ks.map fun k => s.certify gr (s.o (Od.grammarStack g)) (s.o (Od.maskBudgetNs c)) k.1 k.2
    if ts.all Option.isSome then ts.foldl (fun a t => max a (t.getD 0)) 0 else 0xFFFFFFFF

/-- GRAMMAR_CERT_NS of a loaded grammar, class by class (R353). -/
def State.recertify (s : State) (e : Nat × GSlot) : State :=
  if e.2.cur.isNone then s else
  s.setO (Od.grammarCertNs e.1) ((List.range 64).foldl (fun v c => octSet v 256 4 c (s.certOf e.1 c)) (s.o (Od.grammarCertNs e.1)))

/-- CERTIFICATION_RECOMPUTE (R353): at a beat boundary, for every loaded grammar and class. -/
def execCertificationRecompute (s : State) : Res := .next (applyAll State.recertify s s.grammars)

end Sys2Proof.Machine
end

