-- ==== Sys2Proof/Machine/Flash.lean ====
section
/-!
DEFINITION. The module flash and its index (12_flash_index_and_spokes.md R357 to R396): where pages lie, formatting and mounting,
appends and side pages, the text log and its compaction, failures of pages, dies and channels, and rebuilds.
-/
namespace Sys2Proof.Machine

def State.setIndex (s : State) (x : Index) : State := { s with index := x }
def Index.list (x : Index) (l : Nat) : LList := tGet {} x.lists l
def State.setList (s : State) (l : Nat) (y : LList) : State :=
  { s with index := { s.index with lists := tSet {} s.index.lists l y } }

/-- Whether the index is MOUNTED or DEGRADED. -/
def State.mounted (s : State) : Bool := s.o Od.indexState == 3 || s.o Od.indexState == 4

/-! ## Where pages lie (R360 to R362, R378, R385) -/

/-- n_w: entries of a main page (R368). -/
def pageEntries (w : Nat) : Nat := if w = 256 then 226 else if w = 512 then 156 else if w = 2048 then 55 else 97

/-- Data pages of a new stripe. -/
def Index.per (x : Index) : Nat := 31 - x.deadCh.length

/-- The channels a stripe lies on, by its data pages. -/
def Index.channels (x : Index) (per : Nat) : List Nat :=
  if per = 31 then List.range 32 else (List.range 32).filter fun c => !x.deadCh.contains c

/-- The channel of data page j of a stripe (d, b, p), and with j = n - 1 its parity page's. -/
def Index.chanOf (x : Index) (per d b p j : Nat) : Nat :=
  let cs := x.channels per
  let n := max 1 cs.length
  cs.getD (((d + b + p) % n + 1 + j) % n) 0

/-- Die and block of a stripe of the index region, numbered from its first data segment. -/
def Index.stripeDie (_ : Index) (t : Nat) : Nat := t / 512 % 12
def Index.stripeBlock (x : Index) (t : Nat) : Nat := x.fmtStore + 4 + t / 512 / 12
def Index.stripeChan (x : Index) (per t j : Nat) : Nat := x.chanOf per (x.stripeDie t) (x.stripeBlock t) (t % 512) j

/-- Die, block and channel of a text page, numbered 47 616 to a segment. -/
def Index.textDie (_ : Index) (g : Nat) : Nat := g / 47616 % 12
def Index.textBlock (x : Index) (g : Nat) : Nat := x.fmtStore + x.fmtIndex + g / 47616 / 12
def Index.textChan (x : Index) (g : Nat) : Nat :=
  let q := g % 47616
  x.chanOf x.per (x.textDie g) (x.textBlock g) (q / x.per) (q % x.per)

/-- D_index and D_text (R393). -/
def Index.dIndex (x : Index) : Nat :=
  let d := (12 * x.fmtIndex - 48) * 15872
  if x.narrow then d * 30 / 31 else d
def Index.dText (x : Index) : Nat :=
  let d := 12 * x.fmtText * 47616
  if x.narrow then d * 30 / 31 else d

/-- RATED_ENTRIES (R393). -/
def Index.rated (x : Index) : Nat :=
  let a := 7 * x.dIndex / 10 * pageEntries x.fmtWidth
  if x.fmtText = 0 then a else min a (7 * x.dText / 10 * 16)

/-- Main pages of n entries. -/
def Index.mainPages (x : Index) (n : Nat) : Nat := cdiv n (pageEntries x.fmtWidth)

/-- Stripes of the index region in use, as runs (first, count). -/
def Index.runs (x : Index) : List (Nat × Nat) :=
  (x.lists.flatMap fun e =>
    (e.2.vers.map fun v => (v.first, cdiv (x.mainPages v.ents.length) v.per)) ++
    (match e.2.merge with
      | some m => [(m.first, cdiv (x.mainPages m.ents.length) m.per)]
      | none => [])) ++
  ((x.sidePages ++ x.formed).map fun p => (p.stripe, 1)) ++ (x.stripe.toList.map fun t => (t, 1))

/-- The first n stripes in a row, at or after k and once from 0 again, that no run meets. -/
def fitRun (runs : List (Nat × Nat)) (total n : Nat) : Nat → Nat → Option Nat
  | 0, _ => none
  | f + 1, k =>
    let k := if k + n ≤ total then k else 0
    if total < n then none else
    match runs.find? fun r => decide (r.1 < k + n ∧ k < r.1 + r.2) with
    | none => some k
    | some r => fitRun runs total n f (r.1 + r.2)

/-- n stripes in a row for new pages (R367). (DESIGN CHOICE; log entry 30) -/
def Index.alloc (x : Index) (n : Nat) : Option (Index × Nat) :=
  match fitRun x.runs ((12 * x.fmtIndex - 48) * 512) n (2 * x.runs.length + 3) x.nextStripe with
  | some k => some ({ x with nextStripe := k + n }, k)
  | none => none

/-- Data pages in use in the two regions (DESIGN CHOICE; log entry 30). -/
def Index.usedIndex (x : Index) : Nat :=
  (x.lists.map fun e => (e.2.vers.map fun v => cdiv (x.mainPages v.ents.length) v.per * v.per).sum +
    match e.2.merge with
    | some m => cdiv (x.mainPages m.ents.length) m.per * m.per
    | none => 0).sum + x.sidePages.length + x.formed.length
def Index.usedText (x : Index) : Nat := match x.textLast with
  | some g => (x.usedSegs.length - 1) * (1536 * x.per) + g % 47616 + 1
  | none => 0

/-- FILL (R394). -/
def State.putFill (s : State) : State :=
  let x := s.index
  let mille (u d : Nat) : Nat := if d = 0 then 0 else min 1000 (1000 * u / d)
  s.setO Od.fill (mille x.usedIndex x.dIndex * 65536 + mille x.usedText x.dText)

/-- Whether a region lacks the free pages an append needs (R374, NO_SPACE). -/
def State.fillOver (s : State) (u d : Nat) : Bool :=
  decide (1000 * (d - u) < (1000 - s.o Od.appendFillLimit) * d)

/-! ## Spoke events (R392) -/

/-- PAGE of a spoke event. -/
def pageField (die block q : Nat) : Nat := packFields [(4, die), (13, block), (16, q), (8, 0)]

/-- A SPOKE_EVENT posted to mailbox `mb` of rim core 128 + `core`. -/
def State.spokeEvent (s : State) (core mb ev sp ctx count page : Nat) : State :=
  s.post (128 + core % 16) (mb % 8) 6 (packFields [(8, ev), (5, sp), (10, ctx), (16, count), (41, page), (48, s.beat)])

/-- A program completed on a channel. -/
def State.programmed (s : State) (c : Nat) : State := s.addO (Od.pagesProgrammed c) 1

/-! ## Lists' counts (R394, R395) -/

/-- The current version of a list. -/
def LList.cur (y : LList) : Version := y.vers.headD {}

/-- Side inserts at or above the current side floor. -/
def LList.open_ (y : LList) : List SideEnt := y.side.filter fun e => decide (y.cur.floor ≤ e.e.num)

/-- Side runs of a list. -/
def LList.runs (y : LList) : Nat := ((y.open_.map fun e => (e.page, e.run)).eraseDups).length

/-- The counters that mount recomputes (R394). -/
def State.recount (s : State) : State :=
  let x := s.index
  let s := s.setO Od.indexMainEntries (x.lists.map fun e => e.2.cur.ents.length).sum
  let s := s.setO Od.indexSideEntries (x.lists.map fun e => e.2.open_.length).sum
  let s := s.setO Od.tombstones x.tombs.length
  s.putFill

/-! ## Appends (R365, R371, R374, R379) -/

/-- Appends in the order of a side page: grouped by list, append order within each. -/
def groupApps (as : List Staging) : List Staging := sortBy (fun a b => decide (a.list < b.list)) as

/-- Each append of a side page with the number of its run there: a run is entries of one list and kind, at most 226. -/
def sideRuns : List Staging → Nat → Nat → Option (Nat × Bool) → List (Staging × Nat)
  | [], _, _, _ => []
  | a :: r, run, n, last =>
    if last = some (a.list, a.tomb) ∧ n < 226 then (a, run) :: sideRuns r run (n + 1) last
    else
      let run := if last.isNone then run else run + 1
      (a, run) :: sideRuns r run 1 (some (a.list, a.tomb))

def runCount (as : List Staging) : Nat := ((sideRuns (groupApps as) 0 0 none).map (·.2 + 1)).foldl max 0

/-- Bytes of a side page with the given appends (R370). -/
def sideBytes (w : Nat) (as : List Staging) : Nat :=
  64 + 8 * runCount as + (as.map fun a => if a.tomb then 16 else w / 8 + 40).sum

/-- Whether appends fit a side page. -/
def sideFits (w : Nat) (as : List Staging) : Bool := decide (sideBytes w as ≤ 16384 ∧ runCount as ≤ 226)

/-- How many staged appends the next side page takes. -/
def Index.fitCount (x : Index) : Nat :=
  ((List.range x.staged.length).takeWhile fun k => sideFits x.fmtWidth (x.staged.take (k + 1))).length

/-- Whether the staged appends fill one page. -/
def Index.pageFull (x : Index) : Bool :=
  let n := x.fitCount
  decide (n < x.staged.length) || decide (16384 ≤ sideBytes x.fmtWidth x.staged)

/-- Appends in staging: staged, in pages being programmed, and copies of an open stripe's pages (R372). -/
def Index.stagingUsed (x : Index) : Nat :=
  let open_ (t : Nat) : Bool := x.stripe == some t || x.formed.any fun p => p.stripe == t
  x.staged.length + (x.formed.map fun p => p.apps.length).sum +
    ((x.sidePages.filter fun p => open_ p.stripe).map fun p => p.apps.length).sum

/-- A side page is formed from the first n staged appends and its program is issued (R371, R372). -/
def State.formSide (s : State) (n : Nat) : State :=
  let x := s.index
  let at_ : Option (Index × Nat) := match x.stripe with
    | some t => some (x, t)
    | none => (x.alloc 1).map fun p => ({ p.1 with stripeN := 0, stripeAt := s.beat }, p.2)
  match at_ with
  | none => s
  | some (x, t) =>
    let p : SidePage := { num := x.sideSeq, apps := groupApps (x.staged.take n), stripe := t, at_ := x.stripeN, per := x.per }
    let x := { x with staged := x.staged.drop n, formed := x.formed ++ [p], sideSeq := x.sideSeq + 1, stripeN := x.stripeN + 1
                      stripe := if x.stripeN + 1 < x.per then some t else none }
    s.setIndex x

/-- Side pages are formed while the staged appends fill one. -/
def formFull : Nat → State → State
  | 0, s => s
  | f + 1, s => if s.index.pageFull then formFull f (s.formSide s.index.fitCount) else s

/-! ### The text log (R378, R379) -/

/-- The text page after a page, in log order: the next of its segment, or the first of the next free segment (DESIGN CHOICE; log entry 30). -/
def Index.textAfter (x : Index) (last : Option Nat) : Option Nat :=
  let total := 12 * x.fmtText
  let free (g : Nat) : Bool := !x.usedSegs.contains g &&
    !(x.forward.any fun e => e.1 / 1024 / 47616 == g)
  match last with
  | none => (List.range total).find? free |>.map fun g => g * 47616
  | some g =>
    if g % 47616 + 1 < 1536 * x.per then some (g + 1)
    else ((List.range total).find? fun i => free ((g / 47616 + 1 + i) % total)).map fun i => (g / 47616 + 1 + i) % total * 47616

/-- The open page of the log is full or waited long enough: its program is issued. -/
def Index.closeText (x : Index) : Index :=
  if x.textAt.isNone then x else { x with inflight := x.inflight ++ [x.textHead / 1024], textAt := none }

/-- The open page has room for n 16-byte units, or the next page is opened. -/
def Index.openText (x : Index) (n beat : Nat) : Option Index :=
  if x.textAt.isSome && decide (x.textHead % 1024 + n ≤ 1024) then some x
  else
    let x := x.closeText
    match x.textAfter x.textLast with
    | none => none
    | some g => some { x with textHead := g * 1024, textLast := some g, textAt := some beat
                              usedSegs := if x.usedSegs.contains (g / 47616) then x.usedSegs else (g / 47616) :: x.usedSegs }

/-- A frame put at the head of the log, with the address it has there. -/
def Index.putFrame (x : Index) (f : Frame0) (beat : Nat) : Option (Index × Nat) :=
  let n := cdiv f.bytes.length 16
  match x.openText n beat with
  | none => none
  | some x =>
    let a := x.textHead
    let x := { x with text := tIns a f x.text, textHead := a + n
                      segLive := tMod 0 x.segLive (a / 1024 / 47616) (· + 16 * n) }
    some (if 1024 ≤ a % 1024 + n then { x.closeText with inflight := x.inflight ++ [a / 1024] } else x, a)

/-- A text dictionary slot's content while it is READY. -/
def State.textDictOf (s : State) (k : Nat) : Option (List Byte) :=
  if k < 64 ∧ s.o (Od.textDictState k) = 1 then some (tGet [] s.index.dicts k) else none

/-- The outcome of an append that cannot be staged at all (R374), in the table's order; 0 when it can. (DEDUCED; log entry 56) -/
def State.appendBar (s : State) (t : Nat) (del : Bool) (text : List Byte) (frame : List Byte) : Nat :=
  let x := s.index
  let d := s.o (Od.textDict t)
  firstCode [
    need (decide (s.o (Od.sideUsed t) < s.o (Od.sideQuota t))) 1,
    need (del || text.isEmpty || x.fmtText != 0) 5,
    need (del || text.isEmpty || d == 0xFF || (s.textDictOf d).isSome) 4,
    need (del || text.isEmpty || decide (frame.length ≤ 1024)) 2,
    need (!s.fillOver x.usedIndex x.dIndex && (del || text.isEmpty || !s.fillOver x.usedText x.dText)) 3]

/-- Whether an append waits in its stage (R374, R407). -/
def State.appendWaits (s : State) (del : Bool) (l : Nat) : Bool :=
  let x := s.index
  decide (s.o Od.sideStagingEntries ≤ x.stagingUsed) ||
    (if del then decide (s.o Od.tombstoneTableMax ≤ x.tombs.length + (x.staged.filter (·.tomb)).length +
        (x.formed.map fun p => (p.apps.filter (·.tomb)).length).sum)
      else decide (s.o Od.sideRunsMax ≤ (x.list l).runs))

/-- An item of an INDEX or DELETE request is staged, receives its outcome, or waits (R365, R374, R379, R407). -/
def State.tryStage (s : State) (r i : Nat) : State :=
  let x := s.req r
  let it := x.items.getD i {}
  let t := x.tenant
  let del := x.head.kind == 6
  if it.outcome.isSome || it.staged || !s.mounted || (!del && it.list.isNone) then s else
  let d := s.o (Od.textDict t)
  let dict := (s.textDictOf d).getD []
  let frame := if del || it.text.isEmpty then [] else Config.zstdEncode it.text dict
  let bar := s.appendBar t del it.text frame
  let l := if del then it.ident % s.index.fmtLists else it.list.getD 0
  if bar ≠ 0 then s.setItem r i fun y => { y with outcome := some bar }
  else if s.appendWaits del l then s
  else
    let f : Frame0 := { bytes := frame, text := it.text, did := if d < 64 then s.o (Od.textDictId d) + 1 else 0, dict := dict
                        owner := t, req := r, item := i }
    let put : Option (Index × Nat) := if frame.isEmpty then some (s.index, 0) else s.index.putFrame f s.beat
    match put with
    | none => s.setItem r i fun y => { y with outcome := some 3 }
    | some (y, addr) =>
      let n := s.o Od.nextEntryNumber
      let e : Entry := { num := n, owner := t, code := it.code.getD 0, attr := it.attr, ident := it.ident, taddr := addr
                         tlen := frame.length }
      let s := s.setIndex { y with staged := y.staged ++ [{ e := e, tomb := del, list := l, req := r, item := i, at_ := s.beat }] }
      let s := (s.addO Od.nextEntryNumber 1).addO (Od.sideUsed t) 1
      let s := s.setItem r i fun z => { z with staged := true, entry := n, taddr := addr, tlen := frame.length
                                               textOk := frame.isEmpty }
      formFull 2 s

/-- Every item that may be staged now, in admission order of the requests and item order (R371). -/
def State.pumpStaging (s : State) : State :=
  applyAll (fun s (e : Nat × Req) =>
    if e.2.state == 2 && decide (5 ≤ e.2.head.kind) then
      (applyAll (fun s i => s.tryStage e.1 i) s (List.range e.2.items.length)).pumpOutcomes e.1
    else s) s s.reqs

/-- An item's outcome is APPENDED once its append and its text are programmed (R379). -/
def State.itemSettles (s : State) (r i n : Nat) (f : Item → Item) : State :=
  if !s.hasReq r then s else
  let it := (s.req r).items.getD i {}
  if it.staged && it.entry == n then
    s.setItem r i fun y =>
      let z := f y
      if z.appended && z.textOk then { z with outcome := some 0 } else z
  else s

/-- SIDE_FLUSH_TIMEOUT (R371): the oldest staged append has waited SIDE_FLUSH_BEATS. -/
def execSideFlushTimeout (s : State) : Res :=
  .next <| guardS (s.mounted && s.index.staged.any fun a => decide (a.at_ + s.o Od.sideFlushBeats ≤ s.beat)) s fun s =>
    s.formSide s.index.fitCount

/-- One append commits (R371, R403, R407). -/
def State.commitApp (s : State) (page : Nat) (a : Staging × Nat) : State :=
  let st := a.1
  let y := s.index.list st.list
  let s := if st.tomb then
      let s := s.setList st.list { y with tombs := y.tombs + 1 }
      let x := s.index
      (s.setIndex { x with tombs := x.tombs ++ [{ num := st.e.num, owner := st.e.owner, ident := st.e.ident
                                                  commit := s.beat, page := page }] }).addO Od.tombstones 1
    else
      let w : SideEnt := { e := st.e, commit := s.beat, page := page, run := a.2 }
      (s.setList st.list { y with side := insertBy (fun a b => decide (a.e.num < b.e.num)) w y.side }).addO Od.indexSideEntries 1
  s.itemSettles st.req st.item st.e.num fun z => { z with appended := true }

/-- The requests that hold some appends. -/
def reqsOf (as : List Staging) : List Nat := (as.map (·.req)).eraseDups

/-- A formed side page is programmed: its appends commit, the last page of a stripe programs the parity, and a spoke event says so. -/
def State.sideDone (s : State) (p : SidePage) (core mb : Nat) : State :=
  let x := s.index
  let c := x.stripeChan p.per p.stripe p.at_
  let s := s.setIndex { x with formed := x.formed.filter fun q => q.num != p.num, sidePages := x.sidePages ++ [p] }
  let s := s.programmed c
  let s := applyAll (fun s a => s.commitApp p.num a) s (sideRuns p.apps 0 0 none)
  let s := if s.index.stripe == some p.stripe || s.index.formed.any (fun q => q.stripe == p.stripe) then s
    else s.programmed (x.stripeChan p.per p.stripe p.per)
  let s := s.putFill
  s.spokeEvent core mb 3 c 0 p.apps.length
    (pageField (x.stripeDie p.stripe) (x.stripeBlock p.stripe) (p.per * (p.stripe % 512) + p.at_))

/-- SIDE_PAGE_PROGRAM_DONE (R371, R372, R392): the side page with sequence number n is programmed and its runs are in the directory and
the journal: its appends commit; the last page of a stripe programs the parity.  The event goes to mailbox `mb` of rim core `core`. -/
def execSidePageProgramDone (n core mb : Nat) (s : State) : Res :=
  .next <| match s.index.formed.find? fun p => p.num == n with
  | none => s
  | some p => (applyAll State.pumpOutcomes (s.sideDone p core mb) (reqsOf p.apps)).pumpStaging

/-- The open side stripe t is padded with empty side pages and its parity programmed (R372). -/
def State.closeStripe (s : State) (t : Nat) : State :=
  let x := s.index
  let s := applyAll (fun s j => s.programmed (x.stripeChan x.per t j)) s
    ((List.range (x.per + 1)).filter fun j => decide (x.stripeN ≤ j))
  let pad := (List.range x.per).filter fun j => decide (x.stripeN ≤ j)
  let ps : List SidePage := (pad.zip (List.range pad.length)).map fun q =>
    { num := x.sideSeq + q.2, stripe := t, at_ := q.1, per := x.per }
  let s := s.setIndex { s.index with stripe := none, sideSeq := x.sideSeq + pad.length, sidePages := s.index.sidePages ++ ps }
  s.putFill

/-- STRIPE_CLOSE_TIMEOUT (R372): the open stripe has waited SIDE_STRIPE_CLOSE_BEATS. -/
def execStripeCloseTimeout (s : State) : Res :=
  .next <| match s.index.stripe with
  | none => s
  | some t =>
    let x := s.index
    if s.beat < x.stripeAt + s.o Od.sideStripeCloseBeats || x.formed.any fun p => p.stripe == t then s
    else (s.closeStripe t).pumpStaging

/-- CHECKPOINT (R364): the whole directory, every CHECKPOINT_BEATS. -/
def execCheckpoint (s : State) : Res :=
  .next <| guardS (s.mounted && decide (s.index.ckpt + s.o Od.checkpointBeats ≤ s.beat)) s fun s =>
    s.setIndex { s.index with ckpt := s.beat }

/-- TEXT_FLUSH_TIMEOUT (R378): the open text page's first frame has waited SIDE_FLUSH_BEATS. -/
def execTextFlushTimeout (s : State) : Res :=
  .next <| match s.index.textAt with
  | none => s
  | some b => guardS (decide (b + s.o Od.sideFlushBeats ≤ s.beat)) s fun s => s.setIndex s.index.closeText

/-- The frames of a text page. -/
def Index.framesOn (x : Index) (g : Nat) : Tbl Frame0 := x.text.filter fun e => e.1 / 1024 == g

/-- A text page is programmed and its frames are durable. -/
def State.textDone (s : State) (g : Nat) : State :=
  let x := s.index
  let s := s.setIndex { x with inflight := x.inflight.erase g
                               text := x.text.map fun e => if e.1 / 1024 == g then (e.1, { e.2 with done := true }) else e }
  let s := (s.programmed (x.textChan g)).putFill
  applyAll (fun s (e : Nat × Frame0) =>
    if s.hasReq e.2.req then
      s.itemSettles e.2.req e.2.item ((s.req e.2.req).items.getD e.2.item {}).entry fun z => { z with textOk := true }
    else s) s (x.framesOn g)

/-- TEXT_PAGE_PROGRAM_DONE (R378, R379): text page g is programmed and its frames are durable. -/
def execTextPageProgramDone (g : Nat) (s : State) : Res :=
  .next <| guardS (s.index.inflight.contains g) s fun s =>
    applyAll State.pumpOutcomes (s.textDone g) (((s.index.framesOn g).map fun e => e.2.req).eraseDups)

/-! ## Text reads (R380, R381) -/

/-- The address a text address stands for now. -/
def forwardTo (t : Tbl Nat) : Nat → Nat → Nat
  | 0, a => a
  | f + 1, a => if tHas t a then forwardTo t f (tGet 0 t a) else a

def Index.textAddr (x : Index) (a : Nat) : Nat := forwardTo x.forward x.forward.length a

/-- A text read: 0 TEXT_OK with the text, 1 NO_TEXT, 2 TEXT_CORRUPT, 3 NO_DICTIONARY, 4 TEXT_LOST. -/
def State.readText (s : State) (taddr tlen : Nat) : Nat × List Byte :=
  if tlen = 0 then (1, []) else
  let x := s.index
  let a := x.textAddr taddr
  if !tHas x.text a then (4, []) else
  let f : Frame0 := tGet {} x.text a
  if f.lost then (4, []) else
  if f.did = 0 then (0, f.text) else
  match (List.range 64).find? fun k => s.o (Od.textDictState k) == 1 && s.o (Od.textDictTenant k) == f.owner &&
      s.o (Od.textDictId k) + 1 == f.did with
  | none => (3, [])
  | some k => if tGet [] x.dicts k = f.dict then (0, f.text) else (2, [])

/-- Text dictionary slots: a load that its origin or its format refuses (R379, R382). -/
def State.dictRefused (s : State) (k reason : Nat) : State :=
  let s := s.setO (Od.textDictState k) 0
  (s.setIndex { s.index with dicts := tDel k s.index.dicts }).imageRec 3 k reason

/-- TEXT_DICT_LOAD (R379, R382): a LOAD command's object becomes the dictionary of the slot (DEDUCED; log entry 31). -/
def execTextDictLoad (k : Fin 64) (s : State) : Res :=
  .next <| guardS (s.index.dictPend.contains k.val && s.o (Od.textDictCommand k.val) == 1) s fun s =>
    let s := s.setIndex { s.index with dictPend := s.index.dictPend.filter fun j => j != k.val }
    let n := s.o (Od.textDictSource k.val)
    if !s.storeValid n then s.dictRefused k.val 6 else
    let bs := (s.storeObj n).bytes
    if leAt bs 0 4 != 0xEC30A437 || decide (131072 < bs.length) then s.dictRefused k.val 1 else
    let s := s.setIndex { s.index with dicts := tIns k.val bs s.index.dicts }
    (s.setO (Od.textDictState k.val) 1).measure 5 0x09 (s.storeObj n).digest n k.val

/-- TEXT_DICT_REMOVE (R379). -/
def execTextDictRemove (k : Fin 64) (s : State) : Res :=
  .next <| guardS (s.index.dictPend.contains k.val && s.o (Od.textDictCommand k.val) == 2) s fun s =>
    let s := s.setIndex { s.index with dictPend := s.index.dictPend.filter fun j => j != k.val, dicts := tDel k.val s.index.dicts }
    s.setO (Od.textDictState k.val) 0

/-! ## Compaction (R381) -/

/-- Live bytes fall as an entry with text is dropped. -/
def Index.dropText (x : Index) (taddr tlen : Nat) : Index :=
  if tlen = 0 then x else
  let a := x.textAddr taddr
  { x with segLive := tMod 0 x.segLive (a / 1024 / 47616) (· - 16 * cdiv tlen 16)
           text := x.text.map fun e => if e.1 == a then (e.1, { e.2 with live := false }) else e }

/-- Addresses that entries still hold. -/
def Index.heldAddrs (x : Index) : List Nat :=
  (x.lists.flatMap fun e =>
    (e.2.vers.flatMap fun v => v.ents.map (·.taddr)) ++ (e.2.side.map fun w => w.e.taddr) ++
    (match e.2.merge with
      | some m => m.ents.map (·.taddr)
      | none => [])) ++ (x.staged.map fun a => a.e.taddr) ++ (x.formed.flatMap fun p => p.apps.map fun a => a.e.taddr)

/-- Forward tables that no entry needs any more are dropped, segment by segment. -/
def Index.tidyForward (x : Index) : Index :=
  let held := (x.heldAddrs.filter fun a => tHas x.forward a).map fun a => a / 1024 / 47616
  { x with forward := x.forward.filter fun e => held.contains (e.1 / 1024 / 47616) }

/-- A live frame moves to the head of the log. -/
def Index.moveFrame (x : Index) (e : Nat × Frame0) (beat : Nat) : Option Index :=
  match x.putFrame e.2 beat with
  | none => none
  | some (y, a) => some { y with forward := tIns e.1 a y.forward
                                 text := tMod {} (tDel e.1 y.text) a fun f => { f with done := true } }

def moveFrames (beat : Nat) : List (Nat × Frame0) → Index → Option Index
  | [], x => some x
  | e :: r, x => match x.moveFrame e beat with
    | none => none
    | some y => moveFrames beat r y

/-- The segments a compaction may take, fewest live bytes first, ties by number: not the head's, none in flight, with more than
TEXT_COMPACT_PERCENT of dead bytes (R381). -/
def State.compactable (s : State) : List Nat :=
  let x := s.index
  let bytes := 1536 * x.per * 16384
  let head := x.textLast.map fun g => g / 47616
  let busy (g : Nat) : Bool := head == some g || x.inflight.any fun p => p / 47616 == g
  let cs := x.usedSegs.filter fun g => !busy g &&
    decide (s.o Od.textCompactPercent * bytes < 100 * (bytes - tGet 0 x.segLive g))
  sortBy (fun a b => decide (tGet 0 x.segLive a < tGet 0 x.segLive b) ||
    (tGet 0 x.segLive a == tGet 0 x.segLive b && decide (a < b))) cs

/-- Frames of a segment that its compaction moves. -/
def Index.liveFrames (x : Index) (g : Nat) : Tbl Frame0 :=
  x.text.filter fun e => e.1 / 1024 / 47616 == g && e.2.live && !e.2.lost

/-- A segment whose live frames have moved is erased. -/
def Index.eraseSeg (x : Index) (g : Nat) : Index :=
  { x with text := x.text.filter fun e => e.1 / 1024 / 47616 != g, usedSegs := x.usedSegs.filter fun k => k != g
           segLive := tDel g x.segLive }

/-- COMPACTION (R381): with free text segments below 2 % of the region, the segment with the fewest live bytes among those with more than
TEXT_COMPACT_PERCENT of dead bytes is copied to the head of the log and erased. -/
def execCompaction (s : State) : Res :=
  .next <|
    let x := s.index
    let total := 12 * x.fmtText
    if !s.mounted || decide (2 * total ≤ 100 * (total - x.usedSegs.length)) then s else
    match s.compactable with
    | [] => s
    | g :: _ =>
      match moveFrames s.beat (x.liveFrames g) x with
      | none => s
      | some y => (s.setIndex (y.eraseSeg g).tidyForward).putFill

/-! ## Failed programs, unreadable pages, dies and channels (R361, R383 to R386) -/

/-- A block of a channel: channel, die and block in one number. -/
def blockKey (c d b : Nat) : Nat := c * 2 ^ 20 + d * 2 ^ 13 + b

/-- Spare blocks left on a channel, its failed dies apart (R363, R384). -/
def Index.sparesLeft (x : Index) (c : Nat) : Nat :=
  let dead := (x.deadDies.filter fun k => k / 12 == c).length
  (12 - dead) * x.fmtSpare - tGet 0 x.spares c

/-- A block mapped to the next spare block of its channel: spares are taken die by die from the lowest block number (DESIGN CHOICE; log entry 30). -/
def State.remapBlock (s : State) (c d b : Nat) : State :=
  let x := s.index
  let ds := (List.range 12).filter fun k => !x.deadDies.contains (12 * c + k)
  let k := tGet 0 x.spares c
  let to_ := (ds.getD (k % max 1 ds.length) 0) * 2 ^ 13 + (5461 - x.fmtSpare) + k / max 1 ds.length
  let fresh := !tHas x.remap (blockKey c d b)
  let s := s.setIndex { x with remap := tIns (blockKey c d b) to_ x.remap, spares := tSet 0 x.spares c (k + 1) }
  s.addO (Od.blocksRetired c) (b2n fresh)

/-- A block queued for a rebuild. -/
def State.queueRebuild (s : State) (st : Nat) (ks : List Nat) : State :=
  let x := s.index
  let ks := ks.filter fun k => !x.rebuild.contains k
  let idle := x.rebuild.isEmpty
  if ks.isEmpty then s else
  let s := s.setIndex { x with rebuild := x.rebuild ++ ks }
  let s := if idle then (s.setO Od.rebuildDone 0).setO Od.rebuildTotal 0 else s
  (s.addO Od.rebuildTotal ks.length).setO Od.rebuildState (max st (if idle then 0 else s.o Od.rebuildState))

/-- The index works on with less than everything. -/
def State.indexDegraded (s : State) : State := if s.o Od.indexState = 3 then s.setO Od.indexState 4 else s

/-- A channel fails (R385): reads of it are reconstructed, new stripes use the others, and every allocated segment is rewritten. -/
def State.channelFails (s : State) (c core mb : Nat) : State :=
  let x := s.index
  if x.deadCh.contains c then s else
  let segs := ((x.runs.flatMap fun r => (List.range (r.2 + 1)).map fun i => (r.1 + i) / 512).eraseDups.map fun g => 2 ^ 30 + g) ++
    x.usedSegs.map fun g => 2 ^ 31 + g
  let s := s.setIndex { x with deadCh := c :: x.deadCh, rebuild := x.rebuild.filter fun k => decide (2 ^ 30 ≤ k) || k / 2 ^ 20 != c }
  let s := s.setO Od.channelsInService (setBitTo (s.o Od.channelsInService) c false)
  let s := (s.setO (Od.spokeState c) 3).indexDegraded
  let s := s.queueRebuild 2 segs
  let s := s.fault1 0x2E 10 0xFFFFF 2 0 0 [(32, s.o Od.channelsInService)]
  s.spokeEvent core mb 8 c 0 0 (pageField 0 0 0)

/-- A die fails (R384); `ms` blocks of it belong to the model store.  Too few spares on its channel fail the channel. -/
def State.dieFails (s : State) (c d ms core mb : Nat) : State :=
  let x := s.index
  if x.deadDies.contains (12 * c + d) || x.deadCh.contains c then s else
  let dir := if x.fmtLists = 0 then [] else (List.range 4).map fun i => x.fmtStore + i
  let idx := (x.runs.flatMap fun r => ((List.range r.2).map fun i => r.1 + i).filter fun t => x.stripeDie t == d).map x.stripeBlock
  let txt := (x.usedSegs.filter fun g => g % 12 == d).map fun g => x.textBlock (g * 47616)
  let bs := (List.range ms ++ dir ++ idx ++ txt).eraseDups
  let s := s.setIndex { x with deadDies := (12 * c + d) :: x.deadDies }
  let left := s.index.sparesLeft c
  let s := s.setO (Od.dieState c) (octSet (s.o (Od.dieState c)) 12 1 d 1)
  let s := (s.setO (Od.spokeState c) 2).indexDegraded
  let s := s.fault1 0x2D 10 (16 * c + d) 2 0 0 [(16, sat 16 left)]
  let s := s.spokeEvent core mb 7 c 0 0 (pageField d 0 0)
  if left < bs.length then s.channelFails c core mb
  else s.queueRebuild 1 (bs.map (blockKey c d))

/-- A block of a die is retired (R361); more than DIE_FAIL_BLOCKS of them fail the die (R384). -/
def State.retireBlock (s : State) (c d b core mb : Nat) : State :=
  let s := s.remapBlock c d b
  let n := (s.index.remap.filter fun e => e.1 / 2 ^ 13 == blockKey c d 0 / 2 ^ 13).length
  if s.o Od.dieFailBlocks < n then s.dieFails c d 0 core mb else s

/-- A program has failed on a block: the block is retired, and a spoke event says so. -/
def State.programFails (s : State) (c d b q core mb : Nat) : State :=
  (s.retireBlock c d b core mb).spokeEvent core mb 4 c 0 0 (pageField d b q)

/-- A side page whose program failed is put at the next free page of the open stripe t. -/
def Index.moveSide (x : Index) (n t : Nat) : Index :=
  { x with
    formed := x.formed.map fun q => if q.num == n then { q with stripe := t, at_ := x.stripeN, per := x.per } else q
    stripeN := x.stripeN + 1, stripe := if x.stripeN + 1 < x.per then some t else none }

/-- A text page whose program failed is put at page g of the log, its frames with forward addresses. -/
def Index.moveText (x : Index) (n g : Nat) : Index :=
  let fs := x.framesOn n
  let size := (fs.map fun e => 16 * cdiv e.2.bytes.length 16).sum
  { x with textLast := some g, inflight := x.inflight.erase n ++ [g]
           usedSegs := if x.usedSegs.contains (g / 47616) then x.usedSegs else (g / 47616) :: x.usedSegs
           text := applyAll (fun (t : Tbl Frame0) (e : Nat × Frame0) => tIns (g * 1024 + e.1 % 1024) e.2 t)
             (x.text.filter fun e => e.1 / 1024 != n) fs
           forward := applyAll (fun (t : Tbl Nat) (e : Nat × Frame0) => tIns e.1 (g * 1024 + e.1 % 1024) t) x.forward fs
           segLive := tMod 0 (tMod 0 x.segLive (n / 47616) (· - size)) (g / 47616) (· + size) }

/-- PROGRAM_FAILURE (R361, R371, R381, R423): the program of a side page (kind 0, sequence number n), a text page (1, page n) or a main
page of list n's merge (2) has failed; its block is retired and the page is written again at the next free page of its region. -/
def execProgramFailure (kind : Fin 3) (n core mb : Nat) (s : State) : Res :=
  .next <|
    let x := s.index
    if kind.val = 0 then
      match x.formed.find? fun p => p.num == n with
      | none => s
      | some p =>
        let next : Option (Index × Nat) := match x.stripe with
          | some t => some (x, t)
          | none => (x.alloc 1).map fun q => ({ q.1 with stripeN := 0, stripeAt := s.beat }, q.2)
        match next with
        | none => s
        | some (y, t) =>
          (s.setIndex (y.moveSide n t)).programFails (x.stripeChan p.per p.stripe p.at_) (x.stripeDie p.stripe) (x.stripeBlock p.stripe)
            (p.per * (p.stripe % 512) + p.at_) core mb
    else if kind.val = 1 then
      if !x.inflight.contains n then s else
      match x.textAfter x.textLast with
      | none => s
      | some g => (s.setIndex (x.moveText n g)).programFails (x.textChan n) (x.textDie n) (x.textBlock n) (n % 47616) core mb
    else
      match (x.list n).merge with
      | none => s
      | some m => if m.ready || m.nothing then s else
          s.programFails (x.stripeChan m.per m.first 0) (x.stripeDie m.first) (x.stripeBlock m.first) (m.per * (m.first % 512)) core mb

/-- DIE_FAILURE (R384). -/
def execDieFailure (c : Fin 32) (d : Fin 12) (ms core mb : Nat) (s : State) : Res := .next (s.dieFails c.val d.val ms core mb)

/-- CHANNEL_FAILURE (R385). -/
def execChannelFailure (c : Fin 32) (core mb : Nat) (s : State) : Res := .next (s.channelFails c.val core mb)

/-- Every allocated segment is written for the channels in service (R385, R393). -/
def State.narrowed (s : State) : State :=
  let x := s.index
  let v (y : Version) : Version := { y with per := x.per }
  let x := { x with narrow := true, lists := x.lists.map fun e => (e.1, { e.2 with vers := e.2.vers.map v })
                    sidePages := x.sidePages.map fun p => { p with per := x.per } }
  ((s.setIndex x).setO Od.ratedEntries x.rated).putFill

/-- A queued block is written to a spare one; with the last of a failed die's the die is rebuilt (R384). -/
def State.blockRebuilt (s : State) (k : Nat) (rest : List Nat) : State :=
  let c := k / 2 ^ 20
  let d := k / 2 ^ 13 % 128
  let s := s.remapBlock c d (k % 2 ^ 13)
  if s.index.deadDies.contains (12 * c + d) && !(rest.any fun j => decide (j < 2 ^ 30) && j / 2 ^ 13 == k / 2 ^ 13) then
    let s := s.setIndex { s.index with rebuilt := (12 * c + d) :: s.index.rebuilt }
    s.setO (Od.dieState c) (octSet (s.o (Od.dieState c)) 12 1 d 2)
  else s

/-- What is left of a rebuild decides REBUILD_STATE. -/
def State.rebuildGoesOn (s : State) (rest : List Nat) : State :=
  if rest.isEmpty then s.setO Od.rebuildState 0
  else if rest.all fun j => decide (j < 2 ^ 30) then s.setO Od.rebuildState 1 else s

/-- REBUILD_BLOCK_DONE (R384, R385): the next queued block, or segment of a channel's rebuild, is written. -/
def execRebuildBlockDone (s : State) : Res :=
  .next <| match s.index.rebuild with
  | [] => s
  | k :: rest =>
    let s := (s.setIndex { s.index with rebuild := rest }).addO Od.rebuildDone 1
    let s := if 2 ^ 30 ≤ k then (if rest.all fun j => decide (j < 2 ^ 30) then s.narrowed else s) else s.blockRebuilt k rest
    s.rebuildGoesOn rest

/-- A page whose bytes are lost (R386): the record, the event, and what holds the page. -/
def State.pageLost (s : State) (c d b q list version core mb : Nat) : State :=
  let s := s.fault1 0x2F 10 (16 * c + d) 3 0 0 [(18, list), (32, version), (41, pageField d b q)]
  s.spokeEvent core mb 6 c 0 0 (pageField d b q)

/-- A page's bytes are given back by the rest of its stripe: counted, a spoke event, and the block queued for a rebuild (R383). -/
def State.readBack (s : State) (c d b q cw core mb : Nat) : State :=
  let x := s.index
  let s := (s.addO (Od.unreadable c) cw).addO Od.reconstructedReads 1
  let s := applyAll (fun s k => if k == c || x.deadCh.contains k then s else s.addO (Od.pagesRead k) 1) s (List.range 32)
  let s := s.spokeEvent core mb 5 c 0 0 (pageField d b q)
  if x.deadDies.contains (12 * c + d) || x.deadCh.contains c then s else s.queueRebuild 1 [blockKey c d b]

/-- A main page of a list's current version is lost: the list is damaged (R386). -/
def State.mainLostPage (s : State) (l page : Nat) : State :=
  let y := s.index.list l
  let v := y.cur
  (s.setList l { y with damaged := true, vers := y.vers.set 0 { v with lost := page :: v.lost } }).addO Od.lostPages 1

/-- A side page is lost: the lists with entries there are damaged (R386). -/
def State.sideLostPage (s : State) (n : Nat) : State :=
  let x := s.index
  (s.setIndex { x with
    sidePages := x.sidePages.map fun f => if f.num == n then { f with lost := true } else f
    lists := x.lists.map fun e => if e.2.side.any fun w => w.page == n then (e.1, { e.2 with damaged := true }) else e }).addO
      Od.lostPages 1

/-- The frames of a text page are lost (R386). -/
def State.textLostPage (s : State) (n : Nat) : State :=
  let x := s.index
  s.setIndex { x with text := x.text.map fun e => if e.1 / 1024 == n then (e.1, { e.2 with lost := true }) else e }

/-- READ_RECONSTRUCT (R383, R386, R392): a read of page `page` (kind 0 main page of list n's current version, 1 side page with sequence
number n, 2 text page n, 3 a page of model-store object n on channel `c`) finds `cw` codewords unreadable; `ok` says whether the rest of
its stripe gives the bytes back.  A page of a stripe whose parity is not yet written is served from staging. -/
def execReadReconstruct (kind : Fin 4) (n page : Nat) (c : Fin 32) (cw : Nat) (ok : Bool) (core mb : Nat) (s : State) : Res :=
  .next <|
    let x := s.index
    if kind.val = 0 then
      let y := x.list n
      let v := y.cur
      if y.vers.isEmpty || decide (x.mainPages v.ents.length ≤ page) || v.lost.contains page then s else
      let t := v.first + page / v.per
      let c := x.stripeChan v.per t (page % v.per)
      let q := v.per * (t % 512) + page % v.per
      if ok then s.readBack c (x.stripeDie t) (x.stripeBlock t) q cw core mb
      else ((s.addO (Od.unreadable c) cw).mainLostPage n page).pageLost c (x.stripeDie t) (x.stripeBlock t) q n v.num core mb
    else if kind.val = 1 then
      match x.sidePages.find? fun p => p.num == n && !p.lost with
      | none => s
      | some p =>
        let c := x.stripeChan p.per p.stripe p.at_
        let q := p.per * (p.stripe % 512) + p.at_
        if x.stripe == some p.stripe || x.formed.any (fun f => f.stripe == p.stripe) then s.addO (Od.unreadable c) cw
        else if ok then s.readBack c (x.stripeDie p.stripe) (x.stripeBlock p.stripe) q cw core mb
        else ((s.addO (Od.unreadable c) cw).sideLostPage n).pageLost c (x.stripeDie p.stripe) (x.stripeBlock p.stripe) q
          (2 ^ 18 - 1) (2 ^ 32 - 1) core mb
    else if kind.val = 2 then
      let c := x.textChan n
      if !(x.text.any fun e => e.1 / 1024 == n && e.2.done) then s
      else if ok then s.readBack c (x.textDie n) (x.textBlock n) (n % 47616) cw core mb
      else ((s.addO (Od.unreadable c) cw).textLostPage n).pageLost c (x.textDie n) (x.textBlock n) (n % 47616)
        (2 ^ 18 - 1) (2 ^ 32 - 1) core mb
    else
      let o := s.storeObj n
      let d := page / 2 ^ 13 % 12
      if o.state != 2 then s
      else if ok then s.readBack c.val d (page % 2 ^ 13) 0 cw core mb
      else ((s.addO (Od.unreadable c.val) cw).setStoreObj n { o with bad := true }).pageLost c.val d (page % 2 ^ 13) 0
        (2 ^ 18 - 1) (2 ^ 32 - 1) core mb

/-- INDEX_DIRECTORY_REBUILT (R608): the directory is rebuilt from its checkpoint and journal; windows start again. -/
def execIndexDirectoryRebuilt (s : State) : Res :=
  .next <| guardS s.index.dirLost s fun s =>
    let s := s.setIndex { s.index with dirLost := false, ckpt := s.beat }
    if s.o Od.indexState = 4 ∧ s.index.deadDies = [] ∧ s.index.deadCh = [] then s.setO Od.indexState 3 else s

/-! ## Format, mount and unmount (R363, R394, R414) -/

/-- INDEX_FORMAT (R362, R363, R365, R394): the sizes take effect and the index and text regions are empty. -/
def execIndexFormat (s : State) : Res :=
  .next <| guardS (s.o Od.indexState == 1) s fun s =>
    let ms := s.o Od.modelStoreBlocks
    let ib := s.o Od.indexBlocks
    let sb := s.o Od.spareBlocks
    let x := s.index
    let y : Index := { remap := x.remap, spares := x.spares, deadDies := x.deadDies, rebuilt := x.rebuilt, deadCh := x.deadCh
                       narrow := !x.deadCh.isEmpty, fmtWidth := s.o Od.codeWidth, fmtLists := s.o Od.lists, fmtStore := ms
                       fmtIndex := ib, fmtSpare := sb, fmtText := 5461 - ms - ib - sb, dicts := x.dicts, dictPend := x.dictPend }
    let s := s.setIndex y
    let s := applyAll (fun s (e : Nat × Nat) => s.setO e.1 e.2) s
      [(Od.textBlocks, y.fmtText), (Od.entriesPerPage, pageEntries y.fmtWidth), (Od.ratedEntries, y.rated), (Od.nextEntryNumber, 0),
       (Od.rebuildState, 0), (Od.rebuildDone, 0), (Od.rebuildTotal, 0), (Od.sweepListsLeft, 0), (Od.listsCached, 0),
       (Od.indexState, 6)]
    (applyAll (fun s t => s.setO (Od.sideUsed t) 0) s (List.range 256)).recount

/-- The slots i of a frame that meet a test, as a mask. -/
def slotMask (p : Nat → Bool) : Nat := ((List.range 256).filter p).foldl (fun m i => m + 2 ^ i) 0

/-- The index stake's shares of R414 by group: resource kind, instances and mask; a slot object of 0 leaves its group out. -/
def State.indexGroups (s : State) : List (Nat × List Nat × Nat) :=
  let d4 := List.range 4
  [(4, d4.map (fun d => 4096 * d + 2) ++ [16384, 16385, 20480, 20481],
      if s.o Od.indexRimSlots = 0 then 0 else slotMask fun i => decide (i % 8 ≤ 4)),
   (1, d4.flatMap (fun d => [0, 4, 5, 16, 14].map fun i => 4096 * d + i),
      if s.o Od.indexSpineSlots = 0 then 0 else slotMask fun i => i % 8 == 0 || i % 8 == 2 || i % 8 == 4 || i % 8 == 6),
   (3, d4.flatMap (fun d => (List.range 128).map fun i => 4096 * d + i),
      if s.o Od.indexStackSlots = 0 then 0 else slotMask fun i => i % 16 == 0 || i % 16 == 5 || i % 16 == 10)].filter
    fun g => g.2.2 != 0

/-- The groups claimed one after another, or the first refusal. -/
def claimGroups (s : State) : List (Nat × List Nat × Nat) → Nat → Tbl Nat → SlotFail ⊕ Tbl Nat
  | [], _, led => .inr led
  | (k, is, m) :: r, n, led =>
    let sh (j i : Nat) : Share × Nat := ({ idx := n + j, rkind := k, inst := i, group := k, step := 1, mask := m }, i)
    let g := (is.zip (List.range is.length)).map fun p => sh p.2 p.1
    match s.checkGroup led g with
    | .inl f => .inl f
    | .inr rot =>
      claimGroups s r (n + is.length)
        (applyAll (fun (t : Tbl Nat) i => ownSlots t 512 k i (rotSlots m rot)) led is)

/-- The text log's head of a mounting index: the next whole page. -/
def Index.mountHead (x : Index) : Nat := match x.textLast with
  | some g => if x.textHead % 1024 = 0 then x.textHead else (g + 1) * 1024
  | none => x.textHead

/-- SPOKE_STATE and DIE_STATE of channel c as the index's failures say. -/
def State.putSpoke (s : State) (c : Nat) : State :=
  let x := s.index
  let dead := (List.range 12).filter fun d => x.deadDies.contains (12 * c + d)
  let s := s.setO (Od.spokeState c) (if x.deadCh.contains c then 3 else if dead.isEmpty then 1 else 2)
  s.setO (Od.dieState c) (dead.foldl (fun v d => octSet v 12 1 d (if x.rebuilt.contains (12 * c + d) then 2 else 1)) 0)

/-- The entries a tenant holds beside the main pages. -/
def Index.sideOf (x : Index) (t : Nat) : Nat := (x.lists.map fun e => (e.2.open_.filter fun w => w.e.owner == t).length).sum +
  (x.tombs.filter fun w => w.owner == t).length

/-- The index takes its stake with the claimed slots and its objects report what is stored (R364, R372, R394, R407, R414). (DEDUCED; log entry 56) -/
def State.mountIndex (s : State) (led : Tbl Nat) : State :=
  let s := { s with slots := { s.slots with ledger := led, live := led } }
  let s := s.setStake 511 { used := true, model := 64, state := skIDLE }
  let x := s.index
  let s := s.setIndex { x with stripe := none, textHead := x.mountHead, ckpt := s.beat, dirLost := false, unmount := false
                               lists := x.lists.map fun e => (e.1, { e.2 with copies := [] }) }
  let x := s.index
  let tops := (x.lists.flatMap fun e => (e.2.vers.flatMap fun v => v.ents.map (·.num)) ++ e.2.side.map fun w => w.e.num) ++
    x.tombs.map (·.num)
  let s := applyAll (fun s (e : Nat × Nat) => s.setO e.1 e.2) s
    [(Od.textBlocks, x.fmtText), (Od.entriesPerPage, pageEntries x.fmtWidth), (Od.ratedEntries, x.rated),
     (Od.nextEntryNumber, max (s.o Od.nextEntryNumber) ((tops.map (· + 1)).foldl max 0)),
     (Od.channelsInService, x.deadCh.foldl (fun v c => setBitTo v c false) 0xFFFFFFFF)]
  let s := applyAll State.putSpoke s (List.range 32)
  let owners := ((x.lists.flatMap fun e => e.2.side.map fun w => w.e.owner) ++ x.tombs.map (·.owner)).eraseDups
  let s := applyAll (fun s t => s.setO (Od.sideUsed t) (x.sideOf t)) s owners
  (s.setO Od.indexState (if x.deadDies.isEmpty && x.deadCh.isEmpty then 3 else 4)).recount

/-- INDEX_MOUNT (R364, R372, R394, R407, R414): the checkpoint is read, the journal replayed, open stripes closed, and the index stake
placed; a refusal of its shares leaves the index UNMOUNTED. -/
def execIndexMount (s : State) : Res :=
  .next <|
    let groups := [85, 86, 87, 88, 92, 93, 94, 95]
    if s.o Od.indexState != 2 then s
    else if groups.any fun p => s.pdState p == pdFAILED then s.setO Od.indexState 5
    else if groups.any fun p => !s.pdOn p then s
    else if (s.stake 511).used then
      (s.setO Od.indexState 6).slotRefused 0 { reason := 4, owner := 512 }
    else match claimGroups s s.indexGroups 0 s.slots.ledger with
    | .inl f => (s.setO Od.indexState 6).slotRefused 0 f
    | .inr led => s.mountIndex led

/-- The index leaves its stake, its cached copies and its windows; it is UNMOUNTED. -/
def State.unmountIndex (s : State) : State :=
  let x := s.index
  let s := applyAll (fun s (e : Nat × LList) => applyAll (fun s (k : CacheCopy) => applyAll State.freePage s k.pages) s e.2.copies)
    s x.lists
  let free (t : Tbl Nat) : Tbl Nat := t.filter fun e => e.2 != 512
  let s := { s with slots := { s.slots with live := free s.slots.live, ledger := free s.slots.ledger } }
  let s := s.setIndex { x with unmount := false, windows := []
                               lists := x.lists.map fun e => (e.1, { e.2 with copies := [], heat := 0 }) }
  ((s.setStake 511 {}).setO Od.listsCached 0).setO Od.indexState 6

/-- INDEX_UNMOUNT (R394, R414, R423): once no admitted request uses the index and merges and appends are done. -/
def execIndexUnmount (s : State) : Res :=
  .next <|
    let x := s.index
    let uses := s.reqs.any fun e => e.2.state == 2 && decide (2 ≤ e.2.head.kind)
    guardS (s.mounted && x.unmount && !uses && x.staged.isEmpty && x.formed.isEmpty && x.windows.isEmpty &&
        x.lists.all fun e => e.2.merge.isNone) s State.unmountIndex

end Sys2Proof.Machine
end

