-- ==== Sys2Proof/Machine/Pool.lean ====
section
/-!
DEFINITION. The pool port, embedding tables, gathers and the row cache (14_features_rerank_packing.md R426 to R445;
16_host_pool_and_peer_links.md R499 to R503).
-/
namespace Sys2Proof.Machine

def State.tslot (s : State) (t : Nat) : TableSlot := tGet {} s.tables t
def State.setTslot (s : State) (t : Nat) (x : TableSlot) : State := { s with tables := tSet {} s.tables t x }
/-- The image in force in a table slot: a bound request keeps it until its completion (R437). -/
def State.table (s : State) (t : Nat) : Table := (s.tslot t).cur.getD {}
def State.setTable (s : State) (t : Nat) (x : Table) : State := s.setTslot t { s.tslot t with cur := some x }
def State.setPool (s : State) (x : Pool) : State := { s with pool := x }

/-! ## Decoding (R500) -/

/-- Whether n bytes at a pool address lie in one enabled range. -/
def State.decoded (s : State) (addr n : Nat) : Bool :=
  s.pool.decs.any fun e =>
    bitAt e.2 0 && decide (65536 * bits e.2 127 80 ≤ addr ∧ addr + n ≤ 65536 * (bits e.2 127 80 + bits e.2 79 32))

/-! ## Images (R427 to R429) -/

/-- The offset of level 1 that makes every row of a span ABSENT. -/
def l1None : Nat := 0xFFFFFFFFFFFF

/-- Bytes of a row of a class (R428). -/
def classBytes (dim cls : Nat) : Nat :=
  match cls with
  | 0 => 2 * dim
  | 1 => 16 * cdiv (dim + 2) 16
  | 2 => 16 * cdiv (dim / 2 + dim / 32) 16
  | _ => 0

/-- The class of row i of a group, from its level-2 entry; rows beyond the table are ABSENT. -/
def Table.classOf (x : Table) (entry row : Nat) : Nat := if x.rows ≤ row then 3 else bits entry (2 * (row % 256) + 1) (2 * (row % 256))

/-- The offset of a row of a group. -/
def Table.rowOff (x : Table) (entry row : Nat) : Nat :=
  bits entry 575 512 + ((List.range (row % 256)).map fun i => classBytes x.dim (x.classOf entry (row / 256 * 256 + i))).sum

/-- The offset of a group's level-2 entry; none when its span is ABSENT. -/
def Table.entryOff (x : Table) (g : Nat) : Option Nat :=
  let e := tGet l1None x.l1 (g / 256) % 2 ^ 48
  if e = l1None then none else some (e + 128 * (g % 256))

/-- Whether a level-2 entry's CRC is right. -/
def entryCrcOk (bs : List Byte) : Bool :=
  leAt bs 72 4 == crc32c (bs.take 72 ++ List.replicate 4 0#8 ++ (bs.drop 76).take 52)

/-! ## What a request has gathered (R439 to R441) -/

/-- The key of the 64 bytes at an offset of a table, and of a group. -/
def lineKey (t off : Nat) : Nat := t * 2 ^ 44 + off / 64
def groupKey (t g : Nat) : Nat := t * 2 ^ 44 + g

/-- n bytes at an offset, when every line of them is there; whether one of them is missing. -/
def Req.linesOf (x : Req) (t off n : Nat) : Bool × Option (List Byte) :=
  let ks := (List.range ((off + n - 1) / 64 + 1 - off / 64)).map fun i => lineKey t off + i
  if ks.any fun k => x.missing.contains k then (true, none)
  else if ks.all fun k => tHas x.pool k then (false, some (((ks.flatMap fun k => tGet [] x.pool k).drop (off % 64)).take n))
  else (false, none)

/-- What is known of a group's level-2 entry. -/
inductive GroupGot where
  | absent | wait | missing | badCrc
  | entry (v : Nat)
  deriving DecidableEq, Repr

def Req.group (x : Req) (tb : Table) (t g : Nat) : GroupGot :=
  match tb.entryOff g with
  | none => .absent
  | some o => match x.linesOf t o 128 with
    | (true, _) => .missing
    | (false, none) => .wait
    | (false, some bs) => if entryCrcOk bs then .entry (leNat bs)
        else if x.crcs.contains (groupKey t g) then .missing else .badCrc

/-- What is known of a row: its class and bytes, and whether they came from the row cache. -/
inductive RowGot where
  | absent | wait | missing
  | got (cls : Nat) (bs : List Byte) (cached : Bool)
  deriving DecidableEq, Repr

def Req.row (x : Req) (tb : Table) (t row : Nat) : RowGot :=
  if tb.rows ≤ row then .absent else
  match x.group tb t (row / 256) with
  | .absent => .absent
  | .wait => .wait
  | .badCrc => .wait
  | .missing => .missing
  | .entry v =>
    let c := tb.classOf v row
    if c = 3 then .absent else
    let o := tb.rowOff v row
    match x.linesOf t o (classBytes tb.dim c) with
    | (true, _) => .missing
    | (false, none) => .wait
    | (false, some bs) => .got c bs ((List.range ((o + classBytes tb.dim c - 1) / 64 + 1 - o / 64)).all fun i =>
        x.fromCache.contains (lineKey t o + i))

/-! ## Bags (R436) -/

/-- The bag of a feature for a candidate: row numbers and FP16 weights, in order. -/
def Req.bag (x : Req) (f : Nat) (c : Cand) : List (Nat × Nat) :=
  let field (v : Nat) : Nat := v / 2 ^ bits f 116 110 % 2 ^ bits f 109 104
  match bits f 121 120 with
  | 0 => x.head.bags.getD (bits f 119 118) []
  | 1 => [(field c.ident, 0x3C00)]
  | 2 => [(field c.attr, 0x3C00)]
  | _ => []

/-- Candidates that stages 11 to 15 still take (R447). -/
def Cand.live (c : Cand) : Bool := decide (c.status < 2)

/-- Whether stage 12 is performed for a request (R439, R446, R449). -/
def Req.stage12 (x : Req) : Bool := x.fset.on && decide (10 ≤ x.stage ∧ x.stage ≤ 13)

/-- The rows that features not yet pooled need: (table, row). -/
def Req.needs (x : Req) : List (Nat × Nat) :=
  if !x.stage12 then [] else
  ((x.cands.filter Cand.live).flatMap fun c =>
    ((x.fset.feats.zip (List.range x.fset.feats.length)).filter fun f => !tHas c.feats f.2).flatMap fun f =>
      (x.bag f.1 c).map fun p => (bits f.1 127 122, p.1)).eraseDups

/-! ## Reads (R440, R441, R501) -/

/-- A read of a line failed: its first failure is retried, its second makes the rows it covers missing. -/
def State.lineFails (s : State) (r t k : Nat) : State :=
  let x := s.req r
  if x.retried.contains k then s.setReq r { x with missing := k :: x.missing }
  else (s.setReq r { x with retried := k :: x.retried }).addO (Od.gatherRetries t) 1

/-- A gather reads bytes of a chunk: its heat rises at most once a beat (R443). -/
def State.heatChunk (s : State) (t c : Nat) : State :=
  let y := s.tslot t
  match y.cur with
  | none => s
  | some tb =>
    if y.counted.contains c then s else
    s.setTslot t { y with counted := c :: y.counted, cur := some { tb with heats := tSet 0 tb.heats c (min 255 (tGet 0 tb.heats c + 1)) } }

/-- The lowest tag that is free. -/
def Pool.freeTag (p : Pool) : Option Nat := (List.range 4096).find? fun i => !tHas p.tags i

/-- A line is asked for: from the row cache, from the pool under a new tag, or it fails where no read can be made. -/
def State.askLine (s : State) (r t off : Nat) (cache : Bool) : State :=
  let x := s.req r
  let k := lineKey t off
  if tHas x.pool k || x.missing.contains k then s else
  if s.pool.tags.any fun e => !e.2.quar && e.2.req == r && e.2.table == t && e.2.off == off / 64 * 64 then s else
  let tb := s.table t
  let o := off / 64 * 64
  let s := s.heatChunk t (o / 2 ^ 21)
  match (if cache && tHas tb.chunks (o / 2 ^ 21) then some (tGet 0 tb.chunks (o / 2 ^ 21)) else none) with
  | some p =>
    let s := s.setReq r { x with pool := tIns k (s.stackBytes p (o % 2 ^ 21) 64) x.pool, fromCache := k :: x.fromCache }
    s.touchPage p (o % 2 ^ 21 / 2 ^ 16)
  | none =>
    if !s.decoded (tb.base + o) 64 then s.setReq r { x with missing := k :: x.missing }
    else if !s.pool.up then (s.lineFails r t k).lineFails r t k
    else match s.pool.freeTag with
      | none => s
      | some n =>
        let s := s.setPool { s.pool with tags := tIns n { req := r, table := t, off := o } s.pool.tags }
        (s.addO Od.poolReads 1).addO Od.poolTagsInUse 1

/-- Every line of n bytes. -/
def State.askLines (s : State) (r t off n : Nat) (cache : Bool) : State :=
  applyAll (fun s i => s.askLine r t (off / 64 * 64 + 64 * i) cache) s (List.range ((off + n - 1) / 64 + 1 - off / 64))

/-- One row's next reads: the level-2 entry of its group, once more after a wrong CRC, then the row. -/
def State.askRow (s : State) (r t row : Nat) : State :=
  let tb := s.table t
  if tb.rows ≤ row then s else
  let x := s.req r
  let g := row / 256
  match tb.entryOff g with
  | none => s
  | some o =>
    match x.group tb t g with
    | .wait => s.askLines r t o 128 (!x.crcs.contains (groupKey t g))
    | .badCrc =>
      let ks := [lineKey t o, lineKey t o + 1]
      let s := s.setReq r { x with crcs := groupKey t g :: x.crcs, pool := tDrop (fun k => ks.contains k) x.pool }
      s.askLines r t o 128 false
    | .entry v =>
      let c := tb.classOf v row
      if c = 3 then s else s.askLines r t (tb.rowOff v row) (classBytes tb.dim c) true
    | _ => s

/-- Every read a request's stage 12 can make now. -/
def State.pumpGather (s : State) (r : Nat) : State :=
  let one (s : State) : State := applyAll (fun s (p : Nat × Nat) => s.askRow r p.1 p.2) s (s.req r).needs
  one (one (one s))

/-- The reads of every request, after a tag is free or the link has changed. -/
def State.pumpGathers (s : State) : State :=
  applyAll (fun s (e : Nat × Req) => if e.2.stage12 then s.pumpGather e.1 else s) s s.reqs

/-- Whether a line is part of what a request's stage 12 still needs. -/
def State.wants (s : State) (r t off : Nat) : Bool :=
  s.hasReq r && (s.req r).needs.any fun p => p.1 == t && (
    let tb := s.table t
    let covers (o n : Nat) : Bool := decide (o / 64 * 64 ≤ off ∧ off < o + n)
    match tb.entryOff (p.2 / 256) with
    | none => false
    | some o => covers o 128 || (match (s.req r).group tb t (p.2 / 256) with
      | .entry v => covers (tb.rowOff v p.2) (classBytes tb.dim (tb.classOf v p.2))
      | _ => false))

/-- A tag freed. -/
def State.freeTag (s : State) (n : Nat) : State :=
  (s.setPool { s.pool with tags := tDel n s.pool.tags }).subO Od.poolTagsInUse 1

/-- POOL_READ_REPLY (R501, R440, R442): data without poison arrive under a tag. -/
def execPoolReadReply (tag : Fin 4096) (data : List Byte) (s : State) : Res :=
  .next <|
    if !tHas s.pool.tags tag.val then s else
    let g : PoolTag := tGet {} s.pool.tags tag.val
    if g.quar then s.addO Od.poolStale 1 else
    let s := s.freeTag tag.val
    if s.wants g.req g.table g.off then
      let x := s.req g.req
      let s := s.setReq g.req { x with pool := tIns (lineKey g.table g.off) (sliceB data 0 64) x.pool }
      (s.pumpGather g.req).pumpGathers
    else (s.addO Od.poolStaleReplies 1).pumpGathers

/-- An outstanding read has failed: its tag is quarantined, and it is retried or its rows are missing (R441, R501). -/
def State.readFails (s : State) (tag : Nat) : State :=
  let g : PoolTag := tGet {} s.pool.tags tag
  let s := s.setPool { s.pool with tags := tIns tag { g with quar := true } s.pool.tags }
  if s.wants g.req g.table g.off then s.lineFails g.req g.table (lineKey g.table g.off) else s

/-- POOL_READ_TIMEOUT (R501, R441): no reply within POOL_TIMEOUT_NS, or poison or an error response. -/
def execPoolReadTimeout (tag : Fin 4096) (poison : Bool) (s : State) : Res :=
  .next <|
    let g : PoolTag := tGet {} s.pool.tags tag.val
    if !tHas s.pool.tags tag.val || g.quar then s else
    let s := s.addO (if poison then Od.poolPoison else Od.poolTimeouts) 1
    (s.readFails tag.val).pumpGathers

/-- POOL_TAG_QUARANTINE_END (R501): a quarantined tag is free again after POOL_TAG_QUARANTINE_NS. -/
def execPoolTagQuarantineEnd (tag : Fin 4096) (s : State) : Res :=
  .next <|
    let g : PoolTag := tGet {} s.pool.tags tag.val
    if tHas s.pool.tags tag.val && g.quar then (s.freeTag tag.val).pumpGathers else s

/-- POOL_LINK_DOWN (R503, R442): every outstanding and later read fails at once. -/
def execPoolLinkDown (s : State) : Res :=
  .next <|
    let s := (s.setPool { s.pool with up := false }).setO Od.poolLink 0
    let s := applyAll State.readFails s (tKeys s.pool.tags fun _ g => !g.quar)
    s.pumpGathers

/-- POOL_LINK_UP (R499, R503): the port is trained at a rate in GT/s and a width. -/
def execPoolLinkUp (rate lanes : Nat) (s : State) : Res :=
  .next <| guardS (s.pdOn 96) s fun s =>
    (s.setPool { s.pool with up := true }).setO Od.poolLink (packFields [(15, 0), (1, 1), (8, rate), (8, lanes)])

/-! ## Widening and pooling (R433, R434) -/

/-- The row's elements as BF16 codes. -/
def widenRow (dim cls : Nat) (bs : List Byte) : List Nat :=
  let v := leNat bs
  let code (x : Val) : Nat := match convFloat fmtBF16 false none x with
    | .code c => c
    | .blockNan => fmtBF16.nanC
  match cls with
  | 0 => (List.range dim).map fun i => bits v (16 * i + 15) (16 * i)
  | 1 =>
    let sc := fmtFP16.dec (leAt bs dim 2)
    (List.range dim).map fun i => code ((fmtE4M3.dec (bits v (8 * i + 7) (8 * i))).mul sc)
  | _ => (List.range dim).map fun i => code (decScaled 5 (unpackAt 5 v i) (leAt bs (dim / 2 + i / 32) 1))

/-- One pair of a bag added to the accumulators. -/
def poolRow (acc : List FP32) (w : Nat) (row : List Nat) : List FP32 :=
  List.zipWith (fun a x => rne32 ((val32 a).add ((fmtFP16.dec w).mul (fmtBF16.dec x)))) acc row

/-- The pooled vector of a bag whose rows are BF16 codes, in bag order. -/
def poolBag (dim : Nat) (pairs : List (Nat × List Nat)) : List FP32 :=
  pairs.foldl (fun acc p => poolRow acc p.1 p.2) (List.replicate dim f32zero)

/-- The bytes of a pooled vector: FP32, or BF16 saturated. -/
def poolBytes (fp32 : Bool) (acc : List FP32) : List Byte :=
  if fp32 then acc.flatMap fun a => leBytes 4 a.toNat
  else acc.flatMap fun a => leBytes 2 (match convFloat fmtBF16 false none (val32 a) with
    | .code c => c
    | .blockNan => fmtBF16.nanC)

/-- The array whose pooling unit serves a request (R439, R570): A(n % 32), or the next in service whose slice is ON. -/
def State.poolArray (s : State) (n : Nat) : Option Nat :=
  ((List.range 32).map fun i => (n + i) % 32).find? fun a => s.arrInService a && s.pdOn (pdSlice a) && s.pdOn (pdSpine (a / 8))

/-- The feature page of a position, allocated when it is first written (R438); none while no page is free. -/
def State.featPage (s : State) (r a i : Nat) : Option (State × Nat) :=
  let x := s.req r
  if tHas x.featPages i then some (s, tGet 0 x.featPages i) else
  match s.kvAlloc (a / 8) x.tenant a with
  | none => none
  | some (s, k) => some (s.setReq r { s.req r with featPages := tIns i k (s.req r).featPages }, k)

/-- Statistics of a row gathered (R445). -/
def State.countRow (s : State) (t row : Nat) : State :=
  let tb := s.table t
  if tb.rows ≤ row then s else
  let n := tb.sample + 1
  let hit := decide (s.o Od.hotSamplePeriod ≤ n)
  s.setTable t { tb with
    groups := tSet 0 tb.groups (row / 256) (min 65535 (tGet 0 tb.groups (row / 256) + 1))
    ring := if hit then (row :: tb.ring).take 65536 else tb.ring
    sample := if hit then 0 else n }

/-- The vector of a feature written into a candidate's block; none while no page is free. -/
def State.putFeature (s : State) (r a c f : Nat) (bs : List Byte) : Option State :=
  let x := s.req r
  let per := s.featPer x
  match s.featPage r a (c / per) with
  | none => none
  | some (s, k) =>
    let x := s.req r
    let off := c % per * s.featBlock x + ((x.fset.feats.take f).map fun g => 16 * cdiv (s.featBytes g) 16).sum
    let cs := x.cands.set c { x.cands.getD c {} with feats := tIns f bs (x.cands.getD c {}).feats }
    some ((s.putKv k off bs).setReq r { x with cands := cs })

/-- A vector written for every candidate that takes it. -/
def putFeatures (r a f : Nat) (bs : List Byte) : List Nat → State → Option State
  | [], s => some s
  | c :: cs, s => match s.putFeature r a c f bs with
    | none => none
    | some s => putFeatures r a f bs cs s

/-- The effect of BAG_POOL on a bag whose rows are all known. -/
def State.poolFeature (s : State) (r c f : Nat) : State :=
  let x := s.req r
  let ft := x.fset.feats.getD f 0
  let t := bits ft 127 122
  let tb := s.table t
  let cd := x.cands.getD c {}
  let bag := x.bag ft cd
  let rows := bag.map fun p => (p, x.row tb t p.1)
  if rows.any fun p => p.2 == .wait then s.pumpGather r else
  match s.poolArray x.seq with
  | none => s
  | some a =>
    let acc := poolBag tb.dim (rows.map fun p => (p.1.2, match p.2 with
      | .got cls bs _ => widenRow tb.dim cls bs
      | _ => tb.dflt))
    let bs := poolBytes (bitAt ft 117) acc
    let cs := if bits ft 121 120 = 0 then
        (List.range x.cands.length).filter fun i => (x.cands.getD i {}).live && !tHas (x.cands.getD i {}).feats f
      else [c]
    match putFeatures r a f bs cs s with
    | none => s
    | some s =>
      let miss := (rows.filter fun p => p.2 == .missing).length
      let x := s.req r
      let s := s.setReq r { x with numfault := x.numfault || acc.any isNan32, rowsMissing := x.rowsMissing || miss != 0 }
      let got := rows.filter fun p => match p.2 with
        | .got _ _ _ => true
        | _ => false
      let cached := rows.filter fun p => match p.2 with
        | .got _ _ b => b
        | _ => false
      let s := (s.addO Od.bagsPooled 1).addO (Od.rowsGathered t) got.length
      let s := (s.addO (Od.rowsFromCache t) cached.length).addO (Od.rowsMissingCount t) miss
      applyAll (fun s p => if p.2 == RowGot.missing then s else s.countRow t p.1.1) s rows

/-! ## Loads of tables (R430, R431) -/

/-- Pages of the row cache in use. -/
def State.rowPages (s : State) : Nat := (s.mem.pages.filter fun e => e.2.use.kind == 8 && e.2.cls == cCACHED).length

/-- A row-cache page taken on the stack with the most FREE pages, the lowest on ties (DESIGN CHOICE; log entry 33). -/
def State.takeRowPage (s : State) (t idx : Nat) : Option (State × Nat) :=
  if s.o Od.rowCachePages ≤ s.rowPages then none else
  let hs := (List.range 8).filter s.stackUp
  match (sortBy (fun a b => decide (s.freeCount b < s.freeCount a)) hs).head? with
  | none => none
  | some h => match s.freePageOf h with
    | none => none
    | some p => some (s.putPage p { cls := cCACHED, owner := 0, target := 4 * h, use := ⟨8, t, idx⟩ }, p)

/-- The pages of an image in the row cache freed. -/
def State.dropTable (s : State) (x : Option Table) : State :=
  match x with
  | none => s
  | some tb => applyAll State.freePage s (tb.fixed :: (tb.chunks.map (·.2) ++ tb.filling.map (·.2)))

/-- ROWS, DIM and the offsets of the level-1 directory and of the default vector in an image's header (R427). -/
def hdrRows (hdr : List Byte) : Nat := bits (leAt hdr 0 256) 1999 1968 + 1
def hdrDim (hdr : List Byte) : Nat := bits (leAt hdr 0 256) 1967 1956
def hdrL1 (hdr : List Byte) : Nat := bits (leAt hdr 0 256) 1919 1872
def hdrDflt (hdr : List Byte) : Nat := bits (leAt hdr 0 256) 1871 1824

/-- The FORMAT check of an image's header. -/
def hdrOk (hdr : List Byte) : Bool :=
  let v := leAt hdr 0 256
  let dim := hdrDim hdr
  bits v 2047 2016 == 0x45544231 && bits v 2015 2000 == 1 && decide (32 ≤ dim ∧ dim ≤ 2048) && dim % 32 == 0 &&
    bits v 1955 1920 == 0 && bits v 1823 1792 == 0 && bits v 1727 32 == 0 && bits v 31 0 == crc32c ((sliceB hdr 0 256).drop 4)

/-- Entries of the level-1 directory. -/
def l1Entries (hdr l1 : List Byte) : List Nat := (List.range (cdiv (hdrRows hdr) 65536)).map fun i => leAt l1 (8 * i) 8 % 2 ^ 48

/-- The image that a header, a directory and a default vector describe, its fixed parts in page p. -/
def tableImage (base p : Nat) (hdr l1 dflt : List Byte) (counts : List Nat) : Table :=
  { rows := hdrRows hdr, dim := hdrDim hdr, base := base, id := bits (leAt hdr 0 256) 1791 1728, counts := counts, fixed := p
    l1 := (applyAll (fun (a : Tbl Nat × Nat) e => (tSet l1None a.1 a.2 e, a.2 + 1)) (([] : Tbl Nat), 0) (l1Entries hdr l1)).1
    dflt := (List.range (hdrDim hdr)).map fun i => leAt dflt (2 * i) 2 }

/-- A load fails: the slot is EMPTY again, or still READY with its old image. -/
def State.tableFails (s : State) (t reason : Nat) : State :=
  let s := s.setO (Od.tableState t) (if s.o (Od.tableState t) = 1 then 0 else 2)
  (s.setO (Od.tableLoadReason t) reason).imageRec 2 t reason

/-- Whether the reads of a load's directory and default vector decode. -/
def State.tableDecodes (s : State) (base : Nat) (hdr : List Byte) : Bool :=
  s.decoded (base + hdrL1 hdr) (8 * cdiv (hdrRows hdr) 65536) && s.decoded (base + hdrDflt hdr) (2 * hdrDim hdr)

/-- The reads of a load's header, directory and default vector counted. -/
def State.tableReads (s : State) (hdr : List Byte) : State :=
  s.addO Od.poolReads (4 + cdiv (8 * cdiv (hdrRows hdr) 65536) 64 + cdiv (2 * hdrDim hdr) 64)

/-- A passed load's fixed parts are in page p of the row cache. -/
def State.tablePassed (s : State) (t p base : Nat) (hdr l1 dflt : List Byte) (counts : List Nat) : State :=
  let n := cdiv (hdrRows hdr) 65536
  let s := ((s.putStack p 0 (sliceB hdr 0 256)).putStack p 256 (sliceB l1 0 (8 * n))).putStack p (256 + 8 * n)
    (sliceB dflt 0 (2 * hdrDim hdr))
  s.setTslot t { s.tslot t with next := some (tableImage base p hdr l1 dflt counts) }

/-- TABLE_LOAD (R431, R503): the load a LOAD began reads the header, the level-1 directory and the default vector and runs its checks;
`ok` says whether the reads ended without timeout or poison, `counts` the image's rows by class (DESIGN CHOICE; log entry 33). -/
def execTableLoad (t : Fin 64) (hdr l1 dflt : List Byte) (counts : List Nat) (ok : Bool) (s : State) : Res :=
  .next <|
    let st := s.o (Od.tableState t.val)
    if !(st == 1 || st == 3) || (s.tslot t.val).next.isSome then s else
    let base := s.o (Od.poolBase t.val)
    if !s.pool.up || !s.decoded base 256 then s.tableFails t.val 1 else
    let s := s.tableReads hdr
    if !ok || !s.tableDecodes base hdr then s.tableFails t.val 2 else
    match s.takeRowPage t.val (2 ^ 30) with
    | none => s.tableFails t.val 2
    | some (u, p) =>
      if !hdrOk hdr then s.tableFails t.val 3
      else if (l1Entries hdr l1).any fun e => e != l1None && !s.decoded (base + e) 32768 then s.tableFails t.val 4
      else u.tablePassed t.val p base hdr l1 dflt counts

/-- TABLE_LOAD_DONE (R431, R333): at a beat boundary a passed load becomes READY, or takes over a slot without references. -/
def execTableLoadDone (t : Fin 64) (s : State) : Res :=
  .next <|
    let st := s.o (Od.tableState t.val)
    let y := s.tslot t.val
    match y.next with
    | none => s
    | some w =>
      if !(st == 1 || (st == 3 && s.o (Od.tableRefs t.val) == 0)) then s else
      let s := s.dropTable y.cur
      let s := s.setTslot t.val { cur := some w }
      applyAll (fun s (e : Nat × Nat) => s.setO e.1 e.2) s
        [(Od.tableState t.val, 2), (Od.tableRows t.val, w.rows), (Od.tableDim t.val, w.dim), (Od.tableImageId t.val, w.id),
         (Od.classCounts t.val, packFields ((List.range 4).map fun c => (64, w.counts.getD c 0))), (Od.chunksCached t.val, 0),
         (Od.tableLoadReason t.val, 0)]

/-- TABLE_CLOSE (R431, R333). -/
def execTableClose (t : Fin 64) (s : State) : Res :=
  .next <| guardS (s.o (Od.tableState t.val) == 2 && s.o (Od.tableCommand t.val) == 2) s fun s => s.setO (Od.tableState t.val) 4

/-- TABLE_CLOSE_DONE (R431, R333): at the first boundary without references the slot is EMPTY and its cached chunks are freed. -/
def execTableCloseDone (t : Fin 64) (s : State) : Res :=
  .next <| guardS (s.o (Od.tableState t.val) == 4 && s.o (Od.tableRefs t.val) == 0) s fun s =>
    let s := (s.dropTable (s.tslot t.val).cur).setTslot t.val {}
    applyAll State.resetO s [Od.tableState t.val, Od.tableRows t.val, Od.tableDim t.val, Od.tableImageId t.val, Od.classCounts t.val,
      Od.chunksCached t.val]

/-! ## The row cache (R443, R444) -/

/-- The coldest complete chunk that a heat outweighs: least heat, then table, then chunk. -/
def State.coldChunk (s : State) (heat : Nat) : Option (Nat × Nat) :=
  let cs := s.tables.flatMap fun e => match e.2.cur with
    | none => []
    | some tb => tb.chunks.map fun c => (tGet 0 tb.heats c.1, e.1, c.1)
  let cs := cs.filter fun c => decide (c.1 + s.o Od.heatHysteresis ≤ heat)
  ((sortBy (fun a b => lexLt [a.1, a.2.1, a.2.2] [b.1, b.2.1, b.2.2]) cs).head?).map (·.2)

/-- A cached chunk is dropped. -/
def State.dropChunk (s : State) (t c : Nat) : State :=
  let tb := s.table t
  ((s.freePage (tGet 0 tb.chunks c)).setTable t { tb with chunks := tDel c tb.chunks }).subO (Od.chunksCached t) 1

/-- A chunk admitted: a page taken, its fill begins. -/
def State.admitChunk (s : State) (t c : Nat) : Option State :=
  (s.takeRowPage t c).map fun p => p.1.setTable t { p.1.table t with filling := tIns c p.2 (p.1.table t).filling }

/-- Hot uncached chunks by descending heat, table and chunk: (heat, table, chunk). -/
def State.hotChunks (s : State) : List (Nat × Nat × Nat) :=
  let cs := s.tables.flatMap fun e => match e.2.cur with
    | none => []
    | some tb => (tb.heats.filter fun h => decide (s.o Od.rowCacheThreshold ≤ h.2) && !tHas tb.chunks h.1 && !tHas tb.filling h.1).map
        fun h => (h.2, e.1, h.1)
  sortBy (fun (a b : Nat × Nat × Nat) => decide (b.1 < a.1)) cs

/-- One hot chunk admitted, the coldest complete chunk dropped for it when there is no room. -/
def State.admitHot (s : State) (h : Nat × Nat × Nat) : State :=
  match s.admitChunk h.2.1 h.2.2 with
  | some s => s
  | none => match s.coldChunk h.1 with
    | none => s
    | some d => ((s.dropChunk d.1 d.2).admitChunk h.2.1 h.2.2).getD s

/-- ROW_CACHE_DECISION (R443): at a beat multiple of 1 024, the hot uncached chunks in their order. -/
def execRowCacheDecision (s : State) : Res :=
  .next <| guardS (s.beat % 1024 == 0) s fun s => applyAll State.admitHot s s.hotChunks

/-- CHUNK_FILL_DONE (R443): every read of an admitted chunk has arrived; it serves reads from now on. -/
def execChunkFillDone (t : Fin 64) (c : Nat) (bytes : List Byte) (s : State) : Res :=
  .next <|
    let tb := s.table t.val
    if !tHas tb.filling c || !s.pool.up then s else
    let p := tGet 0 tb.filling c
    let s := s.putStack p 0 (bytes.take (2 ^ 21))
    let s := s.setTable t.val { tb with filling := tDel c tb.filling, chunks := tIns c p tb.chunks }
    (s.addO (Od.chunksCached t.val) 1).addO Od.poolReads 32768

end Sys2Proof.Machine
end

