-- ==== Sys2Proof/Machine/Search.lean ====
section
/-!
DEFINITION. Search windows, the scan, tombstones, the rim merge, the list cache and merges (13_search_insert_merge.md R397 to R425).
-/
namespace Sys2Proof.Machine

/-! ## Filters (R375, R376) -/

/-- Whether term i of a filter passes an attribute. -/
def termPasses (f : List Byte) (attr i : Nat) : Bool :=
  let t := leAt f (8 + 36 * i) 36
  let a := Nat.land attr (bits t 287 160)
  let v := bits t 159 32
  match bits t 31 30 with
  | 0 => a == v
  | 1 => a != v
  | 2 => decide (a < v)
  | _ => decide (v ≤ a)

/-- AND binds before OR: `group` says whether the terms of the group so far pass. -/
def filterFrom (f : List Byte) (attr : Nat) : Nat → Nat → Bool → Bool
  | 0, _, group => group
  | n + 1, i, group =>
    let g := group && termPasses f attr i
    if n = 0 then g
    else if bitAt (leAt f (8 + 36 * i) 36) 29 then g || filterFrom f attr n (i + 1) true
    else filterFrom f attr n (i + 1) g

/-- A filter; one of 0 terms, and no filter, passes every entry. -/
def filterPasses (f : List Byte) (attr : Nat) : Bool := filterFrom f attr (leBits f 63 60) 0 true

/-! ## What a window reads (R403) -/

/-- The version of a list that window b reads. -/
def LList.versionAt (y : LList) (b : Nat) : Option Version := y.vers.find? fun v => decide (v.flip ≤ b)

/-- The side floor of that version: 0 for a list that no merge has written. -/
def LList.floorAt (y : LList) (b : Nat) : Nat := ((y.versionAt b).map (·.floor)).getD 0

/-- The channel of main page p of a version. -/
def Index.versionChan (x : Index) (v : Version) (p : Nat) : Nat := x.stripeChan v.per (v.first + p / v.per) (p % v.per)

/-- Entries of a list that spoke `sp` reads for window b, with the entries of their pages. -/
def Index.shareMain (x : Index) (l b sp : Nat) : List Entry :=
  match (x.list l).versionAt b with
  | none => []
  | some v =>
    let n := pageEntries x.fmtWidth
    (v.ents.zip (List.range v.ents.length)).filterMap fun e =>
      if x.versionChan v (e.2 / n) == sp && !v.lost.contains (e.2 / n) then some e.1 else none

/-- The side page of a number, if it can be read. -/
def Index.sidePage (x : Index) (n : Nat) : Option SidePage := x.sidePages.find? fun p => p.num == n && !p.lost

def Index.shareSide (x : Index) (l b sp : Nat) : List SideEnt :=
  let y := x.list l
  y.side.filter fun w => decide (w.commit < b ∧ y.floorAt b ≤ w.e.num) && match x.sidePage w.page with
    | some p => x.stripeChan p.per p.stripe p.at_ == sp
    | none => false

def Index.share (x : Index) (l b sp : Nat) : List Entry := x.shareMain l b sp ++ (x.shareSide l b sp).map (·.e)

/-- Spokes in service. -/
def Index.spokes (x : Index) : List Nat := (List.range 32).filter fun c => !x.deadCh.contains c

/-- Every entry spoke sp reads for a list, with a failed channel's pages read by reconstruction for the lowest spoke (DEDUCED; log entry 32). -/
def Index.shareOf (x : Index) (l b sp : Nat) : List Entry :=
  if x.spokes.head? = some sp then x.share l b sp ++ x.deadCh.flatMap fun c => x.share l b c else x.share l b sp

/-- Eligible entries of a context on a spoke (R376, R405). -/
def Index.eligible (x : Index) (q : WQuery) (b sp : Nat) : List Entry :=
  q.lists.flatMap fun l => (x.shareOf l b sp).filter fun e => maskBit q.visible e.owner && filterPasses q.filter e.attr

/-- The kept entries of a context: the min(k', 1 024) best by distance, then entry number (R390). -/
def Index.kept (x : Index) (q : WQuery) (b sp : Nat) : List (Nat × Entry) :=
  let ds := (x.eligible q b sp).map fun e => (hamming x.fmtWidth q.code e.code, e)
  (sortBy (fun a c => lexLt [a.1, a.2.num] [c.1, c.2.num]) ds).take q.depth

/-- Whether a tombstone hides an entry from window b (R406). -/
def Index.hidden (x : Index) (b : Nat) (e : Entry) : Bool :=
  x.tombs.any fun t => t.owner == e.owner && t.ident == e.ident && decide (e.num < t.num ∧ t.commit < b)

/-! ## Windows (R400 to R402) -/

/-- A query joins the first open window in which it fits (R401). -/
def joinWindow (q : WQuery) (qMax kMax : Nat) : List Window → List Window
  | [] => [{ queries := [q] }]
  | w :: r =>
    if w.b == 0 && decide (w.queries.length < qMax) && decide ((w.queries.map (·.depth)).sum + q.depth ≤ kMax) then
      { w with queries := w.queries ++ [q] } :: r
    else w :: joinWindow q qMax kMax r

/-- Stage 7: the lists of a request's query are known (R401). -/
def State.joinQuery (s : State) (r : Nat) : State :=
  let x := s.req r
  let q : WQuery := { req := r, joined := s.beat, k := x.head.k, depth := min 1024 (x.head.k + s.o Od.tombstoneSlack)
                      code := x.code.getD 0, filter := x.head.filter, visible := x.visible, lists := x.lists }
  let s := s.setIndex { s.index with windows := joinWindow q (s.o Od.windowQueriesMax) (s.o Od.windowKMax) s.index.windows }
  s.setReq r { s.req r with stage := 8 }

/-- WINDOW_CLOSE (R400, R401): the first open window closes at this boundary with the queries that joined it before. -/
def execWindowClose (s : State) : Res :=
  .next <| guardS (s.beat % max 1 (s.o Od.searchWindowBeats) == 0 && s.index.lastClose != s.beat && s.mounted) s fun s =>
    let x := s.index
    match x.windows.find? fun w => w.b == 0 with
    | none => s.setIndex { x with lastClose := s.beat }
    | some w =>
      let now := w.queries.filter fun q => decide (q.joined < s.beat)
      let later := w.queries.filter fun q => !decide (q.joined < s.beat)
      let closed := x.windows.filter fun v => v.b != 0
      let open_ := (x.windows.filter fun v => v.b == 0).drop 1
      s.setIndex { x with
        lastClose := s.beat
        windows := closed ++ (if now.isEmpty then [] else [{ w with b := s.beat, queries := now }]) ++
          (if later.isEmpty then [] else [{ w with queries := later }]) ++ open_ }

/-- Contexts and top-k room in use on a spoke. -/
def Index.busyOn (x : Index) (sp : Nat) : Nat × Nat :=
  let qs := x.windows.flatMap fun w => if w.started then w.queries.filter fun q =>
    !w.merged.contains q.req && !w.done.contains (sp, q.req) else []
  (qs.length, (qs.map (·.depth)).sum)

/-- A list is visited by a window that starts (R410). -/
def State.heatList (s : State) (l : Nat) : State :=
  let y := s.index.list l
  s.setList l { y with heat := min 255 (y.heat + 1) }

/-- The lists of a window's queries. -/
def Window.lists (w : Window) : List Nat := (w.queries.flatMap (·.lists)).eraseDups

/-- Whether every spoke has contexts and room for a window (R402, R608). -/
def State.windowFits (s : State) (w : Window) : Bool :=
  let x := s.index
  let n := w.queries.length
  let d := (w.queries.map (·.depth)).sum
  (x.spokes.all fun sp => decide ((x.busyOn sp).1 + n ≤ 1024 ∧ (x.busyOn sp).2 + d ≤ 262144)) &&
    (x.spokes.all fun sp => s.pdOn (pdSpoke sp)) && !x.dirLost && s.mounted

/-- A window's contexts are loaded: its lists are hotter and its requests are searched (R402, R410). -/
def State.beginWindow (s : State) (w : Window) : State :=
  let s := s.addO Od.windowsWaited (b2n (decide (w.b < s.beat)))
  let s := s.setIndex { s.index with
    windows := s.index.windows.map fun v => if v.b == w.b then { v with started := true } else v }
  let s := applyAll State.heatList s w.lists
  applyAll (fun s (q : WQuery) => if s.hasReq q.req then s.setReq q.req { s.req q.req with stage := 9 } else s) s w.queries

/-- WINDOW_START (R402, R403, R410, R608): the oldest closed window starts when every spoke has contexts and room for it. -/
def execWindowStart (s : State) : Res :=
  .next <| match s.index.windows.find? fun w => w.b != 0 && !w.started with
  | none => s
  | some w => guardS (s.windowFits w) s fun s => s.beginWindow w

/-! ## The scan (R389, R390, R404, R405) -/

/-- Whether a list's version for window b is served from a complete cached copy; one that was given up serves the windows that read it
then (R413). -/
def LList.cachedAt (y : LList) (b : Nat) : Bool := match y.versionAt b with
  | some v => y.copies.any fun c => c.full && c.version == v.num && (c.marked || decide (b ≤ c.last))
  | none => false

/-- Bytes of a scan of n entries of a main page (R368). -/
def scanBytes (w n : Nat) : Nat := 64 + n * (w / 8 + 24)

/-- The stack of a list's main page in the list cache (R411). -/
def cacheStack (c : Nat) : Nat := 4 * (c / 16) + c % 4

/-- Main pages of a version on each channel. -/
def Index.pagesOn (x : Index) (v : Version) (c : Nat) : Nat :=
  ((List.range (x.mainPages v.ents.length)).filter fun p => !v.lost.contains p && x.versionChan v p == c).length

/-- Pages the spoke transfers from flash for one list of a window, and entries it runs through passes. -/
def Index.scanWork (x : Index) (w : Window) (sp l : Nat) : Nat × Nat :=
  let y := x.list l
  let q := (w.queries.filter fun q => q.lists.contains l).length
  let side := x.shareSide l w.b sp
  let pages := (match y.versionAt w.b with
    | some v => if y.cachedAt w.b then 0 else x.pagesOn v sp
    | none => 0) + (side.map (·.page)).eraseDups.length
  (pages, ((x.shareMain l w.b sp).length + side.length) * cdiv q 256)

/-- A spoke's reads of cached pages (R184, R412): heat of the pages on its stack. -/
def State.readCached (s : State) (l b sp : Nat) : State :=
  let y := s.index.list l
  if !y.cachedAt b then s else
  match y.versionAt b with
  | none => s
  | some v => match y.copies.find? fun c => c.version == v.num with
    | none => s
    | some c => applyAll (fun s p => if p / 24576 == cacheStack sp then s.touchPage p 0 else s) s c.pages

/-- The first context of a window that a spoke ends counts the pages and entries of its share (R396, R412). -/
def State.shareScanned (s : State) (w : Window) (sp : Nat) : State :=
  let x := s.index
  if w.done.any fun d => d.1 == sp then s else
  applyAll (fun s l =>
    let k := x.scanWork w sp l
    ((s.addO (Od.pagesRead sp) k.1).addO (Od.entriesScanned sp) k.2).readCached l w.b sp) s w.lists

/-- Spoke sp has written the results of request r's context and read their records. -/
def State.contextScanned (s : State) (w : Window) (sp r core mb : Nat) : State :=
  let x := s.index
  let q := (w.queries.find? fun q => q.req == r).getD {}
  let kept := x.kept q w.b sp
  let s := s.shareScanned w sp
  let s := s.addO (Od.entriesEligible sp) (x.eligible q w.b sp).length
  let flash := kept.filter fun e => q.lists.any fun l => !(x.list l).cachedAt w.b && (x.shareMain l w.b sp).any fun f => f.num == e.2.num
  let side := kept.filter fun e => q.lists.any fun l => (x.shareSide l w.b sp).any fun f => f.e.num == e.2.num
  let s := s.addO (Od.pagesRead sp) (flash.length + side.length)
  let s := s.setIndex { s.index with windows := s.index.windows.map fun v =>
    if v.b == w.b && v.started then { v with done := (sp, r) :: v.done } else v }
  s.spokeEvent core mb 1 sp ((w.queries.findIdx? fun q => q.req == r).getD 0) kept.length 0

/-- CONTEXT_DONE (R389, R390, R392, R396): spoke sp has scanned the lists of a query's context, written its results and read their
records; the pages of a window's share are counted with the first of its contexts. -/
def execContextDone (sp : Fin 32) (r core mb : Nat) (s : State) : Res :=
  .next <| match s.index.windows.find? fun w => w.started && w.queries.any fun q => q.req == r with
  | none => s
  | some w =>
    guardS (!(w.done.contains (sp.val, r) || s.index.deadCh.contains sp.val || !s.pdOn (pdSpoke sp.val))) s fun s =>
      s.contextScanned w sp.val r core mb

/-! ## Energy of a scan (R271) -/

/-- Bytes scanned in a window for one list. -/
def Index.listBytes (x : Index) (b l : Nat) : Nat :=
  let y := x.list l
  let main := match y.versionAt b with
    | some v => ((List.range (x.mainPages v.ents.length)).map fun p => if v.lost.contains p then 0 else
        scanBytes x.fmtWidth (min (pageEntries x.fmtWidth) (v.ents.length - p * pageEntries x.fmtWidth))).sum
    | none => 0
  main + (y.side.filter fun w => decide (w.commit < b ∧ y.floorAt b ≤ w.e.num)).length * (x.fmtWidth / 8 + 24)

/-- A query's share of the bytes of its window, times e_F. -/
def State.scanEnergy (s : State) (w : Window) (q : WQuery) : FP32 :=
  let sh := q.lists.foldl (fun acc l =>
    add32 acc (div32 (ofNat32 (s.index.listBytes w.b l)) (ofNat32 (w.queries.filter fun p => p.lists.contains l).length))) f32zero
  mul32 sh (BitVec.ofNat 32 (s.o Od.energyFlashByte))

/-! ## The rim merge (R407 to R409) -/

/-- A candidate as the rim merge delivers it. -/
def candOf (e : Nat × Entry) : Cand :=
  { ident := e.2.ident, owner := e.2.owner, attr := e.2.attr, entry := e.2.num, dist := e.1, taddr := e.2.taddr, tlen := e.2.tlen }

/-- A search result (R473). -/
def Cand.searchBytes (c : Cand) : List Byte :=
  beBytes 16 (packFields [(64, c.ident), (12, c.dist), (4, 0), (48, c.entry)])

/-- Windows whose every query has merged or is gone have ended. -/
def State.endWindows (s : State) : State :=
  s.setIndex { s.index with windows := s.index.windows.filter fun w =>
    !(w.started && w.queries.all fun q => w.merged.contains q.req) }

/-- A candidate-stage start: the query is tokenized for the cross-encoder (R446), rows are gathered (R439), texts are read meanwhile. -/
def State.startTexts (s : State) (r : Nat) (cs : List Cand) : State :=
  let s := s.setReq r { s.req r with cands := cs, stage := 10 }
  (s.askTokens r 1 0).pumpGather r

/-- A query's context has merged in a window. -/
def State.markMerged (s : State) (w : Window) (r : Nat) : State :=
  s.setIndex { s.index with windows := s.index.windows.map fun v =>
    if v.b == w.b && v.started then { v with merged := r :: v.merged } else v }

/-- What the spokes kept for a query, and the k best of them that no tombstone hides. -/
def Index.keptAll (x : Index) (q : WQuery) (b : Nat) : List (Nat × Entry) := x.spokes.flatMap fun sp => x.kept q b sp
def Index.mergeOut (x : Index) (q : WQuery) (b : Nat) : List (Nat × Entry) :=
  (sortBy (fun a c => lexLt [a.1, a.2.num] [c.1, c.2.num]) ((x.keptAll q b).filter fun e => !x.hidden b e.2)).take q.k

/-- A query's merge is counted, its energy charged, and its window's end noted (R407 to R409, R271). -/
def State.mergeCounted (s : State) (r : Nat) (w : Window) (q : WQuery) : State :=
  let x := s.index
  let kept := x.keptAll q w.b
  let live := kept.filter fun e => !x.hidden w.b e.2
  let s := s.addO Od.hiddenDropped (kept.length - live.length)
  let all := (x.spokes.map fun sp => ((x.eligible q w.b sp).filter fun e => !x.hidden w.b e).length).sum
  let s := s.addO Od.resultsShort (b2n (decide ((x.mergeOut q w.b).length < min q.k all)))
  let e := s.scanEnergy w q
  let s := s.setReq r { s.req r with energy := add32 (s.req r).energy e }
  (s.markMerged w r).endWindows

/-- A SEARCH request delivers its results and ends. -/
def State.searchEnds (s : State) (r : Nat) (cs : List Cand) : State :=
  let s := s.setReq r { s.req r with results := cs.length, stage := 10 }
  let bs := cs.flatMap Cand.searchBytes
  (if bs.isEmpty then s else s.emit r 3 16 bs true).finishReq r

/-- RIM_MERGE (R407 to R409): every spoke has finished the query's context; hidden entries are dropped and the rest merged to k.  The
results of a request that is gone are dropped. (DESIGN CHOICE; log entry 57) -/
def execRimMerge (r : Nat) (s : State) : Res :=
  .next <|
    let x := s.index
    match x.windows.find? fun w => w.started && (w.queries.any fun q => q.req == r) && !w.merged.contains r with
    | none => s
    | some w =>
      if !(x.spokes.all fun sp => w.done.contains (sp, r)) then s else
      let q := (w.queries.find? fun q => q.req == r).getD {}
      if !s.hasReq r then (s.markMerged w r).endWindows else
      let t := s.mergeCounted r w q
      let cs := (x.mergeOut q w.b).map candOf
      if (t.req r).head.kind = 2 then t.searchEnds r cs else t.startTexts r cs

/-! ## The list cache (R410 to R414) -/

/-- Pages a version needs on each stack (R411). -/
def Index.cacheNeed (x : Index) (v : Version) : List (Nat × Nat) :=
  (List.range 8).map fun h => (h, cdiv (((List.range 32).filter fun c => cacheStack c == h).map fun c => x.pagesOn v c).sum 128)

/-- Pages of the list cache in use. -/
def Index.cachePages (x : Index) : Nat := (x.lists.map fun e => (e.2.copies.map fun c => c.pages.length).sum).sum

/-- CACHED pages taken for a version on its stacks, or none. -/
def takeCache (l : Nat) : List (Nat × Nat) → State → Option (State × List Nat)
  | [], s => some (s, [])
  | (h, n) :: r, s =>
    if n ≠ 0 ∧ !s.stackUp h then none else
    match takeOn h cCACHED 0 (4 * h) 7 l n 0 s with
    | none => none
    | some t =>
      let mine := (t.mem.pages.filter fun e => e.2.cls == cCACHED && (s.page e.1).cls == cFREE).map (·.1)
      match takeCache l r t with
      | none => none
      | some (u, ps) => some (u, mine ++ ps)

/-- Copies of a list that were given up are freed when the last started window that reads them has ended (R413). (DEDUCED; log entry 76) -/
def State.freeDropped (s : State) (l : Nat) : State :=
  let y := s.index.list l
  let over_ (c : CacheCopy) : Bool := !c.marked &&
    !(s.index.windows.any fun w => w.started && decide (w.b ≤ c.last) && w.lists.contains l)
  let s := applyAll (fun s (c : CacheCopy) => applyAll State.freePage s c.pages) s (y.copies.filter over_)
  s.setList l { y with copies := y.copies.filter fun c => !over_ c }

/-- The cached copies of a list are given up (R413). -/
def State.dropCopies (s : State) (l : Nat) : State :=
  let y := s.index.list l
  let last := ((s.index.windows.filter fun w => w.started && w.lists.contains l).map (·.b)).foldl max 0
  let s := s.addO Od.listCacheDrops (y.copies.filter (·.marked)).length
  let s := s.subO Od.listsCached (b2n (y.copies.any fun c => c.full && c.marked && c.version == y.cur.num))
  (s.setList l { y with copies := y.copies.map fun c => if c.marked then { c with marked := false, last := last } else c }).freeDropped l

/-- Whether a list counts as cached: its current version has a copy that is not given up. -/
def LList.cached (y : LList) : Bool := y.copies.any fun c => c.marked && c.version == y.cur.num

/-- A list marked for fill into pages it takes now. -/
def State.markFill (s : State) (l : Nat) : Option State :=
  let y := s.index.list l
  let v := y.cur
  let need := s.index.cacheNeed v
  if s.o Od.listCachePages < s.index.cachePages + (need.map (·.2)).sum then none else
  match takeCache l need s with
  | none => none
  | some (s, ps) => some (s.setList l { y with copies := { version := v.num, pages := ps } :: y.copies })

/-- Whether the index stake's slots allow the list cache (R414). -/
def State.cacheUsable (s : State) : Bool :=
  s.o Od.indexSpineSlots != 0 && s.o Od.indexRimSlots != 0 && s.o Od.indexStackSlots != 0

/-- Room made for a candidate by dropping the coldest lists that its heat outweighs (R411); ties go to the highest list number. -/
def admitList : Nat → Nat → Nat → State → Option State
  | 0, _, _, _ => none
  | f + 1, l, heat, s =>
    match s.markFill l with
    | some s => some s
    | none =>
      let cs := s.index.lists.filter fun e => e.1 != l && e.2.cached && decide (e.2.heat + s.o Od.heatHysteresis ≤ heat)
      match (sortBy (fun (a b : Nat × LList) => lexLt [a.2.heat, 2 ^ 18 - a.1] [b.2.heat, 2 ^ 18 - b.1]) cs).head? with
      | none => none
      | some e => admitList f l heat (s.dropCopies e.1)

/-- Hot uncached lists in descending heat (R411). -/
def State.hotLists (s : State) : List (Nat × LList) :=
  let cs := s.index.lists.filter fun e => !e.2.cached && decide (s.o Od.listCacheThreshold ≤ e.2.heat) && !e.2.vers.isEmpty &&
    decide (0 < e.2.cur.ents.length)
  sortBy (fun (a b : Nat × LList) => decide (b.2.heat < a.2.heat)) cs

/-- One candidate admitted, when room can be made for it. -/
def State.admitOne (s : State) (e : Nat × LList) : State := (admitList (s.index.lists.length + 1) e.1 e.2.heat s).getD s

/-- LIST_CACHE_DECISION (R411): at a beat multiple of 1 024, hot uncached lists in descending heat. -/
def execListCacheDecision (s : State) : Res :=
  .next <| guardS (s.beat % 1024 == 0 && s.mounted && s.cacheUsable) s fun s => applyAll State.admitOne s s.hotLists

/-- LIST_CACHE_FILL_DONE (R412): a window has scanned a marked list and every main page of the version is cached. -/
def execListCacheFillDone (l : Nat) (s : State) : Res :=
  .next <|
    let y := s.index.list l
    match y.copies.find? fun c => c.marked && !c.full with
    | none => s
    | some c =>
      let scanned := s.index.windows.any fun w => w.started && w.lists.contains l && (y.versionAt w.b).any fun v => v.num == c.version
      if !scanned then s else
      let s := s.setList l { y with copies := y.copies.map fun d => if d.version == c.version then { d with full := true } else d }
      (s.addO Od.listCacheFills 1).addO Od.listsCached (b2n (c.version == y.cur.num))

/-! ## Merges (R416 to R423) -/

/-- Whether a merge's dropped entry is hidden by a tombstone below the cut (R418). -/
def Index.hiddenBelow (x : Index) (cut : Nat) (e : Entry) : Bool :=
  x.tombs.any fun t => t.owner == e.owner && t.ident == e.ident && decide (e.num < t.num ∧ t.num < cut)

/-- Main entries of the current version with whether their page is lost. -/
def Index.mainEntries (x : Index) (y : LList) : List (Entry × Bool) :=
  let n := pageEntries x.fmtWidth
  (y.cur.ents.zip (List.range y.cur.ents.length)).map fun e => (e.1, y.cur.lost.contains (e.2 / n))

/-- The merge of a list at a cut (R418, R421); `sweep` allows it to rewrite nothing. -/
def Index.mergeOf (x : Index) (l cut : Nat) (sweep : Bool) : Merge :=
  let y := x.list l
  let main := x.mainEntries y
  let sides := y.open_.filter fun w => decide (w.e.num < cut)
  let lostSide (w : SideEnt) : Bool := (x.sidePage w.page).isNone
  let hid (e : Entry) : Bool := x.hiddenBelow cut e
  let nothing := sweep && sides.isEmpty && main.all fun e => !e.2 && !hid e.1
  if nothing then { cut := cut, nothing := true }
  else
    let keepMain := (main.filter fun e => !e.2 && !hid e.1).map (·.1)
    let keepSide := (sides.filter fun w => !lostSide w && !hid w.e).map (·.e)
    let drops := (main.filter fun e => e.2 || hid e.1).map (·.1) ++ (sides.filter fun w => lostSide w || hid w.e).map (·.e)
    let fix (e : Entry) : Entry := if e.tlen = 0 then e else { e with taddr := x.textAddr e.taddr }
    { cut := cut, ents := sortBy (fun a b => decide (a.num < b.num)) ((keepMain ++ keepSide).map fix)
      drops := drops, sides := sides, per := x.per, lost0 := y.cur.lost.length }

/-- N_c: the lowest number of an append neither committed nor failed (R417). -/
def State.mergeCut (s : State) : Nat :=
  let x := s.index
  ((x.staged ++ x.formed.flatMap (·.apps)).map fun a => a.e.num).foldl min (s.o Od.nextEntryNumber)

/-- A merge starts on a list when the index region has room for its new version beyond the fill limit (R416). -/
def State.startMerge (s : State) (l : Nat) (sweep : Bool) : Option State :=
  let x := s.index
  let m := x.mergeOf l s.mergeCut sweep
  let n := cdiv (x.mainPages m.ents.length) x.per
  if m.nothing then some (s.setList l { x.list l with merge := some m })
  else if s.fillOver (x.usedIndex + n * x.per) x.dIndex then none
  else match x.alloc n with
    | none => none
    | some (x, t) => some (((s.setIndex x).setList l { x.list l with merge := some { m with first := t } }).putFill)

/-- Whether a list holds a main or a side entry. -/
def LList.holds (y : LList) : Bool := !y.cur.ents.isEmpty || !y.open_.isEmpty

/-- The lists to merge at a boundary, in order of precedence (R416); the last is the sweep's. -/
def State.mergeOrder (s : State) : List (Nat × Bool) :=
  let ls := s.index.lists.filter fun e => e.2.merge.isNone
  let r1 := (ls.filter fun e => e.2.damaged).map (·.1)
  let r2 := (ls.filter fun e => decide (s.o Od.sideRunsMax ≤ 2 * e.2.runs)).map (·.1)
  let r3 := ((sortBy (fun (a b : Nat × LList) => decide (b.2.open_.length < a.2.open_.length))
    (ls.filter fun e => decide (s.o Od.mergeSideMin ≤ e.2.open_.length)))).map (·.1)
  let todo := (ls.filter fun e => e.2.holds && !e.2.swept).map (·.1)
  let r4 := match todo.find? fun l => decide (s.index.sweepAt ≤ l) with
    | some l => [l]
    | none => todo.take 1
  let first := (r1 ++ r2 ++ r3).eraseDups
  first.map (fun l => (l, false)) ++ (r4.filter fun l => !first.contains l).map fun l => (l, true)

/-- MERGE_START at a boundary (R416, R417, R421). -/
def State.startMerges (s : State) : State :=
  if !s.mounted || s.index.unmount then s else
  applyAll (fun s (p : Nat × Bool) =>
    let running := (s.index.lists.filter fun e => e.2.merge.isSome).length
    if s.o Od.mergesMax ≤ running then s else
    match s.startMerge p.1 p.2 with
    | none => s
    | some s =>
      let cut := (((s.index.list p.1).merge.map (·.cut)).getD 0)
      s.setIndex { s.index with
        sweepCut := some (min cut (s.index.sweepCut.getD cut))
        sweepAt := if p.2 then p.1 + 1 else s.index.sweepAt }) s s.mergeOrder

/-- MERGE_PROGRAMMED (R419): the last page, the padding, the parity and the journal record of a list's new version are programmed. -/
def execMergeProgrammed (l : Nat) (s : State) : Res :=
  .next <|
    let y := s.index.list l
    match y.merge with
    | none => s
    | some m =>
      if m.ready || m.nothing then s else
      let x := s.index
      let n := cdiv (x.mainPages m.ents.length) m.per
      let s := applyAll (fun s t => applyAll (fun s j => s.programmed (x.stripeChan m.per (m.first + t) j)) s (List.range (m.per + 1)))
        s (List.range n)
      s.setList l { y with merge := some { m with ready := true, ready_ := s.beat } }

/-- The sweep counts its lists; a complete one retires the tombstones below its least cut (R421, R422). -/
def State.sweepStep (s : State) (l : Nat) : State :=
  let s := s.setList l { s.index.list l with swept := true }
  let holds := (s.index.lists.filter fun e => e.2.holds).length
  let left := (s.index.lists.filter fun e => e.2.holds && !e.2.swept).length
  if left = 0 then
    let x := s.index
    let s := s.setIndex { x with
      lists := x.lists.map (fun e => (e.1, { e.2 with swept := false })), sweepAt := 0, sweepCut := none, sweepFlip := 0
      retire := x.retire ++ [(x.sweepCut.getD 0, x.sweepFlip)] }
    (s.addO Od.sweepsDone 1).setO Od.sweepListsLeft holds
  else s.setO Od.sweepListsLeft left

/-- A list's programmed merge becomes its current version (R419, R423). -/
def State.flipList (s : State) (l : Nat) (m : Merge) : State :=
  let y := s.index.list l
  let v : Version := { num := y.cur.num + 1, floor := m.cut, flip := s.beat, ents := m.ents, first := m.first, per := m.per }
  let s := s.setList l { y with vers := v :: y.vers, merge := none, damaged := decide (m.lost0 < y.cur.lost.length) }
  let s := applyAll (fun s (w : SideEnt) => s.subO (Od.sideUsed w.e.owner) 1) s m.sides
  let x := (m.drops.foldl (fun x e => x.dropText e.taddr e.tlen) s.index).tidyForward
  let s := s.setIndex { x with sweepFlip := s.beat }
  let s := (s.addO Od.mergesDone 1).recount
  let s := s.subO Od.listsCached (b2n (y.copies.any fun c => c.full && c.marked && c.version == y.cur.num))
  if y.cached then (s.markFill l).getD s else s

/-- LIST_FLIP (R419, R423): at a boundary after it was programmed, the new version becomes current. -/
def execListFlip (l : Nat) (s : State) : Res :=
  .next <| match (s.index.list l).merge with
  | none => s
  | some m => if !m.ready || m.nothing || decide (s.beat ≤ m.ready_) then s else ((s.flipList l m).sweepStep l).pumpStaging

/-- A list's side floor at a cut, its merge over (R421). -/
def State.raiseFloor (s : State) (l cut : Nat) : State :=
  let y := s.index.list l
  let vs := match y.vers with
    | [] => [{ floor := cut }]
    | v :: r => { v with floor := cut } :: r
  s.setList l { y with vers := vs, merge := none }

/-- SIDE_FLOOR_RAISE (R421): a sweep that found nothing to drop raises the side floor. -/
def execSideFloorRaise (l : Nat) (s : State) : Res :=
  .next <| match (s.index.list l).merge with
  | none => s
  | some m => if !m.nothing then s else (s.raiseFloor l m.cut).sweepStep l

/-- The tombstones below a cut leave the table (R422). -/
def State.retireTombs (s : State) (cut : Nat) (rest : List (Nat × Nat)) : State :=
  let x := s.index
  let out := x.tombs.filter fun t => decide (t.num < cut)
  let s := s.setIndex { x with retire := rest, tombs := x.tombs.filter fun t => !decide (t.num < cut) }
  let s := applyAll (fun s (t : Tomb) =>
    let l := t.ident % max 1 x.fmtLists
    let s := s.setList l { s.index.list l with tombs := (s.index.list l).tombs - 1 }
    s.subO (Od.sideUsed t.owner) 1) s out
  s.setO Od.tombstones s.index.tombs.length

/-- TOMBSTONE_RETIRE (R422): the tombstones of a complete sweep leave the table once every window with a view beat below its last flip has
ended. -/
def execTombstoneRetire (s : State) : Res :=
  .next <| match s.index.retire with
  | [] => s
  | (cut, flip) :: rest =>
    if s.index.windows.any fun w => w.b != 0 && decide (w.b < flip) then s else (s.retireTombs cut rest).pumpStaging

/-- Side pages that no list version, no window and no tombstone needs return to the free pages (R420). -/
def State.tidySidePages (s : State) : State :=
  let x := s.index
  let used (n : Nat) : Bool := (x.lists.any fun e => e.2.side.any fun w => w.page == n) || x.tombs.any fun t => t.page == n
  (s.setIndex { x with sidePages := x.sidePages.filter fun p => used p.num || x.stripe == some p.stripe }).putFill

/-- The oldest version of a list goes, with its cached copy and the side entries below the next version's floor (R413, R420). -/
def State.dropVersion (s : State) (l : Nat) : State :=
  let s := s.freeDropped l
  let y := s.index.list l
  let n := y.vers.length
  let old := y.vers.getD (n - 1) {}
  let next := y.vers.getD (n - 2) {}
  let s := applyAll (fun s (c : CacheCopy) => applyAll State.freePage s c.pages) s (y.copies.filter fun c => c.version == old.num)
  let s := s.setList l { y with
    vers := y.vers.take (n - 1), side := y.side.filter fun w => decide (next.floor ≤ w.e.num)
    copies := y.copies.filter fun c => c.version != old.num }
  s.setIndex s.index.tidyForward

/-- What a list's only version has merged goes from its side list (R420). -/
def State.dropMerged (s : State) (l : Nat) : State :=
  let s := s.freeDropped l
  let y := s.index.list l
  (s.setList l { y with side := y.open_ })

/-- VERSION_RELEASE (R413, R420): the oldest version of a list that no window can read any more goes, with its cached copy and the side
entries below the next version's floor; so do copies that were given up, and the side entries of a list's first merge. -/
def execVersionRelease (l : Nat) (s : State) : Res :=
  .next <|
    let y := s.index.list l
    let n := y.vers.length
    if s.index.windows.any fun w => w.b != 0 && decide (w.b < (y.vers.getD (n - 2) {}).flip) then s.freeDropped l
    else (if n < 2 then s.dropMerged l else s.dropVersion l).tidySidePages.pumpStaging

end Sys2Proof.Machine
end

