-- ==== Sys2Proof/Machine/Pack.lean ====
section
/-!
DEFINITION. Texts, features, the choice of passages and prompt packing (14_features_rerank_packing.md R438 to R455;
12_flash_index_and_spokes.md R377 to R380; 11_tokenizer_and_grammar.md R335 to R339).
-/
namespace Sys2Proof.Machine

/-! ## Stage 14 (R448, R449) -/

/-- Bytes of a rank result (R473). -/
def rankBytes (ident : Nat) (score : FP32) : List Byte := beBytes 16 (packFields [(64, ident), (32, score.toNat), (32, 0)])

/-- The surviving candidates' positions, by descending score, ties to the higher rank of retrieval, NaN last. -/
def Req.scored (x : Req) : List (FP32 × Nat) :=
  sortBy (topkBefore false) (((x.cands.zip (List.range x.cands.length)).filter fun c => c.1.live).map fun c => (c.1.score.getD f32nan, c.2))

/-- Stage 15 begins: the question and the passages are tokenized for the generator, where stage 11 has not done it (R453). -/
def State.startPack (s : State) (r : Nat) : State :=
  let x := s.req r
  let reuse (c : Cand) : Bool := x.head.genV == x.head.rerV && c.toks.isSome && (!c.trunc || decide (x.tmplV.passMax ≤ (c.toks.getD []).length))
  let cs := x.cands.map fun c => if c.text == some [] then { c with gtoks := some [] } else if reuse c then { c with gtoks := c.toks } else c
  let s := s.setReq r { x with cands := cs, stage := 15 }
  let s := s.askTokens r 2 0
  applyAll (fun s i => if (cs.getD i {}).gtoks.isNone then s.askTokens r 4 i else s) s x.order

/-- Stage 14: the K best scores (RANK) or all of them (ANSWER). -/
def State.selectReq (s : State) (r : Nat) : State :=
  let x := s.req r
  let all := x.scored
  let k := if x.head.kind = 3 then x.head.rerankK else all.length
  let top := all.take k
  let x := { x with order := top.map Prod.snd, numfault := x.numfault || all.any fun (p : FP32 × Nat) => isNan32 p.1 }
  if x.head.kind = 3 then
    let s := s.setReq r { x with stage := 14, results := top.length }
    let bs := top.flatMap fun p => rankBytes (x.cands.getD p.2 {}).ident p.1
    (if bs.isEmpty then s else s.emit r 4 16 bs true).finishReq r
  else (s.setReq r { x with stage := 14 }).startPack r

/-- Whether a candidate's stages 10 to 12 are complete. -/
def Req.candReady (x : Req) (c : Cand) : Bool :=
  c.text.isSome && c.toks.isSome && x.rtoks.isSome && (!x.fset.on || (List.range x.fset.feats.length).all fun f => tHas c.feats f)

/-- What follows stages 10 to 13 when they have ended: at RETRIEVAL_ORDER the distances are the scores. -/
def State.tryRerank (s : State) (r : Nat) : State :=
  if !s.hasReq r || (s.req r).stage != 10 then s else
  let x := s.req r
  let live := x.cands.filter Cand.live
  if ladAction (x.entry 2) = 1 then
    if live.all fun c => c.score.isSome then s.selectReq r else s
  else if x.rtoks.isSome && live.all fun c => c.text.isSome && c.toks.isSome then
    let cs := x.cands.map fun c => { c with score := some (rne32 (ofDyadic (-(c.dist : Int)) 0)) }
    (s.setReq r { x with cands := cs }).selectReq r
  else s

/-- The result of a tokenization job: its tokens, newest first, the bytes left, and what its run used. -/
def State.trieRun (s : State) (j : TrieJob) (slot maxOut u : Nat) (v : Vocab) : List Nat × List Byte × TrieRun :=
  trieText v slot (s.vslot slot).gen maxOut ((s.jobText j).length + 1) (s.jobText j) [] { lines := (tGet {} s.tries u : Trie).lines }

/-- A job has run on unit u: the unit's crown and lines, its counts, the lines it read, and its tokens in buffers `bs` of its request
(R337, R338). -/
def State.trieEnds (s : State) (j : TrieJob) (slot u : Nat) (v : Vocab) (bs : List Nat) (run : List Nat × List Byte × TrieRun) : State :=
  let x := s.vslot slot
  let crown := (tGet {} s.tries u : Trie).crown == some (slot, x.gen)
  let text := s.jobText j
  let out := run.1.reverse
  let rest := run.2.1
  let y := run.2.2
  let s := if s.hasReq j.req then s.setReq j.req { s.req j.req with bufs := (s.req j.req).bufs ++ bs } else s
  let s := { s with trieQ := s.trieQ.erase j
                    tries := tSet {} s.tries u { crown := some (slot, x.gen), lines := y.lines } }
  let s := (s.addO Od.trieJobs 1).addO Od.trieBytes (text.length - rest.length)
  let s := (s.addO Od.trieLookups y.looks).addO Od.trieMisses (y.miss + b2n (!crown))
  let s := s.addO Od.trieFallbacks y.falls
  let obj := slotObj slot x.gen
  let s := if crown then s else
    (s.readSlot 3 obj v.trieOff (min (16 * v.nodes) 49152)).readSlot 3 obj (v.trieOff + 16 * v.nodes) 16384
  let s := applyAll (fun s o => s.readSlot 3 obj (v.trieOff + o) 64) s y.reads
  if s.hasReq j.req then
    ((s.putTokens j out (!rest.isEmpty)).passagesAfter j).tryRerank j.req
  else s

/-- TOKENIZE_JOB (R335 to R339, R479): the next job of a rim die starts on a unit that is not `busy` and its tokens are written into
buffers of its request; without a free buffer it waits. -/
def execTokenizeJob (die : Fin 2) (busy : List Nat) (s : State) : Res :=
  .next <| match s.nextJob die.val with
  | none => s
  | some j =>
    let (slot, maxOut) := s.jobBounds j
    match (s.vslot slot).cur, s.pickTrie die.val slot (s.vslot slot).gen busy with
    | some v, some u =>
      if !s.pdOn (if die.val = 0 then 84 else 91) then s else
      let run := s.trieRun j slot maxOut u v
      if !s.hasReq j.req then s.trieEnds j slot u v [] run
      else match takeBufs die.val (s.req j.req).tenant j.req (cdiv (4 * (run.1.length + 1)) 4096) s with
        | none => s
        | some (s, bs) => s.trieEnds j slot u v bs run
    | _, _ => s

/-! ## Stages 10 and 12 (R380, R439, R447) -/

/-- The spoke a candidate's text lies on. -/
def State.textSpoke (s : State) (c : Cand) : Nat := s.index.textChan (s.index.textAddr c.taddr / 1024)

/-- Candidate i of a request. -/
def State.setCand (s : State) (r i : Nat) (c : Cand) : State := s.setReq r { s.req r with cands := (s.req r).cands.set i c }

/-- The counts and the spoke event of a text read; a candidate without text reads nothing. -/
def State.textRead (s : State) (c : Cand) (ok : Bool) (core mb : Nat) : State :=
  if c.tlen = 0 then s else
  let sp := s.textSpoke c
  ((s.addO (Od.pagesRead sp) 1).addO (Od.framesDecompressed sp) (b2n ok)).spokeEvent core mb 2 sp 0 1 0

/-- A candidate whose text cannot be had leaves the re-ranking (R447). -/
def State.textDropped (s : State) (r i status core mb : Nat) : State :=
  let c := (s.req r).cands.getD i {}
  let sp := s.textSpoke c
  let s := (s.addO Od.textFaults 1).addO Od.candidatesDropped 1
  ((s.setCand r i { c with status := status, spoke := sp }).textRead c false core mb).tryRerank r

/-- A candidate has its text in buffers `bs`; without text it has no tokens either, else its tokens are asked for once the query's are
there (R380, R447). -/
def State.textTaken (s : State) (r i status : Nat) (text : List Byte) (bs : List Nat) (core mb : Nat) : State :=
  let c := (s.req r).cands.getD i {}
  let s := (s.setCand r i { c with text := some text, status := status, spoke := s.textSpoke c, bufs := bs
                                   toks := if status = 1 then some [] else none }).textRead c (status == 0) core mb
  let s := if status = 0 && (s.req r).rtoks.isSome then s.askTokens r 3 i else s
  s.tryRerank r

/-- TEXT_READ_DONE (R380, R447, R392): the read of candidate i's text ends; its bytes are in buffers of the rim die on its spoke's side. -/
def execTextReadDone (r i core mb : Nat) (s : State) : Res :=
  .next <|
    let x := s.req r
    let c := x.cands.getD i {}
    if !s.hasReq r || x.stage != 10 || x.cands.length ≤ i || !c.live || c.text.isSome then s else
    let sp := s.textSpoke c
    if c.tlen != 0 && !s.pdOn (pdSpoke sp) then s else
    let t := s.readText c.taddr c.tlen
    if 2 ≤ t.1 then s.textDropped r i t.1 core mb
    else match takeBufs (if sp < 16 then 0 else 1) x.tenant r (cdiv t.2.length 4096) s with
      | none => s
      | some (s, bs) => s.textTaken r i t.1 t.2 bs core mb

/-- BAG_POOL (R434, R438, R439): the bag of feature f for candidate c is pooled once its rows are there or missing, and written into its
block; a QUERY_BAG is pooled once for every candidate. -/
def execBagPool (r c f : Nat) (s : State) : Res :=
  .next <|
    let x := s.req r
    let cd := x.cands.getD c {}
    if !s.hasReq r || !x.stage12 || x.cands.length ≤ c || x.fset.feats.length ≤ f || !cd.live || tHas cd.feats f then s
    else s.poolFeature r c f

/-! ## Stage 15 (R450 to R455) -/

/-- OP and token of a template item (R451). -/
def itOp (i : Nat) : Nat := bits i 31 28
def itTok (i : Nat) : Nat := bits i 17 0

/-- The items before PASSAGES, the passage block, and the items after PASSAGE_END. -/
def TmplVal.parts (t : TmplVal) : List Nat × List Nat × List Nat :=
  let a := t.body.takeWhile fun i => itOp i != 2
  let r := (t.body.drop a.length).drop 1
  let b := r.takeWhile fun i => itOp i != 3
  (a, b, (r.drop b.length).drop 1)

def literals (is : List Nat) : Nat := (is.filter fun i => itOp i == 0).length

/-- The bytes of a number in decimal. -/
def decBytes (n : Nat) : List Byte := (Nat.toDigits 10 n).map fun c => BitVec.ofNat 8 c.toNat

/-- The tokens of a passage's packed number. -/
def State.ordinal (s : State) (x : Req) (n : Nat) : List Nat :=
  match (s.vslot x.head.genV).cur with
  | some v => v.tokens 16 (decBytes n)
  | none => []

/-- Whether a candidate is a duplicate of a packed one (R454). -/
def Req.duplicate (x : Req) (c : Cand) (packed : List (Nat × Nat)) : Bool :=
  packed.any fun p =>
    let d := x.cands.getD p.1 {}
    (bitAt x.tmplV.dedup 0 && d.owner == c.owner && d.ident == c.ident) || (bitAt x.tmplV.dedup 1 && d.gtoks == c.gtoks)

/-- The loop of R453: the packed candidates with their tokens taken, in stage-14 order, and the duplicates skipped. -/
def packLoop (x : Req) (wrapLits : Nat) (ord : Nat → Nat) : List Nat → Int → List (Nat × Nat) → Nat → List (Nat × Nat) × Nat
  | [], _, packed, skips => (packed, skips)
  | i :: r, left, packed, skips =>
    if x.tmplV.packMax ≤ packed.length ∨ left ≤ 0 then (packed, skips) else
    let c := x.cands.getD i {}
    if x.duplicate c packed then packLoop x wrapLits ord r left packed (skips + 1) else
    let wrap : Int := (wrapLits + ord (packed.length + 1) : Nat)
    let t := min (c.gtoks.getD []).length x.tmplV.passMax
    if wrap + t ≤ left then packLoop x wrapLits ord r (left - wrap - t) (packed ++ [(i, t)]) skips
    else if (x.tmplV.passMin : Int) ≤ left - wrap then packLoop x wrapLits ord r 0 (packed ++ [(i, (left - wrap).toNat)]) skips
    else (packed, skips)

/-- The prompt of a packed order (R451). -/
def emitPrompt (t : TmplVal) (q : List Nat) (ord : Nat → List Nat) (ps : List (List Nat)) : List Nat :=
  let (a, b, c) := t.parts
  let plain (i : Nat) : List Nat := if itOp i = 0 then [itTok i] else if itOp i = 1 then q else []
  let block (p : List Nat × Nat) : List Nat := b.flatMap fun i =>
    if itOp i = 0 then [itTok i] else if itOp i = 4 then p.1 else if itOp i = 5 then ord (p.2 + 1) else []
  a.flatMap plain ++ (ps.zip (List.range ps.length)).flatMap block ++ c.flatMap plain

/-- The sequence takes the models of the request's GENERATE level (R249, R291). -/
def Seq.atLevel (y : Seq) (x : Req) : Seq :=
  let e := x.entry 3
  let p := ladParam e
  { y with model := ladModel e, spec := ladAction e == 1 && bitAt p 15
           draft := if ladAction e == 3 then ladModel e else if ladAction e == 1 && bitAt p 15 then p % 64 else y.draft }

/-- A stage-15 request's prompt: the packed candidates in prompt order, the duplicates skipped, and the prompt's tokens (R451 to R454). (DEDUCED; log entry 75) -/
def State.packPrompt (s : State) (x : Req) (qt : List Nat) : List (Nat × Nat) × Nat × List Nat :=
  let t := x.tmplV
  let qs := qt.take t.qMax
  let (a, b, c) := t.parts
  let hasOrd := b.any fun i => itOp i == 5
  let ord (n : Nat) : List Nat := if hasOrd then s.ordinal x n else []
  let left : Int := (x.promptBudget : Int) - (literals (a ++ c) + qs.length : Nat)
  let (packed, skips) := packLoop x (literals b) (fun n => (ord n).length) x.order left [] 0
  let order := if t.order = 1 then packed.reverse else if t.order = 2 then sortBy (fun u v => decide (u.1 < v.1)) packed else packed
  (order, skips,
    (emitPrompt t qs ord (order.map fun p => ((x.cands.getD p.1 {}).gtoks.getD []).take p.2)).take x.promptBudget)

/-- A packed request begins stage 16: its packed identities are delivered and its sequence takes the prompt (R453 to R455). -/
def State.packDone (s : State) (r q : Nat) (p : List (Nat × Nat) × Nat × List Nat) : State :=
  let x := s.req r
  let s := s.addO Od.duplicatesSkipped p.2.1
  let s := match x.tmpl with
    | some k => s.addO (Od.packed k) 1
    | none => s
  let s := applyAll State.freeBuf s (x.cands.flatMap (·.bufs))
  let s := s.setReq r { s.req r with stage := 16, packed := p.1.map (·.1), cands := x.cands.map fun d => { d with bufs := [] } }
  let bs := p.1.flatMap fun p => beBytes 8 (x.cands.getD p.1 {}).ident
  let s := if bs.isEmpty then s else (s.emit r 2 8 bs false).endKind r 2
  s.setSeq q { ((s.seq q).atLevel x) with prompt := p.2.2, state := 1, depth := s.o Od.specDepthInit }

/-- PROMPT_PACK (R453 to R455): every tokenization of stage 15 is done; the prompt is fixed and stage 16 begins. -/
def execPromptPack (r : Nat) (s : State) : Res :=
  .next <|
    let x := s.req r
    if !s.hasReq r || x.stage != 15 then s else
    match x.gtoks, x.seqE with
    | some qt, some q =>
      if x.order.any fun i => (x.cands.getD i {}).gtoks.isNone then s else s.packDone r q (s.packPrompt x qt)
    | _, _ => s

end Sys2Proof.Machine
end

