-- ==== Sys2Proof/Machine/Dice.lean ====
section
/-!
DEFINITION. Dice jobs and mask engines (10_sampling_topk_random.md R310 to R321; 09_generation.md R286, R288;
11_tokenizer_and_grammar.md R349 to R355).
-/
namespace Sys2Proof.Machine

/-! ## Fields of a dice job (R311) -/

def djMode (w : Nat) : Nat := bits w 255 252
def djArray (w : Nat) : Nat := bits w 250 246
def djRes (w : Nat) : Nat := bits w 245 244
def djPos (w : Nat) : Nat := bits w 243 240 + 1
def djEpoch (w : Nat) : Nat := bits w 239 224
def djTopK (w : Nat) : Nat := if bits w 223 213 = 0 then 1024 else bits w 223 213
def djCount (w : Nat) : Nat := bits w 212 194
def djSeq (w : Nat) : Nat := bits w 193 182
def djGram (w : Nat) : Option Nat := if bitAt w 181 then some (bits w 180 175) else none
def djLast (w : Nat) : Bool := bitAt w 174
def djTemp (w : Nat) : FP32 := BitVec.ofNat 32 (bits w 159 128)
def djTopP (w : Nat) : FP32 := BitVec.ofNat 32 (bits w 127 96)
def djLogits (w : Nat) : Nat := 256 * bits w 95 64
def djResult (w : Nat) : Nat := 256 * bits w 63 32
/-- The pitch of logits and of scratch vectors. -/
def djPitch (w : Nat) : Nat := 256 * cdiv (4 * djCount w) 256

/-- The check of R311. -/
def djOk (u w : Nat) : Bool :=
  decide (1 ≤ djMode w ∧ djMode w ≤ 3) && djArray w / 4 == u && (djMode w == 3 || djPos w == 1) && decide (bits w 223 213 ≤ 1024) &&
  decide (1 ≤ djCount w ∧ djCount w ≤ 262144) && bits w 173 160 == 0 && bits w 31 0 == 0 &&
  positive32 (djTopP w) && !lt32 f32one (djTopP w)

/-! ## One position (R313, R314, R318) -/

/-- What a position's logits give before any draw: candidates with cumulative weights and the top-p cut; the token taken without a draw;
whether no token is allowed or none is finite; TAIL as FP16 bits; numeric faults; the scratch vector. -/
structure DicePos where
  cands : List Nat := []
  cum   : List FP32 := []
  jp    : Nat := 1
  fixed : Option Nat := none
  dead  : Bool := false
  nofin : Bool := false
  tail  : Nat := 0
  faults : Nat := 0
  scratch : List FP32 := []
  deriving DecidableEq, Repr

/-- Cumulative sums, one rounding each. -/
def cumul : FP32 → List FP32 → List FP32
  | _, [] => []
  | a, w :: r => let b := add32 a w; b :: cumul b r

/-- The smallest j (from 1) whose cumulative weight reaches a threshold. -/
def cutAt (thr : FP32) (cum : List FP32) : Nat := ((cum.findIdx? fun c => !lt32 c thr).getD (cum.length - 1)) + 1

/-- The online maximum and sum of R90 over values in ascending token order. -/
def onlineSum (xs : List FP32) : FP32 × FP32 :=
  xs.foldl (fun (m : FP32 × FP32) x =>
    let t := max32 m.1 x
    (t, add32 (mul32 m.2 (exp32 (sub32 m.1 t))) (exp32 (sub32 x t)))) (f32ninf, f32zero)

/-- A position's distribution. (DEDUCED; log entry 53) -/
def dicePos (temp topP : FP32) (topK : Nat) (allowed : Nat → Bool) (logits : List FP32) : DicePos :=
  let n := logits.length
  let t0 := (val32 temp).isZero
  let toks := List.range n
  let scr := (logits.zip toks).map fun z =>
    let y := if allowed z.2 then z.1 else f32ninf
    if t0 then y else div32 y temp
  let nans := ((scr.zip toks).filter fun z => allowed z.2 && isNan32 z.1).length
  let ranked := sortBy (topkBefore false) (scr.zip toks)
  let top := ranked.take (if t0 then 1 else min topK n)
  let c := top.map Prod.snd
  let first := ((top.map Prod.fst).headD f32nan)
  let base : DicePos := { cands := c, faults := nans, scratch := scr }
  let weighted (ws : List FP32) : DicePos :=
    let cum := cumul f32zero ws
    let s := cum.getLastD f32zero
    { base with cum := cum, jp := cutAt (mul32 topP s) cum }
  match val32 first with
  | .fin _ _ _ =>
    if t0 then { base with fixed := c.head? }
    else
      let p := weighted (top.map fun z => if (val32 z.1).isFin then exp32 (sub32 z.1 first) else f32zero)
      let z := (onlineSum (((scr.zip toks).filter fun z => allowed z.2 && (val32 z.1).isFin).map Prod.fst)).2
      let s := p.cum.getLastD f32zero
      let tail := if lt32 s z then (match convFloat fmtFP16 false none (val32 (div32 (sub32 z s) z)) with
        | .code k => k
        | .blockNan => 0) else 0
      { p with tail := tail }
  | .inf false =>
    if t0 then { base with fixed := c.head?, faults := nans + 1 }
    else { weighted (top.map fun z => if z.1 = f32inf then f32one else f32zero) with faults := nans + 1 }
  | _ =>
    match toks.find? allowed with
    | none => { base with dead := true }
    | some v => { base with fixed := some v, nofin := true, faults := nans + 1 }

/-- The drawn probability of a token (R313): 1 for a token taken without a draw. -/
def DicePos.prob (p : DicePos) (v : Nat) : FP32 :=
  if p.dead then f32zero else
  match p.fixed with
  | some t => if t = v then f32one else f32zero
  | none =>
    match p.cands.findIdx? fun c => c == v with
    | none => f32zero
    | some j =>
      if p.jp ≤ j then f32zero else
      let s (i : Nat) : FP32 := if i = 0 then f32zero else p.cum.getD (i - 1) f32zero
      div32 (sub32 (s (j + 1)) (s j)) (s p.jp)

/-- The candidates with their probabilities, as a proposal record holds them (R286, R313). -/
def DicePos.pairs (p : DicePos) : List (Nat × FP32) :=
  match p.fixed with
  | some t => [(t, f32one)]
  | none => (p.cands.take p.jp).map fun c => (c, p.prob c)

/-- The token of a 24-bit draw over cumulative weights, up to a cut. -/
def pickAt (cands : List Nat) (cum : List FP32) (jp u : Nat) : Nat :=
  let t := rne32 ((Val.fin false u (-24)).mul (val32 (cum.getD (jp - 1) f32zero)))
  let j := ((cum.take jp).findIdx? fun s => lt32 t s).getD (jp - 1)
  cands.getD j 0

/-- A draw from a position (R313, R314): no bits for a token taken without one; none where no token is allowed. -/
def State.drawPos (s : State) (u : Nat) (p : DicePos) : State × Option Nat :=
  if p.dead then (s, none) else
  match p.fixed with
  | some t => (s, some t)
  | none =>
    let d := s.draw24 u
    (d.1, some (pickAt p.cands p.cum p.jp d.2))

/-! ## Verification (R288) -/

/-- The draw of a rejected proposal: over max(0, p − q), or from p when that sum is 0. -/
def State.drawResidual (s : State) (u : Nat) (p : DicePos) (q : Proposal) : State × Option Nat :=
  let qv (v : Nat) : FP32 := ((q.cand.find? fun c => c.1 == v).map (·.2)).getD f32zero
  let rs := p.pairs.map fun c =>
    let d := sub32 c.2 (qv c.1)
    (c.1, if lt32 f32zero d then d else f32zero)
  let sum := (cumul f32zero (rs.map (·.2))).getLastD f32zero
  if lt32 f32zero sum then
    let cum := cumul f32zero (rs.map fun r => div32 r.2 sum)
    let d := s.draw24 u
    (d.1, some (pickAt (rs.map (·.1)) cum cum.length d.2))
  else s.drawPos u p

/-- The outcome of a verification: accepted proposals, the token drawn after them, the position at which it was drawn, a dead end. -/
structure DiceVerdict where
  n    : Nat := 0
  tok  : Option Nat := none
  at_  : Nat := 0
  dead : Bool := false
  deriving DecidableEq, Repr

/-- The loop of R288 from proposal i on. -/
def verifyFrom (u : Nat) (t0 : Bool) (endTok : Nat) (ps : List DicePos) : List Proposal → Nat → State → State × DiceVerdict
  | [], i, s =>
    let p := ps.getD i {}
    let d := (s.drawPos u p)
    (d.1.rngDone u 4, { n := i, tok := d.2, at_ := i, dead := d.2.isNone })
  | g :: rest, i, s =>
    let p := ps.getD i {}
    let stop (d : State × Option Nat) : State × DiceVerdict := (d.1.rngDone u 4, { n := i, tok := d.2, at_ := i, dead := d.2.isNone })
    let accept (s : State) : State × DiceVerdict :=
      if g.token = endTok then (s, { n := i + 1, at_ := i }) else verifyFrom u t0 endTok ps rest (i + 1) s
    if t0 then
      if p.fixed = some g.token then accept s else stop (s, p.fixed)
    else
      let d := s.draw24 u
      let left := rne32 (((Val.fin false d.2 (-24))).mul (val32 g.qtok))
      if lt32 left (p.prob g.token) then accept (d.1.rngDone u 4) else stop (d.1.drawResidual u p g)

/-! ## Mask frames (R349, R351) -/

/-- The grammar state and stack of a position of a job (R313, R349): for PROPOSE, that after the round's earlier proposals. -/
def Seq.gramAt (y : Seq) (mode p : Nat) : Nat × List Nat :=
  let after (q : Proposal) : Nat × List Nat := (q.state, q.stack)
  match mode with
  | 2 => (y.props.getLast?.map after).getD (y.gState, y.gStack)
  | 3 => if p = 0 then (y.gState, y.gStack) else (y.props[p - 1]?.map after).getD (y.gState, y.gStack)
  | _ => (y.gState, y.gStack)

/-- A mask job queued for a position of a sequence on a sampling array: it shares a frame with equal slot, state and entries. -/
def State.queueMask (s : State) (a gram gs : Nat) (stack : List Nat) (q p res ep : Nat) : State :=
  match (s.gslot gram).cur with
  | none => s
  | some g =>
    let m := g.matching gs stack
    let same (f : Mask) : Bool := 4 * f.dice + f.eng == a && f.gram == gram && f.gstate == gs && f.match_ == m && f.res == res && f.epoch == ep
    if s.masks.any same then
      ({ s with masks := s.masks.map fun f => if same f then { f with users := f.users ++ [(q, p)] } else f } : State).addO Od.masksShared 1
    else
      let f : Mask := { dice := a / 4, eng := a % 4, gram := gram, gstate := gs, match_ := m, users := [(q, p)], res := res, epoch := ep }
      { s with masks := s.masks ++ [f] }

/-- MASK_FRAME_COMPLETE (R349): the engine of array a completes the next of its first 32 frames. -/
def execMaskFrameComplete (a : Fin 32) (s : State) : Res :=
  .next <|
    let mine := (s.masks.filter fun f => 4 * f.dice + f.eng == a.val).take 32
    match mine.find? fun f => !f.full with
    | none => s
    | some f =>
      if !s.pdOn (pdSpine (a.val / 8)) then s else
      let s := { s with masks := s.masks.map fun m => if m == f then { m with full := true } else m }
      let s := s.addO Od.masksPrepared 1
      match (s.gslot f.gram).cur with
      | none => s
      | some g =>
        let obj := slotObj f.gram (s.gslot f.gram).gen
        let r := g.stRec f.gstate
        let ms := bits r 127 112 :: f.match_.map fun e => bits (g.reRec e) 109 94
        let s := applyAll (fun s m => s.readSlot 4 obj (g.maOff + g.maskBytes * m) g.maskBytes) s ms
        if bits r 106 103 = 0 then s else s.readSlot 4 obj (g.trOff + 32 * bits r 31 0) (32 * 2 ^ bits r 106 103)

/-- Whether the frame of a position is complete. -/
def State.maskReady (s : State) (a q p ep : Nat) : Bool :=
  s.masks.any fun f => 4 * f.dice + f.eng == a && f.full && f.epoch == ep && f.users.contains (q, p)

/-- A position's feed has completed: its frame is freed with its last position. -/
def State.maskUsed (s : State) (a q p ep : Nat) : State :=
  { s with masks := (s.masks.map fun f =>
      if 4 * f.dice + f.eng == a && f.epoch == ep then { f with users := f.users.erase (q, p) } else f).filter fun f => !f.users.isEmpty }

/-! ## Jobs (R310 to R313, R350) -/

/-- A token advances the automaton of a job (R350): its state and stack after it, or none. -/
def State.advanceTok (s : State) (w endTok : Nat) (st : Nat × List Nat) (t : Nat) : Option (Nat × List Nat) :=
  match djGram w with
  | none => some st
  | some g =>
    if t = endTok then some st else
    match (s.gslot g).cur with
    | none => none
    | some gr => gr.advance st.1 st.2 t

/-- The result word (R312). -/
def resultWord (w : Nat) (tok : Option Nat) (n : Nat) (dead : Bool) (p : DicePos) (faults : Nat) : Nat :=
  packFields [(18, tok.getD 0), (4, n), (1, b2n dead), (1, b2n p.nofin), (11, p.jp), (16, p.tail), (16, sat 16 faults), (16, djEpoch w),
    (1, b2n (tok.isNone && djMode w == 3)), (43, 0), (1, 0)]

/-- The bytes of a stored automaton stack (R345). -/
def stackBytes16 (k : List Nat) : List Byte := (List.range 64).flatMap fun i => leBytes 2 (k.getD i 0xFFFF)

/-- A proposal record (R286). -/
def Proposal.bytes (p : Proposal) : List Byte :=
  leBytes 16 (packFields [(18, p.token), (11, p.cand.length), (3, 0), (32, p.qtok.toNat), (16, p.state), (48, 0)]) ++
    stackBytes16 p.stack ++ p.cand.flatMap fun c => leBytes 4 c.1 ++ leBytes 4 c.2.toNat

/-- A proposal's record written into the sequence's proposal area, a key-value page taken with its first record (R286). -/
def State.putProposal (s : State) (a q : Nat) (g : Proposal) : State :=
  let y := s.seq q
  let put (s : State) (k : Nat) : State := s.putKv k (8448 * y.props.length) g.bytes
  match y.propPage with
  | some k => put s k
  | none => match s.kvAlloc (a / 8) y.tenant a with
    | some (s, k) => put (s.setSeq q { y with propPage := some k }) k
    | none => s

/-- A job performed: every position fed, then the draw or the verification; its result and what its step's commit brings. (DEDUCED; log entry 53) -/
def State.performDice (s : State) (a : Nat) (w : Nat) : State × Nat × Drawn :=
  let u := a / 4
  let r := s.res a (djRes w)
  let y := s.seq (djSeq w)
  let endTok := ((s.vslot y.vocab).cur.map (·.endTok)).getD (2 ^ 18)
  let gr := (djGram w).bind fun g => (s.gslot g).cur
  let posOf (p : Nat) : DicePos :=
    let st := y.gramAt (djMode w) p
    let mask : Option Nat := if (djGram w).isSome then some ((gr.map fun g => g.maskOf st.1 st.2).getD 0) else none
    dicePos (djTemp w) (djTopP w) (djTopK w) (fun v => match mask with
      | some m => bitAt m v
      | none => true) ((List.range (djCount w)).map fun v => s.resF32 a r (djLogits w + p * djPitch w + 4 * v))
  let ps := (List.range (djPos w)).map posOf
  let s := applyAll (fun s (p : DicePos × Nat) =>
    s.putRes a r (djResult w + 256 + p.2 * djPitch w) (p.1.scratch.flatMap fun z => leBytes 4 z.toNat)) s (ps.zip (List.range ps.length))
  let faults := (ps.map (·.faults)).sum
  let s := ((s.addO (Od.diceNumfaultCount 0 u) faults).addO (Od.dicePositions 0 u) ps.length).addO (Od.diceTailRows 0 u)
    (ps.filter fun p => decide (0x1400 < p.tail)).length
  let t0 := (val32 (djTemp w)).isZero
  let fin (s : State) (v : DiceVerdict) : State × Nat × Drawn :=
    let st := if djMode w = 3 then y.gramAt 3 v.n else y.gramAt (djMode w) 0
    let next := v.tok.bind fun t => s.advanceTok w endTok st t
    let bad := v.tok.isSome && next.isNone
    let s := if bad then (match djGram w with
      | some g => s.addO (Od.grammarAdvanceFaults g) 1
      | none => s) else s
    let tok := if bad then none else v.tok
    let dead := v.dead || bad
    let stn := next.getD st
    let p := ps.getD v.at_ {}
    let prop : Option Proposal := if djMode w = 2 then tok.map fun t =>
      { token := t, qtok := p.prob t, state := stn.1, stack := stn.2, cand := p.pairs } else none
    let s := match prop with
      | some g => s.putProposal a (djSeq w) g
      | none => s
    (s, resultWord w tok v.n dead p faults,
      { accepted := v.n, tok := tok, state := stn.1, stack := stn.2, dead := dead, numfault := faults != 0, prop := prop })
  if djMode w = 3 then
    let v := verifyFrom u t0 endTok ps (y.props.take (djPos w - 1)) 0 s
    fin v.1 v.2
  else
    let d := s.drawPos u (ps.getD 0 {})
    fin (d.1.rngDone u 4) { tok := d.2, dead := d.2.isNone }

/-- The queue of a served array. -/
def State.diceQ (s : State) (a : Nat) : List DiceJob := tGet [] (s.die_ (a / 4)).queues (a % 4)
def State.setDiceQ (s : State) (a : Nat) (q : List DiceJob) : State :=
  let x := s.die_ (a / 4)
  s.setDice (a / 4) { x with queues := tSet [] x.queues (a % 4) q }

/-- DICE_JOB (R310, R311, R313, R351): firmware writes jobs `ws` into the queue of sampling array a, which holds 64, and the first job not
yet performed is performed when the unit has a key and the frames of its positions are complete. -/
def execDiceJob (a : Fin 32) (ws : List Nat) (s : State) : Res :=
  .next <|
    let u := a.val / 4
    if !s.pdOn (pdSpine (a.val / 8)) then s else
    let q := s.diceQ a.val
    let q := q ++ (ws.take (64 - q.length)).map fun w => { word := w % 2 ^ 256 }
    let s := s.setDiceQ a.val q
    let i := (q.takeWhile fun j => j.result.isSome).length
    match q[i]? with
    | none => s
    | some j =>
      let w := j.word
      if !(s.die_ u).hasKey then s else
      if !djOk u w || djArray w != a.val then
        let s := s.putRes a.val (s.res a.val (djRes w)) (djResult w) (leBytes 16 (packFields [(67, 0), (16, djEpoch w), (44, 0), (1, 1)]))
        let s := s.setDiceQ a.val (q.take i ++ q.drop (i + 1))
        s.instrFault a.val (djRes w) (djEpoch w) 0xFF 0xFF
      else if (djGram w).isSome && !((List.range (djPos w)).all fun p => s.maskReady a.val (djSeq w) p (djEpoch w)) then
        if j.late then s
        else (s.setDiceQ a.val (q.set i { j with late := true })).addO Od.maskLate 1
      else
        let d := s.performDice a.val w
        let s := if (djGram w).isSome then applyAll (fun s p => s.maskUsed a.val (djSeq w) p (djEpoch w)) d.1 (List.range (djPos w)) else d.1
        s.setDiceQ a.val (q.set i { j with result := some d.2.1, drawn := some d.2.2 })

/-- DICE_JOB_COMPLETE (R310, R312): the first performed job of array a writes its result; the job marked LAST increments counter 15. -/
def execDiceJobComplete (a : Fin 32) (s : State) : Res :=
  .next <| match s.diceQ a.val with
  | [] => s
  | j :: rest =>
    match j.result with
    | none => s
    | some v =>
      let w := j.word
      let s := s.setDiceQ a.val rest
      let s := s.putRes a.val (s.res a.val (djRes w)) (djResult w) (leBytes 16 v)
      let s := s.setSeq (djSeq w) { s.seq (djSeq w) with drawn := j.drawn }
      if djLast w then
        { s with incrs := s.incrs ++ [{ target := a.val, res := djRes w, ctr := 15, value := 1, epoch := djEpoch w }] }
      else s

end Sys2Proof.Machine
end

