-- ==== Sys2Proof/Machine/Gen.lean ====
section
/-!
DEFINITION. Page writers, the ends of courses and the commits of steps, sequences, shared prefixes and streamed text
(07_models_stakes_steps.md R228 to R233; 09_generation.md R276 to R300).
-/
namespace Sys2Proof.Machine

/-! ## Page writers (R277 to R282) -/

/-- A number with the w bits from `lo` replaced. -/
def setField (v lo w x : Nat) : Nat := v - bits v (lo + w - 1) lo * 2 ^ lo + x % 2 ^ w * 2 ^ lo

/-- The static scale bytes of a page's value planes, written as it is allocated (R277, R278). -/
def State.kvScales (s : State) (k base lanes : Nat) (x : PlanX) : State :=
  if x.valFmt = 7 then s else
  let p := kvPlanes x
  applyAll (fun s l => s.putKv k (1024 + l * p.size + p.valS)
    ((List.range x.dim).flatMap fun d => List.replicate 8 (BitVec.ofNat 8 (x.vscales.getD ((base + l) * x.dim + d) 127)))) s
    (List.range lanes)

/-- One position of one lane: its key row and scales, its value elements, and its elements of the value vectors. -/
def State.kvPutRow (s : State) (k base lane m : Nat) (x : PlanX) (key scale : List Byte) (vals : Nat) : State :=
  let p := kvPlanes x
  let b := 1024 + lane * p.size
  let s := s.putKv k (b + m * rowBytes x.keyFmt x.dim) key
  let s := if x.keyFmt = 7 then s else s.putKv k (b + p.keyS + m * (x.dim / 32)) scale
  let w := fmtBits x.valFmt
  let code (d : Nat) : Nat := bits vals (w * d + w - 1) (w * d)
  let s := applyAll (fun (s : State) d =>
    let o := b + p.valE + d * (32 * w)
    s.putKv k o (leBytes (32 * w) (setField (leNat (s.kvBytes k o (32 * w))) (m * w) w (code d)))) s (List.range x.dim)
  let el (d : Nat) : Val := decScaled x.valFmt (code d) (x.vscales.getD ((base + lane) * x.dim + d) 127)
  let total (f : Val → Val) : FP32 := (List.range x.dim).foldl (fun acc d => rne32 ((val32 acc).add (f (el d)))) f32zero
  (s.putKv k (b + p.valV + 4 * m) (leBytes 4 (total id).toNat)).putKv k (b + p.valV + 1024 + 4 * m) (leBytes 4 (total Val.abs).toNat)

/-- The course record of a step's course. -/
def State.courseOf (s : State) (t : Step) : Option CourseRec := (s.model t.model).plan.bind fun p => p.course? t.fold t.course

/-- The page of a sequence for a side, block and lane group, allocated with the block's first row on the die of the array that reads the
group on the writing stake (R281). -/
def State.kvPageFor (s : State) (q side block g : Nat) (x : Stake) (px : PlanX) (a : Nat) : Option (State × Nat) :=
  let y := s.seq q
  let key := kvKeyOf side block g
  if tHas y.kv key then some (s, tGet 0 y.kv key) else
  let pb := x.place.getD (px.readers.getD g 0) 64
  let d := (if bitAt pb 6 then a else pb % 32) / 8
  match s.kvAlloc d y.tenant a with
  | none => none
  | some (s, k) =>
    let base := g * max 1 (min px.lanes 7)
    let s := s.setKvHeader k (kvHeaderOf x.model y.tenant q block base (kvLanesOf px g) 0)
    let s := s.kvScales k base (kvLanesOf px g) px
    some (s.setSeq q { s.seq q with kv := tIns key k (s.seq q).kv }, k)

/-- n positions of every lane of a group written into a key-value page: rows, the page's VALID and SR, and the key vectors (R279 to
R282). -/
def State.writeKvRows (s : State) (a : Nat) (w : Resident) (p : Nat) (px : PlanX) (g pos n keyA keyS valA : Nat) (sr : Bool) : State :=
  let base := g * max 1 (min px.lanes 7)
  let kb := rowBytes px.keyFmt px.dim
  let sb := px.dim / 32
  let vb := rowBytes px.valFmt px.dim
  let s := applyAll (fun (s : State) (e : Nat × Nat) =>
    let i := e.1 * n + e.2
    s.kvPutRow p base e.1 ((pos + e.2) % 256) px (s.resBytes a w (keyA + i * kb) kb) (s.resBytes a w (keyS + i * sb) sb)
      (leNat (s.resBytes a w (valA + i * vb) vb))) s
    ((List.range (kvLanesOf px g)).flatMap fun l => (List.range n).map fun j => (l, j))
  let h := s.kvHeader p
  let valid := max (kvValid h) ((pos + n - 1) % 256 + 1)
  let s := s.setKvHeader p (setField (setField h 71 9 valid) 70 1 (b2n (bitAt h 70 || sr)))
  applyAll (fun s l => s.kvKeyVectors p l px valid) s (List.range (kvLanesOf px g))

/-- PAGE_WRITE_COMPLETE (R178, R279 to R282): the page writer has copied n positions of lane group g of a row from home granules of
resident r of array a: position j of lane l lies at row l * n + j from the given addresses. (DEDUCED; log entry 39) -/
def execPageWriteComplete (a : Fin 32) (r : Fin 4) (q : Fin 4096) (draft : Bool) (g pos n keyA keyS valA : Nat) (sr : Bool)
    (s : State) : Res :=
  .next <|
    let w := s.res a.val r.val
    let x := s.stake w.stake
    match x.step with
    | none => s
    | some k =>
      let t := s.step_ k
      let y := s.seq q.val
      let px := s.planX t.model
      let row := t.rows.any fun z => z.req == y.req && z.draft == draft && decide (z.kind ≤ 2 ∧ z.start ≤ pos ∧ pos + n ≤ z.start + z.n)
      let kvw := (s.courseOf t).any (·.kvWrite)
      if !w.used || !tHas s.seqs q.val || !s.hasReq y.req || !row || !kvw || n = 0 || (pos + n - 1) / 256 != pos / 256 ||
        kvGroups px ≤ g then s else
      let block := pos / 256
      match s.kvPageFor q.val (b2n draft) block g x px a.val with
      | none => s
      | some (s, p) =>
        if bitAt (s.page (kvPageOf p)).pub (p % 8) then s else s.writeKvRows a.val w p px g pos n keyA keyS valA sr

/-! ## Sequences at rest (R275, R276, R285 to R287) -/

/-- Positions the sequence's model must hold before it generates: the prompt, and from the first token on all but the last token. -/
def Seq.target (y : Seq) : Nat := y.prompt.length + (y.out.length - 1)

/-- Whether the request's level is DRAFT_ALONE: the draft model generates without verification (R249, R291). -/
def Req.alone (x : Req) : Bool := ladAction (x.entry 3) == 3

/-- STATE of R275. -/
def Seq.infoState (y : Seq) : Nat :=
  if y.state = 0 then 0
  else if y.ended then 5
  else if y.out.isEmpty || decide (y.kvLen < y.target) then 1
  else if y.spec && y.drafting then (if y.props.length < y.round then 2 else 3)
  else 4

/-- The depth of the sequence's next round (R287). -/
def State.roundDepth (s : State) (y : Seq) : Nat :=
  min (min y.depth (s.o Od.specDepthMax)) (min (y.maxTok - y.out.length - 1) (s.topRows y.model - 1))

/-- A round begins when no step holds rows of the sequence and the draft has the committed length, or lacks one position after a round
that accepted every proposal; otherwise the draft catches up (R285 to R287). (UNVERIFIED; log entry 38) -/
def State.nextRound (s : State) (q : Nat) : State :=
  let y := s.seq q
  if !y.spec || y.ended || y.out.isEmpty || decide (y.kvLen < y.target) || !y.props.isEmpty ||
    s.steps.any fun e => e.2.rows.any fun z => z.req == y.req && decide (z.kind ≤ 2) then s else
  let on := y.drLen == y.kvLen || (y.drafting && y.drLen + 1 == y.kvLen)
  s.setSeq q { y with drafting := on, round := if on then s.roundDepth y else 0 }

/-! ## Shared prefixes (R292 to R295) -/

/-- The skein slot and version a request is bound to for a model. -/
def Req.skeinFor (x : Req) (m : Nat) : Option (Nat × Nat) := ((x.skeins.find? fun k => k.1 == m).map fun k => (k.2.1, k.2.2))

/-- The entry of a block's key. -/
def State.prefixAt (s : State) (tenant m : Nat) (sk : Option (Nat × Nat)) (parent : Option Nat) (toks : List Nat) : Option Nat :=
  (s.prefixes.find? fun e => e.2.tenant == tenant && e.2.model == m && e.2.skein == sk && e.2.parent == parent && e.2.tokens == toks).map
    (·.1)

/-- Entries of a model a sequence references, block 0 first. -/
def State.chainOf (s : State) (y : Seq) (m : Nat) : List Nat := y.prefixes.filter fun p => (tGet {} s.prefixes p : Prefix).model == m

/-- Block j of a side, full at this commit, is published when R294 allows. -/
def State.publishBlock (s : State) (q side stake j : Nat) : State :=
  let y := s.seq q
  let x := s.req y.req
  let m := if side = 0 then y.model else y.draft
  let chain := s.chainOf y m
  let toks := (y.prompt.drop (256 * j)).take 256
  let pages := (y.kv.filter fun e => e.1 / 1024 == kvKeyOf side j 0 / 1024).map (·.2)
  let parent := chain.getLast?
  if !x.head.publish || y.prompt.length < 256 * (j + 1) || chain.length != j || pages.any (fun k => bitAt (s.kvHeader k) 70) ||
    (s.prefixAt y.tenant m (x.skeinFor m) parent toks).isSome || decide (s.o Od.prefixEntriesMax ≤ s.prefixes.length) then s else
  let sl := (s.stake stake).arrays.foldl min 31
  let s := applyAll (fun (s : State) k =>
    let z := s.page (kvPageOf k)
    let s := s.setPage (kvPageOf k) { z with pub := setBitTo z.pub (k % 8) true, target := sl }
    s.setKvHeader k (setField (s.kvHeader k) 69 1 1)) s pages
  let e : Prefix := { tenant := y.tenant, model := m, skein := x.skeinFor m, parent := parent, tokens := toks, refs := 1, pages := pages
                      born := s.beat }
  let p := s.nextPrefix
  let s := { s with prefixes := tIns p e s.prefixes, nextPrefix := p + 1 }
  let s := (s.addO Od.prefixEntriesUsed 1).addO Od.prefixPublished 1
  let s := s.subO (Od.kvReserved y.tenant) pages.length
  let s := s.setReq y.req { s.req y.req with kvResv := (s.req y.req).kvResv - pages.length }
  s.setSeq q { s.seq q with prefixes := (s.seq q).prefixes ++ [p] }

/-- The blocks that a commit from length `old` to length `new` makes full. -/
def State.publish (s : State) (q side stake old new : Nat) : State :=
  applyAll (fun s j => s.publishBlock q side stake j) s ((List.range (new / 256 - old / 256)).map fun i => old / 256 + i)

/-- An entry without references is released, and its pages become free (R295). -/
def State.releasePrefix (s : State) (p : Nat) : State :=
  let e : Prefix := tGet {} s.prefixes p
  let s := { s with prefixes := tDel p s.prefixes }
  let s := (s.subO Od.prefixEntriesUsed 1).addO Od.prefixReleased 1
  applyAll State.kvFree s e.pages

/-- PREFIX_RELEASE (R181, R295): at a beat boundary an entry without references is released when every page of its block has HEAT 0. -/
def execPrefixRelease (p : Nat) (s : State) : Res :=
  let e : Prefix := tGet {} s.prefixes p
  .next (guardS (tHas s.prefixes p && e.refs == 0 && e.pages.all fun k => (s.page (kvPageOf k)).heat == 0) s fun s => s.releasePrefix p)

/-! ## Commits of rows (R229, R289, R290) -/

/-- What a step drew for a sequence is committed; `len` is the committed length of the model that drew (R289, R290, R299). -/
def State.commitDraw (s : State) (q len : Nat) (alone verify : Bool) : State :=
  let y := s.seq q
  match y.drawn with
  | none => s
  | some d =>
    let toks := (y.props.take d.accepted).map (·.token) ++ d.tok.toList
    let out := y.out ++ toks
    let endTok := ((s.vslot y.vocab).cur.map (·.endTok)).getD (2 ^ 18)
    let ended := d.dead || toks.contains endTok || decide (y.maxTok ≤ out.length)
    let s := if verify then (s.addO Od.proposed y.props.length).addO Od.accepted d.accepted else s
    let s := s.setSeq q { y with
      kvLen := len, drLen := if alone then len else min y.drLen len, out := out, pend := toks.getLastD y.pend, gState := d.state
      gStack := d.stack, props := [], depth := if verify then min 15 (d.accepted + 1) else y.depth, last := s.beat
      commits := y.commits ++ [(s.beat, s.o Od.ingressSequence, out.length)], drawn := none, dead := d.dead, ended := ended }
    let x := s.req y.req
    let s := s.setReq y.req { x with
      firstBeat := x.firstBeat.or (if toks.isEmpty then none else some s.beat), hist := (toks.length :: x.hist).take 16
      numfault := x.numfault || d.numfault, final := if ended then some (s.beat, s.o Od.ingressSequence) else x.final
      stage := if ended then 17 else x.stage }
    (s.truncate q 0).truncate q 1

/-- A proposal's record and key-value rows become final for the draft; drafting ends with the end token or where the grammar allows no
token (R286, R287). -/
def State.commitProposal (s : State) (q len : Nat) : State :=
  let y := s.seq q
  match y.drawn with
  | none => s
  | some d =>
    let endTok := ((s.vslot y.vocab).cur.map (·.endTok)).getD (2 ^ 18)
    let props := y.props ++ d.prop.toList
    let stop := d.prop.isNone || d.tok == some endTok
    let x := s.req y.req
    let s := s.setReq y.req { x with numfault := x.numfault || d.numfault }
    (s.setSeq q { y with drLen := len, props := props, drawn := none, round := if stop then props.length else y.round }).truncate q 1

/-- Whether a row draws: verification and decode rows, draft rows of a round, and the chunk that ends the prompt. -/
def State.rowDraws (s : State) (z : Row) : Bool :=
  match (s.req z.req).seqE with
  | none => false
  | some q =>
    let y := s.seq q
    let alone := (s.req z.req).alone
    if z.draft && !alone then y.drafting
    else z.kind != 2 || (y.out.isEmpty && z.start + z.n == y.prompt.length)

/-- A key-value row commits. -/
def State.commitKv (s : State) (stake : Nat) (z : Row) : State :=
  match (s.req z.req).seqE with
  | none => s
  | some q =>
    let y := s.seq q
    let alone := (s.req z.req).alone
    let side := b2n z.draft
    let old := if z.draft then y.drLen else y.kvLen
    let acc := if z.kind = 1 then (y.drawn.map (·.accepted)).getD 0 else 0
    let len := if z.kind = 1 then z.start + acc + 1 else z.start + z.n
    let s :=
      if z.draft && !alone then
        if y.drafting then s.commitProposal q len
        else (s.setSeq q { y with drLen := len }).truncate q 1
      else if s.rowDraws z then s.commitDraw q len alone (z.kind == 1)
      else if alone then ((s.setSeq q { y with drLen := len, kvLen := max y.kvLen len }).truncate q 1)
      else (s.setSeq q { y with kvLen := len }).truncate q 0
    let s := s.publish q side stake old len
    if z.draft && y.drafting then s else s.nextRound q

/-- An ENCODE row commits: the encoder's output, the centroid scorer's lists, or a cross-encoder's score (R374, R399, R401, R448). -/
def State.commitEncode (s : State) (z : Row) (o : StepOut) : State :=
  let r := z.req
  let x := s.req r
  let x := { x with numfault := x.numfault || o.numfault }
  let s := s.setReq r x
  match z.stage with
  | 4 =>
    if x.head.kind = 5 then s.setItem r z.item fun y => { y with code := some o.code }
    else if x.head.kind = 1 then
      let s := s.setReq r { x with results := 1, embed := o.embed, code := some o.code }
      let s := s.emit r 5 4 o.embed (!x.head.wantCode)
      let s := if x.head.wantCode then s.emit r 6 1 (leBytes (((s.model ((x.modelOf 0).getD 64)).plan.map (·.bin)).getD 0 / 8) o.code) true
        else s
      s.finishReq r
    else s.setReq r { x with embed := o.embed, code := some o.code, stage := 6 }
  | 6 =>
    if x.head.kind = 5 then
      ((s.setItem r z.item fun y => { y with list := o.lists.head? }).tryStage r z.item).pumpOutcomes r
    else (s.setReq r { x with lists := o.lists.take x.nprobeNow }).joinQuery r
  | _ =>
    let c := x.cands.getD z.item {}
    (s.setReq r { x with cands := x.cands.set z.item { c with score := some o.score } }).tryRerank r

/-- A row commits, unless its request is gone (R229, R267). -/
def State.commitRow (s : State) (stake : Nat) (p : Row × StepOut) : State :=
  if !s.hasReq p.1.req then s
  else if p.1.kind = 3 then s.commitEncode p.1 p.2
  else s.commitKv stake p.1

/-! ## The ends of courses (R228 to R230) -/

/-- Whether a local array has nothing left of a resident's epoch. -/
def Arr.quiet (x : Arr) (r ep : Nat) : Bool :=
  !(x.bundles.any fun b => hRes b.header == r && hEpoch b.header == ep) && !(x.loadQ.any fun q => q.mine r ep) &&
    !(x.compQ.any fun q => q.mine r ep) && !(x.issued.any fun i => i.q.mine r ep)

/-- Whether the local arrays of a step's stake have completed what was issued to them, and every export has been delivered. -/
def State.courseQuiet (s : State) (t : Step) : Bool :=
  let x := s.stake t.stake
  x.arrays.all fun a => match s.residentOf t.stake a with
    | some r => (s.arr a).quiet r (x.epoch % 65536) &&
        !(s.incrs.any fun i => i.target == a && i.res == r && i.epoch == x.epoch % 65536) && (s.diceQ a).all fun j => djRes j.word != r
    | none => true

/-- Whether every key-value row of a step has been copied into its pages (R282). -/
def State.rowCopied (s : State) (m : Nat) (z : Row) : Bool :=
  match (s.req z.req).seqE with
  | none => true
  | some q =>
    let y := s.seq q
    let last := z.start + z.n - 1
    (List.range (last / 256 + 1 - z.start / 256)).all fun i =>
      let j := z.start / 256 + i
      (List.range (kvGroups (s.planX m))).all fun g =>
        let key := kvKeyOf (b2n z.draft) j g
        tHas y.kv key && decide (min (last + 1 - 256 * j) 256 ≤ kvValid (s.kvHeader (tGet 0 y.kv key)))

/-- Whether everything a step's last course produces is there. (DEDUCED; log entry 39) -/
def State.stepReady (s : State) (t : Step) : Bool :=
  t.rows.all fun z => !s.hasReq z.req || z.kind == 3 || (s.rowCopied t.model z && (!s.rowDraws z || match (s.req z.req).seqE with
    | some q => (s.seq q).drawn.isSome
    | none => true))

/-- The commit point of a step. -/
def State.commitStep (s : State) (k : Nat) (outs : List StepOut) : State :=
  let t := s.step_ k
  let s := (s.dropStep k).addO (Od.stepsCommitted t.model) 1
  let m := s.model t.model
  let s := s.setModel t.model { m with word := none }
  let s := applyAll (fun s p => s.commitRow t.stake p) s (t.rows.zip (outs ++ List.replicate t.rows.length { embed := [] }))
  s.tidySteps

/-- COURSE_END (R228 to R230, R271): the arrays of step k's stake have completed its course in `cycles` cycles on the slowest one. (DESIGN CHOICE; log entry 12) -/
def execCourseEnd (k cycles : Nat) (outs : List StepOut) (s : State) : Res :=
  .next <|
    let t := s.step_ k
    let x := s.stake t.stake
    if !s.hasStep k || t.state != spRUNNING || x.step != some k || !s.courseQuiet t then s else
    let last := (s.courseOf t).any (·.last)
    if !x.lead then
      let s := s.sendFlit x.leadLink 4 t.stake x.epoch
      if last then s.dropStep k else s.setStep k { t with course := t.course + 1 }
    else if !(x.links.all fun l => t.done.contains l) then s
    else if last && !s.stepReady t then s else
    let s := s.chargeCourse t cycles
    let t := { t with done := [] }
    if t.rows.all fun z => !s.hasReq z.req then
      let s := ((s.abandonOn t.stake).addO (Od.coursesAbandoned t.model) 1).bumpEpoch t.stake
      s.dropStep k
    else if last then s.commitStep k outs
    else if t.suspend then
      let s := s.addO (Od.stepsSuspended t.model) 1
      let s := (s.setStake t.stake { x with susp := some k }).nextOn t.stake
      s.setStep k { t with course := t.course + 1, state := spSUSPENDED, suspend := false }
    else s.setStep k { t with course := t.course + 1 }

/-- REMOTE_WAIT_LIMIT (R233, R600): the remote wait of step k's course has lasted `ns` beyond its projected start, holds left out. -/
def execRemoteWaitLimit (k ns : Nat) (s : State) : Res :=
  .next <|
    let t := s.step_ k
    match s.courseOf t with
    | none => s
    | some c =>
      guardS (s.hasStep k && t.state == spRUNNING && c.remote && decide (c.remoteNs + s.o Od.remoteGraceNs < ns)) s fun s =>
        (s.abandonStep k true).tidySteps

/-! ## Streamed text (R298, R299) -/

/-- Whether the rim cores have processed every message whose stamp is at most a commit's. -/
def State.seenUpTo (s : State) (seq : Nat) : Bool := s.pcie.fns.all fun f => f.2.cmds.all fun c => c.typ != 2 || decide (seq < c.seq)

/-- DETOKENIZE_STREAM (R298, R299, R340): the first commit of sequence q not yet streamed; after the last one the request completes, and a dead
end counts at its grammar slot (R355). -/
def execDetokenizeStream (q : Fin 4096) (s : State) : Res :=
  .next <|
    let y := s.seq q.val
    match y.commits with
    | [] => s
    | (_, seq, _) :: rest =>
      if !s.hasReq y.req || !s.seenUpTo seq then s
      else if rest.isEmpty && y.ended then
        let s := s.streamAll q.val
        let s := if y.dead && y.gEn then s.addO (Od.grammarDeadEnds y.gSlot) 1 else s
        if y.dead then (s.complete y.req 0x0C 0 0 true).tidySteps else (s.finishReq y.req).tidySteps
      else s.streamCommit q.val

end Sys2Proof.Machine
end

