-- ==== Sys2Proof/Machine/Body.lean ====
section
/-!
DEFINITION. Request bodies and check 1 of the gate (15_request_port_and_buffers.md R467 to R469; 09_generation.md R274;
10_sampling_topk_random.md R315; 13_search_insert_merge.md R398).
-/
namespace Sys2Proof.Machine

/-- Whether a tenant has an enabled virtual function (R488). -/
def State.vfOn (s : State) (t : Nat) : Bool := t == 0 || (s.pcie.vfEnable && decide (t ≤ s.pcie.numVfs))

/-- The head of a body as a number, bit 1023 first (R467). -/
def headWord (bs : List Byte) : Nat := beNat (bs.take 128 ++ List.replicate (128 - bs.length) 0)

/-- A section of a body: offset and length. -/
def hSec (w hi : Nat) : Nat × Nat := (bits w hi (hi - 31), bits w (hi - 32) (hi - 63))
def hQuestion (w : Nat) : Nat × Nat := hSec w 623
def hFilter (w : Nat) : Nat × Nat := hSec w 559
def hBags (w : Nat) : Nat × Nat := hSec w 495
def hItems (w : Nat) : Nat × Nat := hSec w 431

/-- Pair counts of the bags (R468). -/
def bagCounts (bs : List Byte) (o : Nat) : List Nat := (List.range 4).map fun i => beAt bs (o + 2 * i) 2

/-- The pairs of the bags: row and FP16 weight. -/
def bagsOf (bs : List Byte) (o : Nat) : List (List (Nat × Nat)) :=
  let cs := bagCounts bs o
  (List.range 4).map fun b =>
    let skip := (cs.take b).sum
    (List.range (cs.getD b 0)).map fun i =>
      let a := o + 16 + 8 * (skip + i)
      (beAt bs a 4, beAt bs (a + 4) 2)

/-- The items of an INDEX request from an offset, and the offset after them. -/
def indexItems (bs : List Byte) : Nat → Nat → List Item × Nat
  | 0, o => ([], o)
  | n + 1, o =>
    let len := beAt bs (o + 24) 2
    let r := indexItems bs n (o + 32 + 8 * cdiv len 8)
    ({ ident := beAt bs o 8, attr := leAt bs (o + 8) 16, text := sliceB bs (o + 32) len } :: r.1, r.2)

/-- Whether the heads and paddings of INDEX items are as R468 gives. -/
def indexItemsOk (bs : List Byte) : Nat → Nat → Nat → Bool
  | 0, o, stop => o == stop
  | n + 1, o, stop =>
    let len := beAt bs (o + 24) 2
    decide (o + 32 ≤ stop ∧ len ≤ 16384) && beAt bs (o + 26) 6 == 0 && beAt bs (o + 32 + len) (8 * cdiv len 8 - len) == 0 &&
      indexItemsOk bs n (o + 32 + 8 * cdiv len 8) stop

/-- The head and the sections of a body. -/
def parseHead (bs : List Byte) : Head × List Item :=
  let w := headWord bs
  let kind := bits w 1023 1016
  let q := hQuestion w
  let f := hFilter w
  let b := hBags w
  let n := bits w 367 352
  let h : Head := {
    kind := kind, cls := bits w 1015 1010, ret := bits w 1009 1008, publish := bitAt w 1007, wantCode := bitAt w 1006
    gramEn := bitAt w 1005, skEn := bitAt w 1004, skId := bits w 999 984, encV := bits w 983 980, rerV := bits w 979 976
    genV := bits w 975 972, gram := bits w 971 966, tmpl := bits w 965 961, k := bits w 959 944, nprobe := bits w 943 928
    rerankK := bits w 927 912, topK := bits w 911 896, temp := BitVec.ofNat 32 (bits w 895 864)
    topP := BitVec.ofNat 32 (bits w 863 832), maxTok := bits w 831 800, budget := bits w 799 768, retUdp := bits w 767 752
    retAddr := bits w 751 624, question := sliceB bs q.1 (min q.2 bs.length), filter := sliceB bs f.1 (min f.2 bs.length)
    bags := if b.2 = 0 then [] else bagsOf bs b.1, itemCount := n }
  let it := hItems w
  (h, if kind = 5 then (indexItems bs (min n 4096) it.1).1
      else if kind = 6 then (List.range (min n 4096)).map fun i => { ident := beAt bs (it.1 + 8 * i) 8 }
      else [])

/-- A section starts at a multiple of 8 at or after byte 128 and lies inside the body. -/
def secOk (len : Nat) (p : Nat × Nat) : Bool := p.2 == 0 || (p.1 % 8 == 0 && decide (128 ≤ p.1 ∧ p.1 + p.2 ≤ len))
def secsApart (a b : Nat × Nat) : Bool := a.2 == 0 || b.2 == 0 || decide (a.1 + a.2 ≤ b.1 ∨ b.1 + b.2 ≤ a.1)

/-- A filter of R375. -/
def filterOk (f : List Byte) : Bool :=
  let h := leAt f 0 8
  let n := bits h 63 60
  decide (n ≤ 8) && bits h 59 0 == 0 && f.length == 8 + 36 * n && (List.range n).all fun i => bits (leAt f (8 + 36 * i) 36) 28 0 == 0

def bagsOk (bs : List Byte) (p : Nat × Nat) : Bool :=
  let cs := bagCounts bs p.1
  decide (16 ≤ p.2) && cs.all (fun c => decide (c ≤ 256)) && p.2 == 16 + 8 * cs.sum && beAt bs (p.1 + 8) 8 == 0 &&
    (List.range cs.sum).all fun i => beAt bs (p.1 + 16 + 8 * i + 6) 2 == 0

/-- TEMPERATURE, TOP_K and TOP_P (R315). -/
def samplingOk (temp topP : FP32) (topK : Nat) : Bool :=
  let t := temp.toNat
  if t = 0 ∨ t = 0x80000000 then true
  else decide (0x3C23D70A ≤ t ∧ t ≤ 0x41800000) && decide (topK ≤ 1024) && positive32 topP && !lt32 f32one topP

/-- The fields a kind does not use are 0 (R467). -/
def unusedZero (w kind : Nat) : Bool :=
  let z (uses : Bool) (hi lo : Nat) : Bool := uses || bits w hi lo == 0
  let ans := kind == 4
  let srch := decide (2 ≤ kind ∧ kind ≤ 4)
  z ans 1007 1007 && z (kind == 1) 1006 1006 && z ans 1005 1005 && z (kind != 6) 1004 1004 && bits w 1003 1000 == 0 &&
    z (kind != 6) 999 984 && z (kind != 6) 983 980 && z (kind == 3 || ans) 979 976 && z ans 975 972 && z ans 971 966 &&
    z ans 965 961 && bits w 960 960 == 0 && z srch 959 928 && z (kind == 3) 927 912 && z ans 911 768 && z (decide (kind ≤ 4)) 623 560 &&
    z srch 559 496 && z (kind == 3 || ans) 495 432 && z (decide (5 ≤ kind)) 431 352 && bits w 351 0 == 0

/-- Check 1 of R254 (R469). (DEDUCED; log entry 50) -/
def State.bodyOk (s : State) (tenant : Nat) (bs : List Byte) : Bool :=
  let w := headWord bs
  let h := (parseHead bs).1
  let k := h.kind
  let secs := [hQuestion w, hFilter w, hBags w, hItems w]
  let b := s.o (Od.budget h.tmpl)
  let p := if h.budget ≠ 0 ∧ h.budget < b then h.budget else b
  decide (128 ≤ bs.length ∧ bs.length ≤ 4194304) && decide (1 ≤ k ∧ k ≤ 6) && unusedZero w k && !(h.skEn && h.skId == 0xFFFF) &&
    secs.all (secOk bs.length) && (List.range 4).all (fun i => (List.range i).all fun j => secsApart (secs.getD i (0, 0)) (secs.getD j (0, 0))) &&
    (if k ≤ 4 then decide (1 ≤ (hQuestion w).2 ∧ (hQuestion w).2 ≤ 16384) else true) &&
    (if 2 ≤ k ∧ k ≤ 4 then decide (1 ≤ h.k ∧ h.k ≤ 1024 ∧ 1 ≤ h.nprobe ∧ h.nprobe ≤ 1024) else true) &&
    (if k = 3 then decide (1 ≤ h.rerankK ∧ h.rerankK ≤ h.k) else true) &&
    ((hFilter w).2 == 0 || filterOk h.filter) && ((hBags w).2 == 0 || bagsOk bs (hBags w)) &&
    (if k = 4 then decide (1 ≤ h.maxTok ∧ p + h.maxTok ≤ 131072) && samplingOk h.temp h.topP h.topK else true) &&
    (if k = 5 then decide (1 ≤ h.itemCount ∧ h.itemCount ≤ 4096) &&
        indexItemsOk bs h.itemCount (hItems w).1 ((hItems w).1 + (hItems w).2) else true) &&
    (if k = 6 then decide (1 ≤ h.itemCount ∧ h.itemCount ≤ 4096) && (hItems w).2 == 8 * h.itemCount else true) &&
    !(h.ret == 3 && !s.vfOn tenant)

end Sys2Proof.Machine
end

