-- ==== Sys2Proof/Machine/Project.lean ====
section
/-!
DEFINITION. Rows that await a step, the cost of a step, and the projection of a request (07_models_stakes_steps.md R210 to R212, R226,
R227; 08_admission_and_deadlines.md R262; 09_generation.md R285 to R287, R300).
-/
namespace Sys2Proof.Machine

/-! ## The cost of a step (R212, R194, R508) -/

/-- A beat in ps. -/
def State.beatPs (s : State) : Nat := s.periodUs * 1000000

/-- The lowest current array clock of a model's stakes, in MHz; 0 when it has none. -/
def State.modelClk (s : State) (m : Nat) : Nat :=
  let ds := ((s.stakesOf m).flatMap fun n => (s.stake n).arrays.map (· / 8)).eraseDups
  match ds.map fun d => s.o (Od.aclkMhz d) with
  | [] => 0
  | c :: r => r.foldl min c

/-- The least width of the peer links a model's stakes use; 8 without any. -/
def State.modelLanes (s : State) (m : Nat) : Nat :=
  max 1 (((s.stakesOf m).flatMap fun n => (s.stake n).links.map fun l => s.o (Od.peerLanes l)).foldl min 8)

/-- The sum of s_r - 1 over the skein-carrying positions of a row set (R95, R212). -/
def pacedOf (rows : List Row) : Nat := (rows.map fun z => z.n * (max 1 (cdiv z.skEnt 1024) - 1)).sum

/-- The projected time of a step of a row set in ps, over all courses of its fold shape; none without a cost record. -/
def State.stepPs (s : State) (m : Nat) (rows : List Row) : Option Nat :=
  match (s.model m).plan with
  | none => none
  | some p =>
    let n := (rows.map (·.n)).sum
    let clk := s.modelClk m
    let cs := (List.range p.courses).map fun c => p.course? (p.foldFor n) c
    if clk = 0 || cs.any (·.isNone) then none else
    some ((cs.filterMap id).map fun c =>
      cdiv (c.cycles n (if c.pace = 1 then 0 else pacedOf rows) * 1000000) clk + c.remoteNs * 8000 / s.modelLanes m).sum

/-- The stakes of a model that are neither DEGRADED nor STOPPED. -/
def State.goodStakes (s : State) (m : Nat) : List Nat :=
  (s.stakesOf m).filter fun n => (s.stake n).used && (s.stake n).state != skDEGRADED && (s.stake n).state != skSTOPPED

/-- The bounds of R194 for the courses of a fold shape whose first tile has bytes outside its slice, on the model's lowest usable
stake (R262). -/
def State.missPs (s : State) (m n : Nat) : Nat :=
  match (s.model m).plan, s.goodStakes m with
  | some p, k :: _ =>
    let x := s.stake k
    let f := p.foldFor n
    ((List.range p.courses).map fun c =>
      ((p.first.filter fun e => e.1 == f && e.2.1 == c).map fun e =>
        let b := x.place.getD e.2.2.1 64
        if bitAt b 6 then 0 else
        match s.residentOf k (b % 32) with
        | none => 0
        | some r =>
          let miss := s.missBytes (b % 32) (s.res (b % 32) r) { word := 2 ^ 120, descs := [e.2.2.2] }
          if miss = 0 then 0 else fetchPs (s.model m).shares x.plan miss).foldl max 0).sum
  | _, _ => 0

/-- per of R262: beats of one step that holds these rows alone. -/
def State.stepBeats (s : State) (m : Nat) (rows : List Row) : Option Nat :=
  (s.stepPs m rows).map fun c => max 1 (cdiv (c + s.missPs m (rows.map (·.n)).sum) (max 1 s.beatPs))

/-- Whether a row set fits a budget in beats and the positions of the model's largest fold shape. -/
def State.rowsFit (s : State) (m budget : Nat) (rows : List Row) : Bool :=
  decide ((rows.map (·.n)).sum ≤ s.topRows m) && match s.stepPs m rows with
    | some c => decide (c ≤ budget * s.beatPs)
    | none => false

/-- Candidate chunks of a prompt with `left` positions, descending (R227). -/
def chunks (m left : Nat) : List Nat :=
  let cap := min 512 m
  (if left ≤ cap then [left] else []) ++
    (((List.range 33).map fun i => 16 * (32 - i)).filter fun c => decide (16 ≤ c ∧ c ≤ cap ∧ c ≤ left)) ++
    (if cap < 16 ∧ cap < left then [cap] else [])

/-! ## Rows that await a step (R226, R227, R285 to R287) -/

/-- The entries of the skein a request is bound to for a model, in its largest tile. -/
def State.skEntOf (s : State) (x : Req) (m : Nat) : Nat := match x.skeinFor m with
  | some k => s.o (Od.skeinMaxTileEntries k.1)
  | none => 0

/-- A row of a request on a model. -/
def State.mkRow (s : State) (r : Nat) (x : Req) (m : Nat) (z : Row) : Nat × Row :=
  (m, { z with req := r, rank := x.cls.rank, bulk := x.cls.bulk, skEnt := s.skEntOf x m })

/-- Bytes of stream output a request may still take: its current buffer, and the buffers and slots it may take (R300, R480). -/
def State.outRoom (s : State) (x : Req) : Nat :=
  if !x.waitOut.isEmpty then 0 else
  let cur := match (tGet none x.current 1 : Option Nat) with
    | some b => 4096 - (s.buf b).used
    | none => 0
  let n := min (s.o (Od.bufQuota x.tenant) - s.o (Od.bufUsed x.tenant)) (s.o Od.buffersFree - s.o Od.bufReserve)
  let n := if x.path.port = 2 then min n (2 ^ (s.fn x.tenant).outLog - (s.fn x.tenant).slots.length) else n
  cur + 4096 * n

/-- The longest entry of a slot's inverse table. -/
def State.maxEntry (s : State) (v : Nat) : Nat := ((s.vslot v).cur.map (·.maxB)).getD 64

/-- Whether a sequence's rows are held for lack of output space: room for d + 1 longest tokens (R300). (DEDUCED; log entry 37) -/
def State.outStalled (s : State) (x : Req) (y : Seq) : Bool :=
  decide (s.outRoom x < ((if y.drafting then y.round else 0) + 1) * s.maxEntry y.vocab)

/-- The rows a sequence awaits on its models (R285, R286); a PREFILL row has every position left, to be cut into a chunk. -/
def State.genRows (s : State) (r : Nat) (x : Req) : List (Nat × Row) :=
  match x.seqE with
  | none => []
  | some q =>
    let y := s.seq q
    if x.stage != 16 || y.ended then [] else
    let t := y.target
    let row (m kind start n : Nat) (draft : Bool) : List (Nat × Row) :=
      [s.mkRow r x m { kind := kind, start := start, n := n, draft := draft, stage := 16 }]
    if x.alone then
      if y.drLen < t then row y.draft 2 y.drLen (t - y.drLen) true
      else if y.out.isEmpty then [] else row y.draft 0 y.drLen 1 true
    else
      let gen :=
        if y.kvLen < t then row y.model 2 y.kvLen (t - y.kvLen) false
        else if y.out.isEmpty then []
        else if y.spec && y.drafting && decide (y.props.length < y.round) then []
        else if y.spec && y.drafting && !y.props.isEmpty then row y.model 1 y.kvLen (1 + y.props.length) false
        else row y.model 0 y.kvLen 1 false
      let dr :=
        if !y.spec then []
        else if !y.drafting then (if y.drLen < t then row y.draft 2 y.drLen (t - y.drLen) true else [])
        else if y.round ≤ y.props.length then []
        else if y.props.isEmpty && y.drLen + 1 == y.kvLen then row y.draft 2 y.drLen 2 true
        else row y.draft 0 y.drLen 1 true
      gen ++ dr

/-- Positions of a cross-encoder row (R446). -/
def State.rerankN (s : State) (x : Req) (c : Cand) : Nat := s.queryToks x + (c.toks.getD []).length + 3

/-- Every row of an admitted request that awaits a step, those already in a step left out. -/
def State.rowsOf (s : State) (r : Nat) : List (Nat × Row) :=
  let x := s.req r
  if x.state != 2 then [] else
  let enc (st item n : Nat) : List (Nat × Row) := match x.modelOf (if st = 4 then 0 else if st = 6 then 1 else 2) with
    | some m => [s.mkRow r x m { kind := 3, item := item, n := max 1 n, stage := st }]
    | none => []
  let all :=
    if x.head.kind = 5 then
      (x.items.zip (List.range x.items.length)).flatMap fun it =>
        if it.1.outcome.isSome then [] else
        match it.1.toks, it.1.code, it.1.list with
        | some ts, none, _ => enc 4 it.2 ts.length
        | _, some _, none => enc 6 it.2 1
        | _, _, _ => []
    else if x.head.kind = 6 then []
    else if x.stage ≤ 4 then (match x.toks with
      | some ts => if x.code.isNone then enc 4 0 ts.length else []
      | none => [])
    else if x.stage = 6 then enc 6 0 1
    else if x.stage = 10 && ladAction (x.entry 2) == 1 then
      (x.cands.zip (List.range x.cands.length)).flatMap fun c =>
        if c.1.live && c.1.score.isNone && x.candReady c.1 then enc 13 c.2 (s.rerankN x c.1) else []
    else s.genRows r x
  all.filter fun z => !(s.steps.any fun e => e.2.rows.any fun w =>
    w.req == r && w.draft == z.2.draft && ((decide (w.kind ≤ 2) && decide (z.2.kind ≤ 2)) ||
      (w.kind == 3 && w.stage == z.2.stage && w.item == z.2.item)))

/-! ## The projection (R262) -/

/-- A projection: the beat it has reached, the beat of the first output, whether a stage's model has no stake that counts, and whether
it failed (NaN of R263). -/
structure Proj where
  t     : Nat := 0
  first : Option Nat := none
  stuck : Bool := false
  bad   : Bool := false
  deriving DecidableEq, Repr

/-- Stages of a kind in path order: 4 encoder, 6 centroid scorer, 7 list search, 10 stages 10 to 12, 13 cross-encoder, 14 stages 14 and
15, 16 generator, 20 appends. -/
def pathOf (kind : Nat) : List Nat :=
  match kind with
  | 1 => [4]
  | 2 => [4, 6, 7]
  | 3 => [4, 6, 7, 10, 13, 14]
  | 4 => [4, 6, 7, 10, 13, 14, 16]
  | 5 => [4, 6, 20]
  | 6 => [20]
  | _ => []

/-- The stages a request has left. -/
def Req.stagesLeft (x : Req) : List Nat :=
  let ready := !x.cands.isEmpty && x.cands.all fun c => !c.live || x.candReady c
  (pathOf x.head.kind).filter fun g =>
    if g = 4 then x.head.kind == 5 || decide (x.stage ≤ 4)
    else if g = 7 then decide (x.stage ≤ 9)
    else if g = 10 then decide (x.stage < 10) || (x.stage == 10 && !ready)
    else if g = 14 then decide (x.stage ≤ 15)
    else if g = 20 then true
    else x.head.kind == 5 || decide (x.stage ≤ g)

/-- The ladder of a stage of the path: ENCODE, SEARCH, RERANK, GENERATE. -/
def ladderOf (g : Nat) : Option Nat := if g = 4 then some 0 else if g = 6 then some 1 else if g = 13 then some 2 else if g = 16 then some 3
  else none

/-- Positions of a row whose text is not tokenized yet: a free function of the text's bytes, within what the model takes (log
entry 34). (DEDUCED; log entry 34) -/
def State.guessN (s : State) (m bytes : Nat) : Nat := max 1 (min (min 512 (s.topRows m)) (Config.guessTokens bytes))

/-- The rows a request has left at an ENCODE stage, as far as they are known. -/
def State.encodeLeft (s : State) (x : Req) (g m : Nat) : List Row :=
  let row (n : Nat) : Row := { kind := 3, n := max 1 n, stage := g, skEnt := s.skEntOf x m }
  if g = 13 then
    if x.stage < 10 then List.replicate (max 1 x.head.k) (row (s.guessN m 16384))
    else (x.cands.filter fun c => c.live && c.score.isNone).map fun c =>
      row (if c.toks.isSome && x.rtoks.isSome then s.rerankN x c else s.guessN m c.tlen)
  else if x.head.kind = 5 then
    (x.items.filter fun it => it.outcome.isNone && (if g = 4 then it.code.isNone else it.list.isNone)).map fun it =>
      row (if g = 6 then 1 else match it.toks with
        | some ts => ts.length
        | none => s.guessN m it.text.length)
  else [row (if g = 6 then 1 else match x.toks with
    | some ts => ts.length
    | none => s.guessN m x.head.question.length)]

/-- How many leading rows fit a budget, at least 1. -/
def State.fitCount (s : State) (m budget : Nat) (rows : List Row) : Nat :=
  max 1 (((List.range rows.length).takeWhile fun i => s.rowsFit m budget (rows.take (i + 1))).length)

/-- Steps that a prompt's chunks take: each chunk the largest candidate that fits, else the smallest. -/
def State.chunkCount (s : State) (m budget sk : Nat) : Nat → Nat → Nat
  | 0, _ => 0
  | fuel + 1, left =>
    if left = 0 then 0 else
    let cs := chunks (s.topRows m) left
    let c := match cs.find? fun c => s.rowsFit m budget [{ kind := 2, n := c, skEnt := sk }] with
      | some c => c
      | none => cs.getLastD left
    1 + s.chunkCount m budget sk fuel (left - max 1 c)

/-- Positions a generator at the request's level must prefill, and the committed tokens (R251, R262). -/
def State.prefillLeft (s : State) (x : Req) (m : Nat) : Nat × Nat :=
  match x.seqE with
  | none => (x.promptBudget, 0)
  | some q =>
    let y := s.seq q
    let t := if y.prompt.isEmpty then x.promptBudget else y.target
    let have_ := if x.alone then (if y.draft == m then y.drLen else 0)
      else if y.model == m then y.kvLen else 256 * (s.chainOf y m).length
    (t - have_, y.out.length)

/-- ceil(n / a) for a positive FP32 value. -/
def cdivF (n : Nat) (a : FP32) : Option Nat :=
  if !positive32 a then none else
  match val32 a with
  | .fin _ m e => if m = 0 then none else if 0 ≤ e then some (cdiv n (m * 2 ^ e.toNat)) else some (cdiv (n * 2 ^ (-e).toNat) m)
  | _ => none

/-- n_steps of R262 and the rows of one step, for a stage that runs model m; `budget` is budget(m). -/
def State.stageSteps (s : State) (x : Req) (g m budget : Nat) : Option (Nat × List Row) :=
  if g = 16 then
    let p := s.prefillLeft x m
    let sk := s.skEntOf x m
    let n1 := s.chunkCount m x.cls.budget sk p.1 p.1
    let left := x.head.maxTok - p.2
    let n2 := if x.hist.isEmpty then cdivF left x.cls.genInit else
      if x.hist.sum = 0 then none else some (cdiv (left * x.hist.length) x.hist.sum)
    let next : Row :=
      if 0 < p.1 then
        let cs := chunks (s.topRows m) p.1
        { kind := 2, n := (cs.find? fun c => s.rowsFit m x.cls.budget [{ kind := 2, n := c, skEnt := sk }]).getD (cs.getLastD 1), skEnt := sk }
      else { kind := 0, n := 1 + (match x.seqE with
        | some q => if x.alone then 0 else (s.seq q).props.length
        | none => 0), skEnt := sk }
    n2.map fun n => (n1 + n, [next])
  else
    let rows := s.encodeLeft x g m
    let fit := s.fitCount m (if g = 13 then x.cls.budget else budget) rows
    some (if g != 13 && x.head.kind != 5 then 1 else cdiv rows.length fit, rows.take fit)

/-- budget(m): the largest STEP_BUDGET among the classes with rows that await m, the request's own among them. -/
def State.budgetOf (s : State) (x : Req) (m : Nat) : Nat :=
  (s.reqs.map fun e => if (s.rowsOf e.1).any fun z => z.1 == m then e.2.cls.budget else 0).foldl max x.cls.budget

/-- Steps of rows ranked at or above a request's that are ahead of it on a model. -/
def State.aheadOf (s : State) (r : Nat) (x : Req) (m budget : Nat) : Nat :=
  let steps := (s.steps.filter fun e => e.2.model == m && (e.2.state == spPENDING || e.2.state == spREPLAY) &&
    decide (x.cls.rank ≤ (e.2.rows.map (·.rank)).foldl max 0) && !(e.2.rows.any fun z => z.req == r)).length
  let before (y : Req) : Bool := decide (x.cls.rank < y.cls.rank) ||
    (x.cls.rank == y.cls.rank && (x.state != 2 || decide (y.admitted < x.admitted)))
  steps + (s.reqs.map fun e =>
    if e.1 == r || !before e.2 then 0 else
    match (s.rowsOf e.1).find? fun z => z.1 == m with
    | none => 0
    | some z => ((s.stageSteps e.2 z.2.stage m budget).map (·.1)).getD 1).sum

/-- Beats of a stage without a model of its own. -/
def State.fixedBeats (s : State) (x : Req) (g b : Nat) : Nat :=
  if g = 7 then
    let w := max 1 (s.o Od.searchWindowBeats)
    (if x.stage = 9 then 0 else (b / w + 1) * w - b) + s.o Od.scanBeats
  else if g = 10 then s.o Od.postSearchBeats
  else if g = 14 then s.o Od.packBeats
  else if g = 20 then s.o Od.appendBeats * cdiv (x.items.filter fun it => it.outcome.isNone).length 256
  else 0

/-- One stage of the projection. -/
def State.projStage (s : State) (r : Nat) (x : Req) (idle : Bool) (b : Nat) (p : Proj) (g : Nat) : Proj :=
  let p := match (ladderOf g).bind x.modelOf with
    | none => { p with t := p.t + s.fixedBeats x g b }
    | some m =>
      let budget := s.budgetOf x m
      let k := (s.goodStakes m).length
      match s.stageSteps x g m budget with
      | none => { p with bad := true }
      | some (n, rows) =>
        match s.stepBeats m rows with
        | none => { p with bad := true }
        | some per =>
          if s.o (Od.modelState m) == 5 then { p with bad := true }
          else if k = 0 then { p with stuck := true }
          else
            let ahead := if idle then 0 else s.aheadOf r x m budget
            let stall := match x.seqE with
              | some q => b2n (g == 16 && x.stage == 16 && s.outStalled x (s.seq q))
              | none => 0
            { p with t := p.t + cdiv ahead k * max budget per + n * per + stall }
  if p.first.isNone && g == 16 then { p with first := some p.t } else p

/-- The projection of a request at beat b; `idle` for an idle module. -/
def State.project (s : State) (r : Nat) (x : Req) (idle : Bool) (b : Nat) : Proj :=
  let p := (x.stagesLeft).foldl (s.projStage r x idle b) { t := b + 1 }
  let p := if p.stuck then { p with t := b + 65535, first := some (b + 65535) } else p
  { p with first := p.first.or (some p.t) }

/-- A request at the lowest usable levels of its ladders (R254, R259). -/
def State.atLowest (s : State) (x : Req) : Req :=
  { x with levels := (List.range 4).map fun st =>
      if (stagesOf x.head.kind).contains st then
        ((List.range 4).reverse.find? fun l => s.usable st (x.cls.ladders.getD st 0) l).getD 0
      else 0 }

/-- Whether its projection meets E2E_DEADLINE (R254, R259). -/
def State.meets (s : State) (r : Nat) (x : Req) (idle : Bool) : Bool :=
  x.cls.e2e == 0 ||
    (let p := s.project r (s.atLowest x) idle s.beat
     !p.bad && decide (p.t ≤ x.beat + x.cls.e2e))

end Sys2Proof.Machine
end

