-- ==== Sys2Proof/Machine/Gate.lean ====
section
/-!
DEFINITION. The admission gate: its checks, admission and deferral, hints and retry-after values, and GATE_DECISION,
DEFER_LIMIT_EXPIRY and DEADLINE_EXPIRY (08_admission_and_deadlines.md R245 to R265; 09_generation.md R273, R281, R293, R295).
-/
namespace Sys2Proof.Machine

/-! ## What a request is bound to -/

/-- The values of a class as they stand (R247). -/
def State.classVal (s : State) (c : Nat) : ClassVal :=
  { flags := s.o (Od.classFlags c), prio := s.o (Od.priority c), first := s.o (Od.firstDeadline c), e2e := s.o (Od.e2eDeadline c)
    budget := s.o (Od.stepBudget c), deferLimit := s.o (Od.deferLimit c), genInit := BitVec.ofNat 32 (s.o (Od.genTokensInit c))
    ladders := [s.o (Od.ladderEncode c), s.o (Od.ladderSearch c), s.o (Od.ladderRerank c), s.o (Od.ladderGenerate c)] }

/-- Models named by any level of the ladders a request's kind uses. -/
def Req.models (x : Req) : List Nat :=
  ((stagesOf x.head.kind).flatMap fun st => let v := x.cls.ladders.getD st 0
    (List.range (ladLen v)).flatMap fun l => ladModels st (ladEntry v l)).eraseDups

/-- Models a request's GENERATE levels name. -/
def Req.genModels (x : Req) : List Nat :=
  let v := x.cls.ladders.getD 3 0
  ((List.range (ladLen v)).flatMap fun l => ladModels 3 (ladEntry v l)).eraseDups

/-- Vocabulary slots a kind uses (R334). -/
def Req.vocabSlots (x : Req) : List Nat :=
  let h := x.head
  ((if h.kind ≤ 5 then [h.encV] else []) ++ (if h.kind = 3 ∨ h.kind = 4 then [h.rerV] else []) ++
    (if h.kind = 4 then [h.genV] else [])).eraseDups

/-- The ENABLED feature set of a model (R435). -/
def State.fsetOf (s : State) (m : Nat) : Option FsetVal :=
  ((List.range 16).find? fun i => s.o (Od.fsetState i) == 1 && s.o (Od.fsetModel i) == m).map fun i =>
    { on := true, set := i, cls := s.o (Od.clsToken i), sep := s.o (Od.sepToken i), qMax := s.o (Od.queryMax i), rowMax := s.o (Od.rowMax i)
      feats := (List.range (s.o (Od.fsetFeatures i))).map fun f => s.o (Od.feature i f) }

/-- The feature sets of the cross-encoders on a request's RERANK ladder. -/
def State.fsetsFor (s : State) (x : Req) : Tbl FsetVal :=
  let v := x.cls.ladders.getD 2 0
  if x.head.kind = 3 ∨ x.head.kind = 4 then
    applyAll (fun (t : Tbl FsetVal) m => match s.fsetOf m with
      | some f => tIns m f t
      | none => t) [] (((List.range (ladLen v)).flatMap fun l => ladModels 2 (ladEntry v l)).eraseDups)
  else []

/-- Tables named by feature sets (R437). -/
def tablesOf (fs : Tbl FsetVal) : List Nat := (fs.flatMap fun e => e.2.feats.map fun f => bits f 127 122).eraseDups

/-- The values of a template (R450, R451): its body as 32-bit items. -/
def State.tmplVal (s : State) (t : Nat) : TmplVal :=
  let b := tGet [] s.blobs (Od.templateBody t)
  { body := (List.range (b.length / 4)).map fun i => beAt b (4 * i) 4
    budget := s.o (Od.budget t), packMax := s.o (Od.packMax t), passMax := s.o (Od.passageMax t), passMin := s.o (Od.passageMin t)
    qMax := s.o (Od.promptQueryMax t), order := s.o (Od.order t), dedup := s.o (Od.dedup t) }

/-- The slots a request's identifier is ACTIVE in, by model (R243). -/
def State.skeinsFor (s : State) (x : Req) : List (Nat × Nat × Nat) :=
  if !x.head.skEn then [] else
  x.models.filterMap fun m => (s.skeinOf x.tenant m x.head.skId).map fun k => (m, k, s.o (Od.skeinVersion k))

/-- A request with everything it is bound to as the gate finds it now: class values, lowest-numbered usable levels (R250), skeins,
template and feature sets. -/
def State.boundReq (s : State) (x : Req) : Req :=
  let x := { x with cls := s.classVal x.head.cls }
  let lv := (List.range 4).map fun st =>
    if (stagesOf x.head.kind).contains st then (s.usableFrom st (x.cls.ladders.getD st 0) 0).getD 0 else 0
  let fs := s.fsetsFor x
  { x with levels := lv, low := lv.any (· != 0), skeins := s.skeinsFor x, vocabs := x.vocabSlots, fsets := fs, tables := tablesOf fs
           gram := if x.head.gramEn then some x.head.gram else none
           tmpl := if x.head.kind = 4 then some x.head.tmpl else none
           tmplV := if x.head.kind = 4 then s.tmplVal x.head.tmpl else {}
           visible := s.o (Od.indexVisible x.tenant) }

/-! ## Shared prefixes at admission (R293) -/

/-- Entries matching a prompt from a block on. -/
def State.adoptFrom (s : State) (tenant m : Nat) (sk : Option (Nat × Nat)) : Nat → Option Nat → List Nat → List Nat
  | 0, _, _ => []
  | n + 1, parent, toks =>
    match s.prefixAt tenant m sk parent (toks.take 256) with
    | some p => p :: s.adoptFrom tenant m sk n (some p) (toks.drop 256)
    | none => []

/-- The blocks a request adopts for a model: of its prompt, the literals before the first other item are known (DESIGN CHOICE; log entry 33). -/
def State.adoptable (s : State) (x : Req) (m : Nat) : List Nat :=
  let (a, _, c) := x.tmplV.parts
  let lead := (a.takeWhile fun i => itOp i == 0).map itTok
  s.adoptFrom x.tenant m (x.skeinFor m) (min (lead.length / 256) ((literals (a ++ c) - 1) / 256)) none lead

/-! ## Reservations (R281, R438) -/

/-- Feature pages a request reserves: the most that a feature set of its ladder asks for. -/
def State.featNeed (s : State) (x : Req) : Nat :=
  (x.fsets.map fun e => cdiv (x.head.k * (e.2.feats.map fun f => 16 * cdiv (s.featBytes f) 16).sum) 262144).foldl max 0

/-- Key-value pages a request reserves. -/
def State.kvNeed (s : State) (x : Req) : Nat :=
  s.featNeed x + (if x.head.kind != 4 then 0 else
    let y := Seq.atLevel {} x
    let b := cdiv (x.promptBudget + x.head.maxTok) 256
    let a := (s.adoptable x y.model).length
    (b - a) * kvGroups (s.planX y.model) + (if y.spec then b * kvGroups (s.planX y.draft) + 1 else 0))

/-- Whether a tenant's stack quota has room for key-value pages (R198). -/
def State.kvFits (s : State) (t n : Nat) : Bool := decide (s.stackPromised t + cdiv n 8 ≤ s.o (Od.stackQuota t)) && s.stackFits

/-- The largest HEAT of an entry's pages. -/
def State.prefixHeat (s : State) (e : Prefix) : Nat := (e.pages.map fun k => (s.page (kvPageOf k)).heat).foldl max 0

/-- Entries of a tenant without references released, coldest first and then oldest, until the reservation fits (R295). -/
def State.makeRoom (t n : Nat) (keep : List Nat) : Nat → State → State
  | 0, s => s
  | fuel + 1, s =>
    if s.kvFits t n then s else
    let es := s.prefixes.filter fun e => e.2.tenant == t && e.2.refs == 0 && !keep.contains e.1
    match (sortBy (fun (a b : Nat × Prefix) => lexLt [s.prefixHeat a.2, a.2.born, a.1] [s.prefixHeat b.2, b.2.born, b.1]) es).head? with
    | none => s
    | some e => State.makeRoom t n keep fuel (s.releasePrefix e.1)

/-! ## Hints and retry-after values (R260) -/

/-- Projected completion beats of the admitted requests. -/
def State.projEnds (s : State) : List Nat :=
  (s.reqs.filter fun e => e.2.state == 2).filterMap fun e =>
    let p := s.project e.1 e.2 false s.beat
    if p.bad then none else some p.t

/-- B_drain(X). -/
def State.bDrain (s : State) (x : Nat) : Nat :=
  let i := s.o Od.inflight
  if i < x then 1 else
  let ends := sortBy (fun a b => decide (a < b)) s.projEnds
  match ends[i - x]? with
  | some e => if e ≤ s.beat + 65535 then max 1 (e - s.beat) else 65535
  | none => 65535

/-- B_wake: the beats by which the wake ledgers' queues delay the first ramp-up of a level-0 stake of a class, two ramp-ups in each
100 ns; the least over its stakes. -/
def State.bWake (s : State) (x : Req) : Nat :=
  let ms := (stagesOf x.head.kind).flatMap fun st => ladModels st (ladEntry (x.cls.ladders.getD st 0) 0)
  let ds := ms.flatMap fun m => (s.stakesOf m).map fun n =>
    (((s.stake n).arrays.map (· / 8)).eraseDups.map fun d => (s.ledger d).queue.length).foldl max 0
  match ds with
  | [] => 0
  | d :: r => s.beatsOfNs (100 * (r.foldl min d / 2))

/-- B_ta: a turn hint in cycles of the 1.6 GHz arbiter clock, in beats (R253, R510). -/
def State.bTa (s : State) (h : Nat) : Nat := cdiv h (1600 * max 1 s.periodUs)

/-- What a draining module adds to a retry-after (R631). -/
def State.drainRetry (s : State) : Nat := max (s.o Od.retryMinBeats) (s.bDrain 1) + cdiv 2000000 (max 1 s.periodUs)

/-! ## The checks (R254) -/

/-- Check 5: vocabularies, grammar, tables and template (R334, R348, R437, R452). -/
def State.slotsOk (s : State) (x : Req) : Bool :=
  let t := x.tenant
  let h := x.head
  let vid (v : Nat) : Option Nat := (s.vslot v).cur.map (·.id)
  (x.vocabs.all fun v => s.o (Od.vocabState v) == 2 && maskBit (s.o (Od.vocabTenants v)) t) &&
  (x.tables.all fun k => s.o (Od.tableState k) == 2 && maskBit (s.o (Od.tableTenants k)) t) &&
  (h.kind != 4 || (s.o (Od.templateState h.tmpl) == 1 && maskBit (s.o (Od.templateTenants h.tmpl)) t &&
    vid h.genV == some (s.o (Od.templateVocabId h.tmpl)))) &&
  (!h.gramEn || (s.o (Od.grammarSlotState h.gram) == 2 && maskBit (s.o (Od.grammarTenants h.gram)) t &&
    bitAt (s.o (Od.grammarClasses h.gram)) (8 * (7 - h.cls / 8) + h.cls % 8) &&
    ((s.gslot h.gram).cur.map (·.vid)) == vid h.genV && octElem (s.o (Od.grammarCertNs h.gram)) 256 4 h.cls != 0xFFFFFFFF))

/-- Checks 2 to 8: the reason and the completion code of the first that fails, and the state after the releases of R295. (DEDUCED; log entry 47) -/
def State.gateChecks (s : State) (r : Nat) (x : Req) : State × Option (Nat × Nat) :=
  let t := x.tenant
  let h := x.head
  let c := h.cls
  if s.o (Od.tenantState t) != 1 then (s, some (4, 0x06))
  else if s.o (Od.classState c) != 1 || !maskBit (s.o (Od.tenants c)) t || !bitAt (s.o (Od.kinds c)) (h.kind - 1) then (s, some (3, 0x05))
  else if ((stagesOf h.kind).any fun st => (s.usableFrom st (x.cls.ladders.getD st 0) 0).isNone) ||
      (x.models.any fun m => s.o (Od.modelState m) == 4) then (s, some (7, 0x05))
  else if !s.slotsOk x then (s, some (8, 0x07))
  else if h.skEn && x.skeins.isEmpty && !x.models.isEmpty then (s, some (6, 0x0B))
  else
    let n := s.kvNeed x
    let keep := x.genModels.flatMap fun m => s.adoptable x m
    let s := if n = 0 then s else State.makeRoom t n keep s.prefixes.length s
    if s.o (Od.inflightQuota t) ≤ s.o (Od.inflightUsed t) then (s, some (1, 0x03))
    else if n != 0 && !s.kvFits t n then (s.addO (Od.quotaRefusals t) 1, some (1, 0x03))
    else if s.o (Od.bufQuota t) ≤ s.o (Od.bufUsed t) then (s, some (1, 0x03))
    else if !s.meets r x true then (s, some (9, 0x0A))
    else (s, none)

/-- Room in the sense of R258 and R273. -/
def State.hasRoom (s : State) (x : Req) : Bool :=
  decide (s.o Od.inflight < s.o Od.inflightMax) && decide (s.o (Od.classInflight x.head.cls) < s.o (Od.classInflightMax x.head.cls)) &&
    (x.head.kind != 4 || decide (s.o Od.seqUsed < 4096))

/-- What check 9 decides (R258). -/
inductive Verdict9 where
  | accept
  | refuse (retry : Nat)
  | defer (why beats : Nat)
  deriving DecidableEq, Repr

/-- A deferral, or the refusal when the queue is full. -/
def State.deferOr (s : State) (why beats : Nat) : Verdict9 :=
  if s.o Od.deferQueueMax ≤ s.o Od.deferHeld then .refuse (max (s.o Od.retryMinBeats) (s.bDrain (s.o Od.deferInflight)))
  else .defer why beats

/-- Check 9 (R258, R260, R631). -/
def State.check9 (s : State) (x : Req) : Verdict9 :=
  let l := s.o Od.overloadLevel
  let p := s.o Od.deferFloor
  let i := s.o Od.inflight
  if s.boot.draining then .refuse s.drainRetry
  else if x.cls.bulk then
    if l = 0 ∧ p = 0 ∧ s.hasRoom x then .accept
    else .refuse (max (s.o Od.retryMinBeats) (s.bDrain (s.o Od.shedBulkInflight)))
  else if x.cls.prio < p then
    s.deferOr 0x0C (s.bDrain (s.o Od.deferInflight) + (p - x.cls.prio) + s.bWake x)
  else if s.hasRoom x then .accept
  else
    let ci := s.o (Od.classInflight x.head.cls)
    let cm := s.o (Od.classInflightMax x.head.cls)
    s.deferOr 0x0B (s.bDrain (min (s.o Od.inflightMax) (i + 1 - (if cm ≤ ci then ci - cm + 1 else 0))) + s.bWake x)

/-! ## Admission (R254, R243, R268, R273, R293, R334, R348, R437, R450) -/

/-- The references of a request's bindings. -/
def State.bindRefs (s : State) (x : Req) : State :=
  let s := applyAll (fun s (k : Nat × Nat × Nat) => s.addO (Od.skeinRefs k.2.1) 1) s x.skeins
  let s := applyAll (fun s v => s.addO (Od.vocabRefs v) 1) s x.vocabs
  let s := match x.gram with
    | some g => s.addO (Od.grammarRefs g) 1
    | none => s
  let s := match x.tmpl with
    | some t => s.addO (Od.templateRefs t) 1
    | none => s
  applyAll (fun s t => s.addO (Od.tableRefs t) 1) s x.tables

/-- A sequence entry taken for an ANSWER request, with the prefix entries it adopts for each model of its GENERATE ladder. -/
def State.takeSeq (s : State) (r : Nat) (x : Req) : State :=
  match (List.range 4096).find? fun q => !tHas s.seqs q with
  | none => s
  | some q =>
    let ps := x.genModels.flatMap fun m => s.adoptable x m
    let y := Seq.atLevel {} x
    let n (m : Nat) : Nat := (s.adoptable x m).length
    let side0 := if x.alone then 0 else n y.model
    let start := match x.gram with
      | some g => ((s.gslot g).cur.map (·.start)).getD 0
      | none => 0
    let y := { y with
      state := 1, tenant := x.tenant, req := r, skSlot := (x.skeinFor y.model).map (·.1), adopted := n y.model, prefixes := ps
      kvLen := 256 * side0, drLen := if x.alone then 256 * n y.draft else if y.spec then 256 * n y.draft else 0
      gState := start, gEn := x.gram.isSome, gSlot := x.gram.getD 0, vocab := x.head.genV, maxTok := x.head.maxTok }
    let s := applyAll (fun (s : State) p => let e : Prefix := tGet {} s.prefixes p
      { s with prefixes := tIns p { e with refs := e.refs + 1 } s.prefixes }) s ps
    let s := (s.addO Od.prefixAdopted ps.length).addO Od.seqUsed 1
    (s.setSeq q y).setReq r { s.req r with seqE := some q }

/-- The first stage of an admitted request. -/
def State.startReq (s : State) (r : Nat) : State :=
  let x := s.req r
  if x.head.kind ≤ 4 then s.askTokens r 0 0
  else if x.head.kind = 5 then applyAll (fun s i => s.askTokens r 5 i) s (List.range x.items.length)
  else s.pumpStaging

/-- A request admitted with everything it is bound to. -/
def State.admitReq (s : State) (r : Nat) (x : Req) : State :=
  let n := s.kvNeed x
  let held := x.state == 1
  let x := { x with state := 2, stage := 3, admitted := s.gate.order, kvResv := n, energy := BitVec.ofNat 32 (s.o Od.energyFixed) }
  let s := s.setReq r x
  let s := { s with gate := { s.gate with
    order := s.gate.order + 1, waiting := s.gate.waiting.filter fun q => q != r, deferq := s.gate.deferq.filter fun q => q != r } }
  let s := s.subO Od.deferHeld (b2n held)
  let s := ((s.addO (Od.inflightUsed x.tenant) 1).addO (Od.classInflight x.head.cls) 1).addO Od.inflight 1
  let s := (s.addO (Od.kvReserved x.tenant) n).addO (Od.admitted x.head.cls) 1
  let s := s.bindRefs x
  let s := if x.head.kind = 4 then s.takeSeq r x else s
  s.startReq r

/-- A refusal counted by its class and reason (OD 3100:22). -/
def State.countRefusal (s : State) (c reason : Nat) : State :=
  let v := s.o (Od.refusals c)
  s.setO (Od.refusals c) (octSet v 64 4 reason ((octElem v 64 4 reason + 1) % 2 ^ 32))

/-- A request refused: its response when none has been sent, then its completion (R256). -/
def State.refuse (s : State) (r reason code retry : Nat) : State :=
  let x := s.req r
  let s := s.countRefusal x.head.cls reason
  let s := if x.state = 1 then s else s.respond r 3 reason (if reason = 2 then retry else 0)
  s.complete r code (if reason = 2 then retry else 0) reason true

/-- A request deferred: its response and its place in the queue (R255, R259). -/
def State.defer (s : State) (r why beats : Nat) : State :=
  let x := s.req r
  let s := s.respond r 2 why beats
  let s := s.setReq r { x with state := 1, heldAt := s.beat, why := why }
  let s := { s with gate := { s.gate with waiting := s.gate.waiting.filter fun q => q != r, deferq := s.gate.deferq ++ [r] } }
  (s.addO Od.deferHeld 1).addO (Od.deferred x.head.cls) 1

/-- The decision on a granted request: checks 1 to 9. -/
def State.decide1 (s : State) (r : Nat) : State :=
  let x := s.boundReq (s.req r)
  if x.badEntry || !s.bodyOk x.tenant x.body then s.refuse r 5 0x07 0 else
  match s.gateChecks r x with
  | (s, some (reason, code)) => s.refuse r reason code 0
  | (s, none) =>
    match s.check9 x with
    | .accept => (s.respond r 1 0 0).admitReq r x
    | .refuse retry => s.refuse r 2 0x04 retry
    | .defer why beats => s.defer r why beats

/-- A request taken from the deferral queue passes checks 2 to 9 again (R259); one deferred as it entered the gate (R253) meets check 1
here. -/
def State.releaseReq (s : State) (r : Nat) : State :=
  let x := s.boundReq (s.req r)
  if x.why = 0x0A && (x.badEntry || !s.bodyOk x.tenant x.body) then s.refuse r 5 0x07 0 else
  match s.gateChecks r x with
  | (s, some (reason, code)) => s.refuse r reason code 0
  | (s, none) =>
    match s.check9 x with
    | .accept => s.admitReq r x
    | .refuse retry => s.refuse r 2 0x04 retry
    | .defer _ _ => s

/-- The level of a class at the gate's arbiters. -/
def State.admLevelOf (s : State) (r : Nat) : Nat := s.o (Od.admLevel (s.req r).head.cls)

/-- The request a port's arbiter grants: the highest level, round-robin among its classes, first in first out in a class (R511). (DESIGN CHOICE; log entry 67) -/
def State.nextGrant (s : State) (port : Nat) : Option Nat :=
  let rs := s.gate.waiting.filter fun r => (s.req r).ingress == port
  let top := (rs.map s.admLevelOf).foldl max 0
  let rs := rs.filter fun r => s.admLevelOf r == top
  let last := tGet 0 s.arb.last (port * 16 + top)
  let key (r : Nat) : Nat := ((s.req r).head.cls + 64 - last) % 64
  (sortBy (fun a b => decide (key a < key b)) rs).head?

/-- A port's arbiter grants a request its decision: the class's grants, the class granted last at its level, and the request no longer
waits (R253, R510 to R513). -/
def State.grant (s : State) (port r : Nat) : State :=
  let c := (s.req r).head.cls
  { s with
    arb := { s.arb with grants := tMod 0 s.arb.grants (port * 256 + c) (· + 1)
                        last := tSet 0 s.arb.last (port * 16 + s.admLevelOf r) ((c + 1) % 64) }
    gate := { s.gate with waiting := s.gate.waiting.filter fun q => q != r } }

/-- GATE_DECISION (R254, R511): the decision engine's grant on a port and the decision on the granted request; one cancelled while it waited
completes with CANCELLED at once. -/
def execGateDecision (port : Fin 3) (s : State) : Res :=
  .next <| match s.nextGrant port.val with
  | none => s
  | some r =>
    let s := (s.grant port.val r).decide1 r
    if s.hasReq r && (s.req r).cancel.isSome then s.failReq r 2 else s

/-- An accepted request enters its port's arbiter with the turn hint h it reads there (R253). -/
def State.enterGate (s : State) (r h : Nat) : State :=
  let x := s.req r
  let bulk := bitAt (s.o (Od.classFlags x.head.cls)) 0
  let s := { s with gate := { s.gate with waiting := s.gate.waiting ++ [r] } }
  if h ≤ s.o Od.admHintDefer then s
  else if bulk then s.refuse r 2 0x04 (max (s.o Od.retryMinBeats) (s.bTa h))
  else if s.o Od.deferQueueMax ≤ s.o Od.deferHeld then
    s.refuse r 2 0x04 (max (s.o Od.retryMinBeats) (s.bDrain (s.o Od.deferInflight)))
  else s.defer r 0x0A (max (s.bTa h) 1 + s.bWake (s.boundReq x))

/-- The retry-after of an OVERLOAD refusal of a held request (R260). -/
def State.heldRetry (s : State) : Nat := max (s.o Od.retryMinBeats) (s.bDrain (s.o Od.deferInflight))

/-- DEFER_LIMIT_EXPIRY (R259): a held request completes with REFUSED_OVERLOAD when it has been held for DEFER_LIMIT beats or its
projection no longer meets E2E_DEADLINE. -/
def execDeferLimitExpiry (r : Nat) (s : State) : Res :=
  .next <|
    let x := s.req r
    let y := s.boundReq x
    guardS (s.hasReq r && x.state == 1 && (decide (x.heldAt + y.cls.deferLimit ≤ s.beat) || !s.meets r y false)) s fun s =>
      s.refuse r 2 0x04 s.heldRetry

/-- DEADLINE_EXPIRY (R265): boundary d_end is reached and the request has not had its final commit. -/
def execDeadlineExpiry (r : Nat) (s : State) : Res :=
  .next <|
    let x := s.req r
    guardS (s.hasReq r && x.state == 2 && x.final.isNone && x.cls.e2e != 0 && decide (x.beat + x.cls.e2e ≤ s.beat)) s fun s =>
      s.failReq r 0x0A

end Sys2Proof.Machine
end

