-- ==== Sys2Proof/Machine/Port.lean ====
section
/-!
DEFINITION. The Ethernet request ports: datagrams, authentication, fragments and assemblies, identifier windows, CANCEL, FREE and FETCH,
buffer faults and the expiries of the port (15_request_port_and_buffers.md R457 to R486; 08_admission_and_deadlines.md R252, R266 to R268).
-/
namespace Sys2Proof.Machine

/-! ## Messages from tenants (R459, R460, R463) -/

/-- The 32-byte header as a number, bit 255 first. -/
def mHead (bs : List Byte) : Nat := beAt bs 0 32
def mType (w : Nat) : Nat := bits w 231 224
def mTenant (w : Nat) : Nat := bits w 223 216
def mShift (w : Nat) : Nat := bits w 215 212
def mKey (w : Nat) : Nat := bits w 211 211
def mLen (w : Nat) : Nat := bits w 207 192
def mId (w : Nat) : Nat := bits w 191 160
def mFrag (w : Nat) : Nat := bits w 159 144
def mCount (w : Nat) : Nat := bits w 143 128

/-- Item 1 of R463. -/
def readable (bs : List Byte) : Bool :=
  let w := mHead bs
  let t := mType w
  let n := mLen w
  let s := mShift w
  decide (64 ≤ bs.length) && bits w 255 240 == 0x5638 && bits w 239 232 == 1 && decide (1 ≤ t ∧ t ≤ 4) && n + 64 == bs.length &&
    decide (n ≤ 8192) && bits w 210 208 == 0 && bits w 127 0 == 0 &&
    (if t = 1 then decide (10 ≤ s ∧ s ≤ 13) && decide (1 ≤ mCount w ∧ mCount w ≤ 2 ^ 22 / 2 ^ s) && decide (mFrag w < mCount w) &&
        (if mFrag w + 1 < mCount w then n == 2 ^ s else decide (1 ≤ n ∧ n ≤ 2 ^ s))
     else s == 0 && mFrag w == 0 && mCount w == 0) &&
    (if t = 2 then n == 0 else true) &&
    (if t = 3 then mId w == 0 && decide (4 ≤ n ∧ n ≤ 1024) && n % 4 == 0 else true) &&
    (if t = 4 then decide (n ≤ 1024) && n % 4 == 0 && (n == 0 || mId w == 0) else true)

/-- Item 2: the trailer verifies under the tenant's key slot (R461, R462). -/
def State.authentic (s : State) (bs : List Byte) : Bool :=
  let w := mHead bs
  let key := s.o (if mKey w = 0 then Od.key0 (mTenant w) else Od.key1 (mTenant w))
  key != 0 && hmac256 key (bs.take (mLen w + 32)) == beAt bs (mLen w + 32) 32

/-- The payload. -/
def mPayload (bs : List Byte) : List Byte := sliceB bs 32 (mLen (mHead bs))

/-- The handles of a FREE or FETCH. -/
def handlesOf (bs : List Byte) : List Nat := (List.range (bs.length / 4)).map fun i => beAt bs (4 * i) 4

/-! ## Arrival (R457, R458) -/

/-- Addresses and VLAN of a port. -/
def Od.ethIpv4 (port : Nat) : Nat := if port = 0 then Od.eth0Ipv4 else Od.eth1Ipv4
def Od.ethIpv6 (port : Nat) : Nat := if port = 0 then Od.eth0Ipv6 else Od.eth1Ipv6
def Od.ethVlan (port : Nat) : Nat := if port = 0 then Od.eth0Vlan else Od.eth1Vlan

/-- Whether a packet is for the port: its VLAN, its address and headers the port supports (R457). -/
def State.forPort (s : State) (port : Nat) (n : Net) : Bool :=
  let a := s.o (if n.v6 then Od.ethIpv6 port else Od.ethIpv4 port)
  let v := s.o (Od.ethVlan port)
  n.ok && a != 0 && n.dst == a && (match n.vlan with
    | none => v == 0xFFFF
    | some k => k == v && v != 0xFFFF)

/-- DATAGRAM_ARRIVAL (R457, R458, R463, R621): a packet reaches a port.  ARP, echo and neighbour requests for its address are answered
(TYPE 0x100 plus the kind in `tx`); a readable request datagram enters the queue. (DEDUCED; log entry 44) -/
def execDatagramArrival (port : Fin 2) (net : Net) (bytes : List Byte) (s : State) : Res :=
  .next <|
    if !s.pdOn 89 || !bitAt s.power.ethUp port.val then s
    else if !s.forPort port.val net || decide (4 ≤ net.kind) then s.addO Od.ingressDrops 1
    else if net.kind != 0 then
      { s with tx := { path := { port := port.val, addr := net.src, v6 := net.v6 }, typ := 0x100 + net.kind } :: s.tx }
    else if net.dport != s.o Od.reqUdpPort || s.o Od.bootStep != 11 then s.addO Od.ingressDrops 1
    else if !readable bytes then s.addO Od.unreadableDrops 1
    else
      let q := tGet [] s.rx port.val
      if 4096 ≤ q.length then s.addO Od.ingressDrops 1
      else { s with rx := tSet [] s.rx port.val (q ++ [{ net := net, bytes := bytes }]) }

/-- The oldest datagram a port holds. -/
def State.rxHead (s : State) (port : Nat) : Option Datagram := (tGet [] s.rx port).head?
def State.rxPop (s : State) (port : Nat) : State := { s with rx := tSet [] s.rx port ((tGet [] s.rx port).drop 1) }

/-- DATAGRAM_AUTH_FAIL (R461, R463): the oldest datagram fails authentication: dropped, counted for the tenant it names. -/
def execDatagramAuthFail (port : Fin 2) (s : State) : Res :=
  .next <| match s.rxHead port.val with
  | none => s
  | some d => if s.authentic d.bytes then s else (s.rxPop port.val).addO (Od.authFails (mTenant (mHead d.bytes))) 1

/-- The source of a datagram as a path for a NOTICE (R470). -/
def srcPath (port : Nat) (d : Datagram) : RetPath :=
  { port := port, addr := d.net.src, udp := d.net.sport, v6 := d.net.v6, key := mKey (mHead d.bytes) }

/-- The oldest authentic datagram of a type is processed by f, and leaves the queue. -/
def State.takeMsg (s : State) (port typ : Nat) (f : State → Datagram → Nat → State) : State :=
  match s.rxHead port with
  | none => s
  | some d =>
    let w := mHead d.bytes
    if mType w != typ || !s.authentic d.bytes then s else f (s.rxPop port) d w

/-! ## Identifiers (R466) -/

/-- What an identifier is to a tenant's window: 0 new, 1 accepted before, 2 stale. -/
def IdWin.look (w : IdWin) (id : Nat) : Nat :=
  match w.high with
  | none => 0
  | some h =>
    let up := (id + 2 ^ 32 - h) % 2 ^ 32
    let back := (h + 2 ^ 32 - id) % 2 ^ 32
    if 0 < up ∧ up < 2 ^ 31 then 0
    else if back < 4096 then (if tHas w.recs id then 1 else 0)
    else 2

/-- An identifier accepted: the high mark rises to it, records below the window go. -/
def State.acceptId (s : State) (t id : Nat) : State :=
  let w := s.idWin t
  let high := match w.high with
    | none => id
    | some h => let up := (id + 2 ^ 32 - h) % 2 ^ 32
      if 0 < up ∧ up < 2 ^ 31 then id else h
  let recs := (tIns id ({} : IdRec) w.recs).filter fun e => decide ((high + 2 ^ 32 - e.1) % 2 ^ 32 < 4096)
  s.setIdWin t { high := some high, recs := recs }

/-- Copies of an accepted request's RESPONSE and COMPLETION (R466, R477). -/
def State.resend (s : State) (t id : Nat) : State :=
  let c : IdRec := tGet {} (s.idWin t).recs id
  let s := match c.resp with
    | some b => s.sendMsg { path := c.path, typ := 0x81, tenant := t, id := id, dup := true, payload := b }
    | none => s
  match c.comp with
  | some b => s.sendMsg { path := c.path, typ := 0x83, tenant := t, id := id, dup := true, payload := b }
  | none => s

/-! ## Acceptance (R252, R465, R470, R476) -/

/-- The next ingress number (R252). -/
def State.ingress (s : State) : State := s.addO Od.ingressSequence 1

/-- The return path of a request (R470), from the path of its ingress. -/
def State.returnPath (s : State) (t : Nat) (h : Head) (p : RetPath) : RetPath :=
  let addr := if h.retAddr = 0 then p.addr else h.retAddr
  let udp := if h.retUdp = 0 then p.udp else h.retUdp
  let eth (port : Nat) : RetPath := { p with port := port, addr := addr, udp := udp, cookie := 0
                                             v6 := if h.retAddr = 0 then p.v6 else h.retAddr / 2 ^ 32 != 0xFFFF }
  let rings : RetPath := { port := 2, cookie := p.cookie }
  if p.port = 2 then
    if (h.ret = 1 ∨ h.ret = 2) ∧ h.retAddr ≠ 0 then eth (h.ret - 1) else rings
  else if h.ret = 1 ∨ h.ret = 2 then eth (h.ret - 1)
  else if h.ret = 3 ∧ s.vfOn t then rings
  else eth p.port

/-- Whether a pre-cancel is held for an identifier (R476). -/
def State.preCancelled (s : State) (t id : Nat) : Bool := s.preCancels.any fun p => p.tenant == t && p.id == id
def State.dropPre (s : State) (t id : Nat) : State :=
  { s with preCancels := s.preCancels.filter fun p => !(p.tenant == t && p.id == id) }

/-- A pre-cancelled request (R476): ACCEPTED, and at once a completion of CANCELLED. -/
def State.cancelAtOnce (s : State) (r : Nat) : State :=
  let x := s.req r
  ((s.dropPre x.tenant x.id).respond r 1 0 0).complete r 2 0 0 true

/-- A request accepted: its number and stamp, its identifier, its entry; `state` 0 with its body, 3 while the body is awaited. -/
def State.accept (s : State) (x : Req) : State × Nat :=
  let s := (s.ingress).acceptId x.tenant x.id
  let r := s.nextReq
  let x := { x with beat := s.beat, seq := s.o Od.ingressSequence }
  let s := { s.setReq r x with nextReq := r + 1 }
  (applyAll (fun s b => s.setBuf b { s.buf b with req := r }) s x.bufs, r)

/-- A request whose body is complete meets its port's arbiter with a turn hint (R253), unless a pre-cancel is held for it. -/
def State.meetGate (s : State) (r h : Nat) : State :=
  let x := s.req r
  if s.preCancelled x.tenant x.id then s.cancelAtOnce r else
  let s := s.enterGate r h
  if s.hasReq r && (s.req r).state == 1 && (s.req r).cancel.isSome then s.failReq r 2 else s

/-! ## Fragments (R464, R465) -/

/-- Buffers of an assembly of n bytes: taken, or the reason of ASSEMBLY_REFUSED (R465, R480). -/
def State.takeAssembly (s : State) (t n : Nat) : Nat ⊕ (State × List Nat) :=
  let k := cdiv n 4096
  if s.o (Od.bufQuota t) < s.o (Od.bufUsed t) + k then .inl 1
  else if s.o Od.buffersFree < s.o Od.bufReserve + k then .inl 2
  else match takeBufs 0 t 0 k s with
    | none => .inl 2
    | some p => .inr p

/-- The fragment of an assembly that now stands; the request is accepted when it was the last. -/
def State.joinAssembly (s : State) (a : Assembly) (port hint : Nat) (d : Datagram) : State :=
  let w := mHead d.bytes
  let a := { a with frags := tIns (mFrag w) (mPayload d.bytes) a.frags }
  let others := s.assemblies.filter fun b => !(b.tenant == a.tenant && b.id == a.id)
  if a.frags.length < a.count then { s with assemblies := others ++ [a] } else
  let body := a.frags.flatMap (·.2)
  let h := parseHead body
  let p := s.returnPath a.tenant h.1 { srcPath port d with shift := a.shift }
  let s := { s with assemblies := others }
  let (s, r) := s.accept { tenant := a.tenant, id := a.id, ingress := port, path := p, body := body, bufs := a.bufs, head := h.1, items := h.2
                           len := body.length }
  s.meetGate r hint

/-- An authentic REQUEST fragment of a port: a duplicate or stale identifier, the next fragment of an assembly, or a new assembly's. -/
def State.takeFragment (s : State) (port hint : Nat) (d : Datagram) (w : Nat) : State :=
  let t := mTenant w
  let id := mId w
  match (s.idWin t).look id with
  | 1 => (s.addO (Od.duplicates t) 1).resend t id
  | 2 => s.notice (srcPath port d) t id 3 0 0 0 0 0 0
  | _ =>
    match s.assemblies.find? fun a => a.tenant == t && a.id == id with
    | some a =>
      if a.shift != mShift w || a.count != mCount w || tHas a.frags (mFrag w) then s.addO Od.fragmentDrops 1
      else s.joinAssembly a port hint d
    | none =>
      match s.takeAssembly t (mCount w * 2 ^ mShift w) with
      | .inl why => s.notice (srcPath port d) t id 2 why 0 0 0 0 0
      | .inr (s, bs) =>
        s.joinAssembly { tenant := t, id := id, shift := mShift w, count := mCount w, bufs := bs, start := s.beat, net := d.net
                         port := port, key := mKey w } port hint d

/-- REQUEST_FRAGMENT (R461 to R466): the oldest datagram of a port is an authentic REQUEST fragment; `hint` is the turn hint a completed
request reads as it enters the arbiter. -/
def execRequestFragment (port : Fin 2) (hint : Nat) (s : State) : Res :=
  .next <| s.takeMsg port.val 1 fun s d w => s.takeFragment port.val hint d w

/-- An assembly discarded and its buffers freed. -/
def State.dropAssembly (s : State) (a : Assembly) : State :=
  (applyAll State.freeBuf { s with assemblies := s.assemblies.filter fun b => !(b.tenant == a.tenant && b.id == a.id) } a.bufs).pumpOutput

/-- REASSEMBLY_TIMEOUT (R465): an assembly is incomplete REASSEMBLY_BEATS after its first fragment. -/
def execReassemblyTimeout (t : Fin 256) (id : Nat) (s : State) : Res :=
  .next <| match s.assemblies.find? fun a => a.tenant == t.val && a.id == id with
  | none => s
  | some a =>
    if s.beat < a.start + s.o Od.reassemblyBeats then s else
    (s.dropAssembly a).notice { port := a.port, addr := a.net.src, udp := a.net.sport, v6 := a.net.v6, key := a.key } t.val id 1 0 0 0 0 0 0

/-! ## CANCEL (R266 to R268, R476) -/

/-- A CANCEL with its own stamp acts. (DEDUCED; log entry 48) -/
def State.doCancel (s : State) (t id beat seq : Nat) (p : RetPath) : State :=
  let unmatched (s : State) : State := (s.addO (Od.cancelsUnmatched t) 1).notice p t id 5 0 0 0 0 0 0
  match (s.idWin t).look id with
  | 2 => unmatched s
  | 0 =>
    if s.preCancelled t id then s
    else { s with preCancels := s.preCancels ++ [{ tenant := t, id := id, beat := beat, seq := seq }] }
  | _ =>
    match s.reqs.find? fun e => e.2.tenant == t && e.2.id == id with
    | none => unmatched s
    | some (r, x) =>
      if x.cancel.isSome then s else
      let s := s.setReq r { x with cancel := some (beat, seq) }
      if x.final.isSome || x.state = 0 then s
      else if x.state = 3 then s
      else (s.endReq r 2).tidySteps

/-- CANCEL (R252, R460, R476): the oldest datagram of a port is an authentic CANCEL, or (port 2) the oldest CANCEL of function f. -/
def execCancel (port : Fin 3) (f : Fin 256) (s : State) : Res :=
  .next <|
    if port.val < 2 then
      s.takeMsg port.val 2 fun s d w =>
        let s := s.ingress
        s.doCancel (mTenant w) (mId w) s.beat (s.o Od.ingressSequence) (srcPath port.val d)
    else match (s.fn f.val).cmds with
      | [] => s
      | c :: rest =>
        if c.typ != 2 then s else
        (s.setFn f.val { s.fn f.val with cmds := rest }).doCancel f.val c.id c.beat c.seq { port := 2 }

/-- PRE_CANCEL_EXPIRY (R476): a pre-cancel held for REASSEMBLY_BEATS is dropped. -/
def execPreCancelExpiry (t : Fin 256) (id : Nat) (s : State) : Res :=
  .next <| guardS (s.preCancels.any fun p => p.tenant == t.val && p.id == id && decide (p.beat + s.o Od.reassemblyBeats ≤ s.beat)) s fun s =>
    s.dropPre t.val id

/-! ## FREE and FETCH (R477, R482, R483) -/

/-- A STALE or FOREIGN refusal counted for the beat's BUFFER_FAULT record: STALE, FOREIGN, first handle, OFFSET and beat of the first. -/
def State.bufFault (s : State) (t stale foreign h : Nat) : State :=
  let v : List Nat := tGet [] s.gate.bufFault t
  let (s, v) := if v.isEmpty then (s.took, [stale, foreign, h, s.freeV 15, s.beat])
    else (s, [v.getD 0 0 + stale, v.getD 1 0 + foreign, v.getD 2 0, v.getD 3 0, v.getD 4 0])
  { s with gate := { s.gate with bufFault := tIns t v s.gate.bufFault } }

/-- What a FREE has done so far: handles freed, refused as stale, foreign and busy, and the first refused. -/
structure FreeSum where
  freed : Nat := 0
  stale : Nat := 0
  foreign : Nat := 0
  busy : Nat := 0
  first : Nat := 0
  deriving DecidableEq, Repr

/-- One handle of a FREE (R482). -/
def freeOne (t : Nat) (a : State × FreeSum) (h : Nat) : State × FreeSum :=
  let s := a.1
  let n := a.2
  let b := h % 65536
  let x := s.buf b
  let first := if n.stale + n.foreign + n.busy = 0 then h else n.first
  let foreign : State × FreeSum := ((s.addO (Od.foreignFrees t) 1).bufFault t 0 1 h, { n with foreign := n.foreign + 1, first := first })
  if bits h 23 16 != t then foreign
  else if x.state = 0 || x.gen != bits h 31 24 then
    ((s.addO (Od.staleFrees t) 1).bufFault t 1 0 h, { n with stale := n.stale + 1, first := first })
  else if x.owner != t then foreign
  else if x.state = 1 then (s.addO (Od.busyFrees t) 1, { n with busy := n.busy + 1, first := first })
  else (s.freeBuf b, { n with freed := n.freed + 1 })

/-- A FREE of handles and its FREE_RESULT. -/
def State.doFree (s : State) (t : Nat) (hs : List Nat) (p : RetPath) : State :=
  let (s, n) := hs.foldl (freeOne t) (s, {})
  (s.notice p t 0 4 0 n.freed n.stale n.foreign n.busy n.first).pumpOutput

/-- Whether a handle names a buffer RELEASED to a tenant. -/
def State.released (s : State) (t h : Nat) : Bool :=
  let x := s.buf (h % 65536)
  x.state == 2 && x.owner == t && bits h 23 16 == t && x.gen == bits h 31 24

/-- A FETCH (R477). -/
def State.doFetch (s : State) (t id : Nat) (hs : List Nat) (p : RetPath) : State :=
  if hs.isEmpty then
    if (s.idWin t).look id = 1 then s.resend t id else s.notice p t id 6 0 0 0 0 0 0
  else
    let miss := hs.filter fun h => !s.released t h
    let s := applyAll (fun s h => applyAll (fun s (m : Msg) => s.sendMsg { m with dup := true }) s (s.buf (h % 65536)).msgs) s
      (hs.filter fun h => s.released t h)
    if miss.isEmpty then s else s.notice p t 0 6 0 miss.length 0 0 0 (miss.headD 0)

/-- FREE (R482, R483): as for CANCEL; on PCIe the handle list's bytes come with the command. -/
def execFree (port : Fin 3) (f : Fin 256) (list : List Byte) (s : State) : Res :=
  .next <|
    if port.val < 2 then
      s.takeMsg port.val 3 fun s d w => s.doFree (mTenant w) (handlesOf (mPayload d.bytes)) (srcPath port.val d)
    else match (s.fn f.val).cmds with
      | [] => s
      | c :: rest =>
        if c.typ != 3 then s else
        (s.setFn f.val { s.fn f.val with cmds := rest }).doFree f.val (handlesOf (sliceB list 0 c.len)) { port := 2 }

/-- FETCH (R477). -/
def execFetch (port : Fin 3) (f : Fin 256) (list : List Byte) (s : State) : Res :=
  .next <|
    if port.val < 2 then
      s.takeMsg port.val 4 fun s d w => s.doFetch (mTenant w) (mId w) (handlesOf (mPayload d.bytes)) (srcPath port.val d)
    else match (s.fn f.val).cmds with
      | [] => s
      | c :: rest =>
        if c.typ != 4 then s else
        (s.setFn f.val { s.fn f.val with cmds := rest }).doFetch f.val c.id (handlesOf (sliceB list 0 c.len)) { port := 2 }

/-- BUFFER_FAULT records of the beat that ends (R483). -/
def State.bufFaultRecs (s : State) : State :=
  let s := applyAll (fun s (e : Nat × List Nat) =>
    let r := s.mkRec 0x10 0 (dataDown [(16, e.1), (16, sat 16 (e.2.getD 0 0)), (16, sat 16 (e.2.getD 1 0)), (32, e.2.getD 2 0)])
    s.writeRec { r with beat := e.2.getD 4 0, offset := e.2.getD 3 0 }) s s.gate.bufFault
  { s with gate := { s.gate with bufFault := [] } }

/-! ## Expiries and disabling (R481, R484) -/

/-- OUTPUT_RETAIN_EXPIRY (R481): a RELEASED buffer not freed within OUTPUT_RETAIN_BEATS is freed by the module. -/
def execOutputRetainExpiry (b : Fin 65536) (s : State) : Res :=
  .next <|
    let x := s.buf b.val
    guardS (x.state == 2 && decide (x.rel + s.o Od.outputRetainBeats ≤ s.beat)) s fun s =>
      ((s.addO (Od.retainExpired x.owner) 1).freeBuf b.val).pumpOutput

/-- TENANT_DISABLE (R484): a tenant whose FOREIGN_FREES have reached the limit is disabled. -/
def execTenantDisable (t : Fin 256) (s : State) : Res :=
  .next <|
    let lim := s.o Od.foreignFreeLimit
    guardS (t.val != 0 && lim != 0 && decide (lim ≤ s.o (Od.foreignFrees t.val)) && s.o (Od.tenantState t.val) == 1) s fun s =>
      let mine := tKeys s.reqs fun _ x => x.tenant == t.val && (x.state == 1 || x.state == 2)
      let s := s.record 0x11 t.val (dataDown [(16, t.val), (8, 1), (16, sat 16 mine.length)])
      let s := (applyAll (fun s r => s.endReq r 0x06) s mine).tidySteps
      let s := applyAll State.dropAssembly s (s.assemblies.filter fun a => a.tenant == t.val)
      let s := (s.setO (Od.tenantState t.val) 0).setO (Od.disableCause t.val) 1
      { s with preCancels := s.preCancels.filter fun p => p.tenant != t.val }

end Sys2Proof.Machine
end

