-- ==== Sys2Proof/Machine/Chain.lean ====
section
/-!
DEFINITION. The Lufaide chain and the beat: the repeater, enumeration, the delay measurement, links, beat words and holdover
(17_chain_beat_dictionary.md R517 to R533).  Nothing here happens before standby power is applied.
-/
namespace Sys2Proof.Machine

/-- BEAT_STATE values (R546). -/
def bsUNLOCKED : Nat := 0
def bsLOCKING : Nat := 1
def bsLOCKED : Nat := 2
def bsHOLDOVER : Nat := 3
def bsSTANDALONE : Nat := 4

def State.beatState (s : State) : Nat := s.o Od.beatState

/-! ## The repeater (R518 to R520) -/

/-- Whether a frame has the format of R520: VERSION, FTYPE, LENGTH and the reserved bits. -/
def frameOk (w : Nat) (payload : List Byte) : Bool :=
  fVersion w == 1 && decide (1 ≤ fType w ∧ fType w ≤ 8) && bits w 45 0 == 0 && fLen w == payload.length && decide (fLen w ≤ 1032)

/-- Whether the repeater forwards a frame: not one to the module's own address, nor the hop-local types (R518). -/
def State.forwards (s : State) (w : Nat) : Bool :=
  !(s.o Od.chainAddress != 0 && fDst w == s.o Od.chainAddress) && fType w != 3 && fType w != 4

/-- A frame forwarded to the other link, when it is up, and counted. -/
def State.repeatFrame (s : State) (up : Bool) (f : Frame) : State :=
  if s.linkUp (if up then 0 else 1) then (s.sendFrame up f).addO Od.framesRepeated 1 else s

/-- FRAME_REPEAT (R518, R519, R520): a frame arrives, travelling up or down; `fcs` says whether its frame check sequence is right.  The
repeater forwards it, corrupt or not, before its end is known; a corrupt frame and one of a wrong format are discarded and counted.
ENUMERATE and PATH_DOWN are forwarded by their own rows. (DEDUCED; log entry 58) -/
def execFrameRepeat (up : Bool) (hdr : BitVec 128) (payload : List (BitVec 8)) (fcs : Bool) (s : State) : Res :=
  .next <|
    let w := hdr.toNat
    guardS (s.power.stbyOn && s.linkUp (if up then 1 else 0)) s fun s =>
      let good := fcs && frameOk w payload
      let s := if good then s else s.addO Od.framesDiscarded 1
      if good && (fType w == 1 || fType w == 7) then s
      else if s.forwards w then s.repeatFrame up { header := w, payload := payload, corrupt := !fcs }
      else s

/-! ## Enumeration (R522 to R524) -/

/-- The address changes; a record says so (R525, R614). -/
def State.setAddress (s : State) (a : Nat) : State :=
  let old := s.o Od.chainAddress
  let s := (s.setO Od.chainAddress a).setO Od.chainState (if a = 0 then 0 else 1)
  if a = old then s else s.chainRecord old

/-- ENUM_REPLY (R523). -/
def State.enumReply (s : State) (late : Bool) : State :=
  let v := packFields [(8, s.o Od.chainAddress), (1, b2n (!s.linkUp 1)), (1, b2n late), (22, 0), (32, s.o Od.deviceType),
    (16, s.o Od.stepping), (32, s.o Od.firmwareRelease), (32, s.o Od.upstreamDelay),
    (48, if s.beatState = bsLOCKED then s.beat else 0)]
  s.ownFrame 2 0 true 0 0 0 (beBytes 24 v)

/-- An ENUMERATE acts: HOP and ACC_DELAY of its sender; with BEAT_SOURCE 1 the modules below take their timing from here (R643). (DEDUCED; log entry 58) -/
def State.enumerate (s : State) (hop acc : Nat) : State :=
  let s := (s.breakPath 0 3).addO Od.enumerations 1
  let d := acc + s.o Od.upstreamDelay
  let s := s.setO Od.beatDelay d
  if hop + 1 ≤ 126 then
    let s := s.setAddress (hop + 1)
    let f : Frame := { header := frameHead 1 127 (hop + 1) false 0 0 0 8
                       payload := beBytes 8 (packFields [(8, hop + 1), (32, if s.o Od.beatSource = 1 then 6000 else d + 6000), (24, 0)]) }
    (s.repeatFrame false f).enumReply false
  else (s.setAddress 0).enumReply true

/-- ENUMERATE (R521, R522, R524): it waits until the upstream delay is measured. -/
def execEnumerate (hop : Fin 256) (acc : Fin 4294967296) (s : State) : Res :=
  .next <| guardS (s.power.stbyOn && s.linkUp 0) s fun s =>
    if s.chain.measured then s.enumerate hop.val acc.val
    else { s with chain := { s.chain with enumWait := some (hop.val, acc.val) } }

/-! ## The delay of the upstream cable (R521, R525) -/

/-- PROBE (R521): the downstream neighbour's PROBE is answered with an ECHO that names the module's address. -/
def execProbe (src : Fin 128) (s : State) : Res :=
  .next <| guardS (s.power.stbyOn && s.linkUp 1) s fun s => s.ownFrame 4 src.val false 0 0 0 []

/-- ECHO (R521, R525): the measurement is complete: the delay in ps, and the address the neighbour's ECHO names.  A module in HOLD keeps
its address when the delay is within 10 ns of the recorded one and the neighbour is the one above it. -/
def execEcho (delay : Fin 4294967296) (src : Fin 128) (s : State) : Res :=
  .next <| guardS (s.power.stbyOn && s.linkUp 0 && !s.chain.measured) s fun s =>
    let d := delay.val
    let old := s.chain.oldDelay
    let s := s.setO Od.upstreamDelay d
    let s := { s with chain := { s.chain with measured := true } }
    let s := if s.o Od.chainState != 2 then s
      else if d ≤ old + 10000 ∧ old ≤ d + 10000 ∧ src.val + 1 = s.o Od.chainAddress then s.setO Od.chainState 1
      else s.setAddress 0
    match s.chain.enumWait with
    | none => s
    | some (h, a) => { s with chain := { s.chain with enumWait := none } }.enumerate h a

/-- PATH_DOWN (R525): a lock held over the chain breaks with cause LINK, and the frame goes on downstream. -/
def execPathDown (src : Fin 128) (s : State) : Res :=
  .next <| guardS (s.power.stbyOn && s.linkUp 0) s fun s =>
    (s.breakPath 0 2).repeatFrame false { header := frameHead 7 127 src.val false 0 0 0 0 }

/-! ## Links (R519, R521, R525) -/

/-- A link goes down while a frame is on its way: the outgoing frame ends with a corrupt frame check sequence (R519). -/
def State.cutFrame (s : State) (up : Bool) : State :=
  let cut (fs : List Frame) : List Frame := match fs with
    | f :: r => { f with corrupt := true } :: r
    | [] => []
  if up then { s with chain := { s.chain with sentUp := cut s.chain.sentUp } }
  else { s with chain := { s.chain with sentDown := cut s.chain.sentDown } }

/-- UPSTREAM_LINK_UP (R521): the link is up, and a PROBE begins the measurement. -/
def execUpstreamLinkUp (s : State) : Res :=
  .next <| guardS (s.power.stbyOn && !s.linkUp 0) s fun s =>
    let s := s.setO Od.linkState (setBitTo (s.o Od.linkState) 0 true)
    let s := { s with chain := { s.chain with measured := false, enumWait := none } }
    (s.chainRecord (s.o Od.chainAddress)).ownFrame 3 0 true 0 0 0 []

/-- UPSTREAM_LINK_DOWN (R525): the chain-held lock breaks, PATH_DOWN goes downstream, an address is held.  `cutUp` and `cutDown` say
whether a frame was being forwarded in that direction. -/
def execUpstreamLinkDown (cutUp cutDown : Bool) (s : State) : Res :=
  .next <| guardS (s.power.stbyOn && s.linkUp 0) s fun s =>
    let s := s.setO Od.linkState (setBitTo (s.o Od.linkState) 0 false)
    let s := if cutUp then s.cutFrame true else s
    let s := if cutDown then s.cutFrame false else s
    let s := s.breakPath 0 2
    let s := { s with chain := { s.chain with enumWait := none } }
    let s := if s.o Od.chainAddress = 0 then s else
      let s := s.ownFrame 7 127 false 0 0 0 []
      let held := s.o Od.chainState == 2
      let c := { s.chain with oldDelay := if held then s.chain.oldDelay else s.o Od.upstreamDelay
                              hold := if held then s.chain.hold else s.beat }
      { s with chain := c }.setO Od.chainState 2
    s.chainRecord (s.o Od.chainAddress)

/-- ADDRESS_HOLD_EXPIRY (R525): the hold has run out and the link is still down: address 0. -/
def execAddressHoldExpiry (s : State) : Res :=
  .next <| guardS (s.o Od.chainState == 2 && !s.linkUp 0 && decide (s.chain.hold + s.o Od.addressHoldBeats ≤ s.beat)) s fun s =>
    s.setAddress 0

/-- DOWNSTREAM_LINK_UP (R523): the module is no longer the tail. -/
def execDownstreamLinkUp (s : State) : Res :=
  .next <| guardS (s.power.stbyOn && !s.linkUp 1) s fun s =>
    (s.setO Od.linkState (setBitTo (s.o Od.linkState) 1 true)).chainRecord (s.o Od.chainAddress)

/-- DOWNSTREAM_LINK_DOWN (R519, R523). -/
def execDownstreamLinkDown (cutUp cutDown : Bool) (s : State) : Res :=
  .next <| guardS (s.power.stbyOn && s.linkUp 1) s fun s =>
    let s := s.setO Od.linkState (setBitTo (s.o Od.linkState) 1 false)
    let s := if cutUp then s.cutFrame true else s
    let s := if cutDown then s.cutFrame false else s
    s.chainRecord (s.o Od.chainAddress)

/-! ## The beat (R526 to R533) -/

/-- BEAT_STATE changes; entries to and exits from HOLDOVER and a resync write a record: old and new state, old count on a resync. -/
def State.setBeatState (s : State) (st : Nat) (resync : Option Nat) : State :=
  let old := s.beatState
  let s := s.setO Od.beatState st
  if (old == bsHOLDOVER || st == bsHOLDOVER || resync.isSome) && old != st then
    s.record 0x0A 0 (dataDown [(8, old), (8, st), (48, resync.getD (2 ^ 48 - 1))])
  else s

/-- Entry to HOLDOVER (R528, R529). -/
def State.enterHoldover (s : State) : State :=
  let s := ((s.addO Od.beatLosses 1).setO Od.holdoverBeats 0).setBeatState bsHOLDOVER none
  { s with chain := { s.chain with slewing := false, invalid := 0, srcCount := none, wordSeen := false, newPeriod := none } }

/-- Fields of a beat word (R526). -/
def bwCount (w : Nat) : Nat := bits w 63 16
def bwPeriod (w : Nat) : Nat := bits w 15 9
def bwHoldover (w : Nat) : Bool := bitAt w 8

/-- A beat word with its CRC. -/
def beatWord (count period : Nat) (holdover : Bool) : Nat :=
  let v := packFields [(48, count), (7, period), (1, b2n holdover)]
  v * 256 + crc8 (beBytes 7 v)

/-- Whether the CRC holds and PERIOD_US is in range. -/
def wordOk (w : Nat) : Bool := crc8 (beBytes 7 (w / 256)) == w % 256 && decide (2 ≤ bwPeriod w ∧ bwPeriod w ≤ 100)

/-- A word in LOCKING: the eighth in a row with ascending counts and periods within 0.1 % locks (R528). (DEDUCED; log entry 59) -/
def State.lockingWord (s : State) (w gap : Nat) : State :=
  let c := s.chain
  let p := c.runPer
  let good := wordOk w && decide (c.runLast < bwCount w ∧ gap ≤ p * 1000000 + p * 1000 ∧ p * 1000000 ≤ gap + p * 1000)
  let n := if good then c.runLen + 1 else 0
  let c := if wordOk w then { c with runLen := n, runLast := bwCount w, runPer := bwPeriod w } else { c with runLen := 0 }
  let s := { s with chain := c }
  if n < 8 then s else
  let s := ((s.setO Od.beatCount (bwCount w)).setO Od.beatPeriodUs (bwPeriod w)).setO Od.beatState bsLOCKED
  { s with chain := { s.chain with hasCount := true, invalid := 0, newPeriod := none } }

/-- A word in LOCKED (R526, R528): `off` is its marker less the predicted instant. (DEDUCED; log entry 59) -/
def State.lockedWord (s : State) (w : Nat) (off : Int) : State :=
  let lim : Int := (s.periodUs * 10000 : Nat)
  if wordOk w && bwCount w == s.beat + 1 && decide (-lim ≤ off ∧ off ≤ lim) then
    let s := s.setO Od.beatOffset (ofI32 off)
    let s := { s with chain := { s.chain with invalid := 0, newPeriod := some (bwPeriod w) } }
    if bwHoldover w then s.enterHoldover else s
  else if s.chain.invalid + 1 < 3 then { s with chain := { s.chain with invalid := s.chain.invalid + 1 } }
  else s.enterHoldover

/-- A valid word in HOLDOVER (R530, R531): the local boundary nearest its marker is the next one when the marker comes before it. -/
def State.holdoverWord (s : State) (w : Nat) (off : Int) : State :=
  let near := if off < 0 then s.beat + 1 else s.beat
  let s := (s.setO Od.beatOffset (ofI32 off)).addO Od.beatCountMismatch (b2n (bwCount w != near))
  { s with chain := { s.chain with srcCount := some (bwCount w), wordSeen := true
                                   slewing := bwCount w == near && !bwHoldover w
                                   newPeriod := if bwCount w == near then some (bwPeriod w) else none } }

/-- BEAT_WORD (R526, R528, R530, R531): a word arrives on the beat input: `off` ps is its marker less the predicted instant, `gap` ps the
time since the marker before.  A module that is neither in HOLDOVER nor STANDALONE repeats it on BEAT_OUT. -/
def execBeatWord (word : BitVec 64) (off : Int) (gap : Nat) (s : State) : Res :=
  .next <|
    let w := word.toNat
    guardS (s.power.stbyOn && (s.o Od.beatSource != 1 || s.pinWith 1)) s fun s =>
      let st := s.beatState
      let lim : Int := (s.periodUs * 10000 : Nat)
      let ok := wordOk w && (st != bsLOCKED || (bwCount w == s.beat + 1 && decide (-lim ≤ off ∧ off ≤ lim)))
      let s := if ok then s else s.addO Od.beatWordErrors 1
      let s := if st == bsHOLDOVER || st == bsSTANDALONE then s else { s with chain := { s.chain with beatOut := w } }
      if st == bsUNLOCKED then
        if ok then
          { s with chain := { s.chain with runLen := 0, runLast := bwCount w, runPer := bwPeriod w } }.setO Od.beatState bsLOCKING
        else s
      else if st == bsLOCKING then s.lockingWord w gap
      else if st == bsLOCKED then s.lockedWord w off
      else if !ok then { s with chain := { s.chain with srcCount := none, slewing := false } }
      else if st == bsHOLDOVER then s.holdoverWord w off
      else { s with chain := { s.chain with srcCount := some (bwCount w), wordSeen := true } }

/-- BEAT_MARKER_MISSING (R528): no marker within 1.5 periods of the prediction. -/
def execBeatMarkerMissing (s : State) : Res :=
  .next <| guardS (s.beatState == bsLOCKED) s State.enterHoldover

/-- Every stake with a segment on another module is stopped, or may run again (R224, R529). -/
def State.stopSpanning (s : State) (stop : Bool) : State :=
  { s with stakes := tMap {} s.stakes fun _ x =>
      if !x.used || x.segs ≤ 1 then x
      else if stop then { x with stopped := true, state := 4 }
      else if x.stopped then { x with stopped := false, state := if x.step.isSome then 2 else 1 } else x }

/-- HOLDOVER_LIMIT (R529). -/
def execHoldoverLimit (s : State) : Res :=
  .next <| guardS (s.beatState == bsHOLDOVER && s.o Od.holdoverExpired == 0 && decide (s.o Od.holdoverLimit ≤ s.o Od.holdoverBeats)) s
    fun s => (s.setO Od.holdoverExpired 1).stopSpanning true

/-- What a boundary does to the beat: the count advances or takes the source's, a new period takes effect, HOLDOVER_BEATS counts, the
lock returns once the offset is below 20 ns, and the module's own words go out (R526 to R533). -/
def State.beatAdvance (s : State) : State :=
  let st := s.beatState
  if st = bsUNLOCKED ∨ st = bsLOCKING then s else
  let old := s.beat
  let resync := s.chain.resync && s.chain.srcCount.isSome
  let s := match s.chain.srcCount with
    | some c => if resync then (s.setO Od.beatCount (c + 1)).setBeatState bsLOCKED (some old) else s.addO Od.beatCount 1
    | none => s.addO Od.beatCount 1
  let s := match s.chain.newPeriod with
    | some p => s.setO Od.beatPeriodUs p
    | none => s
  let off := s.o Od.beatOffset
  let back := st == bsHOLDOVER && s.chain.slewing && (decide (off < 20000) || decide (2 ^ 32 - 20000 < off))
  let s := if back && !resync then s.setBeatState bsLOCKED none else s
  let s := if back || resync then ((s.setO Od.holdoverBeats 0).setO Od.holdoverExpired 0).stopSpanning false
    else if st = bsHOLDOVER then s.addO Od.holdoverBeats 1 else s
  let c := { s.chain with resync := false, newPeriod := none, wordSeen := false, slewing := s.chain.slewing && !back && !resync
                          srcCount := if s.chain.wordSeen && !back && !resync then s.chain.srcCount else none }
  let c := if s.beatState = bsHOLDOVER ∨ s.beatState = bsSTANDALONE
    then { c with beatOut := beatWord s.beat s.periodUs (s.beatState == bsHOLDOVER) } else c
  { s with chain := c }

end Sys2Proof.Machine
end

