-- ==== Sys2Proof/Machine/PinOut.lean ====
section
/-!
DEFINITION. What the side-band pins drive (22_module_package_pins.md R640, R641, R646 to R648; OD B001:04 PIN_LEVELS).
-/
namespace Sys2Proof.Machine

/-- FAULT_N is held low (R641). -/
def State.faultLow (s : State) : Bool :=
  decide (0x80 ≤ s.o Od.bootStep) || (List.range 98).any (fun p => s.pdState p == pdFAILED) || s.o Od.indexState == 5 ||
    s.o Od.mirrorState == 2 || s.o Od.mirrorState == 3 || s.pins.faultPulse

/-- ALERT_N is held low (R641); BEAT_STATE 3 is HOLDOVER. -/
def State.alertLow (s : State) : Bool :=
  s.interlockOpen || decide (i16 (s.o Od.derateStart) < i16 (s.o Od.inletTemp)) || s.o Od.beatState == 3 || s.o Od.throttleActive == 1 ||
    s.pins.alertPulse

/-- READY is high (R641). -/
def State.readyHigh (s : State) : Bool := s.o Od.bootStep == 11 && !s.boot.draining

/-- Whether EXTEST, CLAMP and HIGHZ take effect: the main input switch open, at BOOT_STEP 4 or below (R648). -/
def State.tapMayDrive (s : State) : Bool := !s.power.mainSw && decide (s.o Od.bootStep ≤ 4)

/-- The level pin n drives: none for an input, a released or neutral pin, and for the words and frames of BEAT_OUT and UART_TX, whose
level at one instant the spec does not give. -/
def State.driven (s : State) (n : Nat) : Option Bool :=
  if s.pins.jtag = 3 ∨ s.pins.jtag = 4 then some (bitAt s.pins.bsr n)
  else if s.pins.jtag = 5 then none
  else if !s.boot.pinsLive || tHas s.pins.holds n then none
  else match s.o (Od.sbFunction n) with
    | 3 => if s.faultLow then some false else none
    | 4 => if s.alertLow then some false else none
    | 6 => if bitAt (s.o Od.gpioDirection) n then some (bitAt (s.o Od.gpioOutput) n) else none
    | 9 => some s.pins.syncHigh
    | 10 => some s.readyHigh
    | _ => none

/-- PIN_LEVELS (R565): the level sampled on each pin: what the pin drives, and for the others the level from outside. -/
def State.levels (s : State) (outside : Nat) : Nat :=
  (List.range 12).foldl (fun v n => v + 2 ^ n * b2n ((s.driven n).getD (bitAt outside n))) 0

end Sys2Proof.Machine
end

