-- ==== Sys2Proof/Machine/Views.lean ====
section
/-!
DEFINITION. What a READ of an object returns (18_dictionary_map.md R547 to R565): objects kept in `od`, objects of a path's _SELECT
(R549), the views that are computed when they are read, and the BLOBs.
-/
namespace Sys2Proof.Machine

/-! ## _SELECT objects (R549) -/

/-- The objects whose names end in _SELECT, with the defined field of each. -/
def selects : List (Nat × Nat) :=
  [(Od.pageSelect, 2 ^ 18), (Od.granuleSelect, 2 ^ 14), (Od.seqSelect, 2 ^ 12), (Od.stakeSelect, 2 ^ 9), (Od.slotTableSelect, 2 ^ 20),
   (Od.listSelect, 2 ^ 18), (Od.storeSelect, 2 ^ 16), (Od.poolDecoderSelect, 2 ^ 8), (Od.taSelect, 2 ^ 16), (Od.recordSelect, 2 ^ 64)]

def isSelect (k : Nat) : Bool := selects.any fun e => e.1 == k

/-- What a _SELECT object of a path holds. -/
def State.sel (s : State) (p k : Nat) : Nat := tGet (odDefault k) (s.path p).sels k

/-! ## Turn arbiters (R510, R513) -/

/-- Whether an arbiter instance has a requester. -/
def taExists (v : Nat) : Bool :=
  let i := v / 256
  let r := v % 256
  if i < 3 then decide (r < 64) else if i = 3 then decide (r < 35) else if i = 4 then decide (r < 3) else if i = 5 then true
  else decide (16 ≤ i ∧ i < 48 ∧ r < 10)

/-- The level of a requester: a class's ADM_LEVEL, SPOKE_REQ_LEVEL, or what TA_LEVEL wrote. -/
def State.taLevelOf (s : State) (v : Nat) : Nat :=
  let i := v / 256
  let r := v % 256
  if i < 3 then s.o (Od.admLevel r)
  else if 16 ≤ i then s.o (Od.spokeReqLevel r)
  else
    let d := if i = 3 then (if r = 0 then 11 else if r = 1 then 13 else if r = 34 then 4 else 12)
      else if i = 4 then (if r = 0 then 15 else if r = 1 then 10 else 6) else 8
    tGet d s.arb.levels v

/-- Whether TA_LEVEL is RO for an instance. -/
def taFixed (v : Nat) : Bool := decide (v / 256 < 3 ∨ 16 ≤ v / 256)

/-- Whether the model counts an instance's grants: the gates' decisions (DESIGN CHOICE; log entry 3 for the others). -/
def taCounted (v : Nat) : Bool := decide (v / 256 < 3)

/-! ## Views -/

/-- PAGE_INFO (R173). -/
def Page.info (x : Page) : Nat :=
  packFields [(8, x.heat), (32, x.touch), (32, x.present), (5, x.target), (3, x.cls), (8, x.owner), (8, x.pub)]

/-- GRANULE_INFO (R174). -/
def Gran.info (x : Gran) : Nat :=
  packFields [(3, x.state), (8, x.heat), (18, x.page), (5, x.piece), (8, x.owner), (2, x.res), (4, x.readers), (16, 0)]

/-- STAKE_INFO (R222). -/
def State.stakeInfo (s : State) (n : Nat) : Nat :=
  let x := s.stake n
  if !x.used then 0 else
  let st := if s.o (Od.modelState x.model) = 4 then 5 else x.state
  packFields [(6, x.model), (3, x.plan), (3, st), (3, x.segs - 1), (1, b2n x.lead), (32, x.arrays.foldl (fun v a => setBitTo v a true) 0),
    (32, x.epoch), (48, x.beat)]

/-- SEQ_INFO (R275). -/
def Seq.info (y : Seq) : Nat :=
  if y.state = 0 then 0 else
  packFields [(4, y.infoState), (8, y.tenant), (6, y.model), (6, y.draft), (1, b2n y.spec), (9, y.skSlot.getD 0), (4, y.depth),
    (20, y.kvLen), (20, y.drLen), (20, y.prompt.length), (20, y.out.length), (18, y.pend), (4, y.props.length), (16, y.adopted),
    (16, y.gState), (1, b2n y.gEn), (6, y.gSlot), (4, y.vocab), (1, b2n y.skSlot.isSome), (24, 0), (48, y.last)]

/-- LIST_INFO (R395). -/
def State.listInfo (s : State) (l : Nat) : Nat :=
  let x := s.index
  let y := x.list l
  let v := y.cur
  let st := if y.merge.isSome then 2 else if y.damaged then 3 else if v.ents.isEmpty && y.open_.isEmpty then 0 else 1
  packFields [(3, st), (32, v.num), (40, v.ents.length), (24, x.mainPages v.ents.length), (32, y.open_.length), (16, y.runs), (32, y.tombs),
    (29, 0), (48, v.flip)]

/-- STORE_INFO (R382). -/
def StoreObj.info (x : StoreObj) : Nat :=
  packFields [(64, x.len), (8, x.state), (56, 0), (384, if x.state = 2 then x.digest else 0)]

/-- POOL_DECODER of a range (R500). -/
def State.decoder (s : State) (i : Nat) : Nat := tGet 0 s.pool.decs i

/-- Objects that report a measurement or a count of which the model keeps no cause: flow, temperatures of the coolant, input voltages (R560),
corrected codewords of a spoke (R396), cycles a tenant's pool reads waited for credit (R502). (DESIGN CHOICE; log entry 71) -/
def isMeasured (k : Nat) : Bool :=
  [Od.coolantFlow, Od.inletTemp, Od.outletTemp, Od.nandPlateTemp, Od.mainInputMv, Od.standbyInputMv].contains k ||
    (List.range 32).any (fun i => k == Od.spokeEccCorrected i) || (List.range 256).any fun t => k == Od.poolCreditWaits t

/-- Whether a key is the DIE_TEMP of a die that is not powered (R560); the sensors of RN always read. (DEDUCED; log entry 72) -/
def State.coldDie (s : State) (k : Nat) : Bool :=
  (List.range 6).any fun d => k == Od.dieTemp d && d != 4 && !s.power.mainSw

/-- A page as PAGE_INFO shows it: every page of a failed stack is retired, a FREE one too (R205, R606). -/
def State.pageSeen (s : State) (g : Nat) : Page :=
  let x := s.page g
  if x.cls = cFREE ∧ s.mem.stacksOut.contains (g / 24576) then { x with cls := cRETIRED } else x

/-- What a READ returns, by the path it comes by; values the model does not count are free (DESIGN CHOICE; log entry 3). -/
def State.readObj (s : State) (p k : Nat) : State × Nat :=
  let ta := s.sel p Od.taSelect
  if isSelect k then (s, s.sel p k)
  else if k = Od.pageInfo then (s, (s.pageSeen (s.sel p Od.pageSelect)).info)
  else if k = Od.granuleInfo then (s, (s.gran (s.sel p Od.granuleSelect)).info)
  else if k = Od.seqInfo then (s, (s.seq (s.sel p Od.seqSelect)).info)
  else if k = Od.stakeInfo then (s, s.stakeInfo (s.sel p Od.stakeSelect))
  else if k = Od.listInfo then (s, s.listInfo (s.sel p Od.listSelect))
  else if k = Od.listHeat then (s, (s.index.list (s.sel p Od.listSelect)).heat)
  else if k = Od.listCached then
    let y := s.index.list (s.sel p Od.listSelect)
    (s, b2n (y.copies.any fun c => c.full && c.marked && c.version == y.cur.num))
  else if k = Od.storeInfo then (s, (s.storeObj (s.sel p Od.storeSelect)).info)
  else if k = Od.poolDecoder then (s, s.decoder (s.sel p Od.poolDecoderSelect))
  else if k = Od.recordNext then (s, s.recs.next)
  else if k = Od.recordOldest then (s, s.recs.next - 65536)
  else if k = Od.staleRepliesTotal then (s, ((List.range 64).map fun m => s.o (Od.modelStaleReplies m)).sum % 2 ^ 64)
  else if s.coldDie k then (s, 0x8000)
  else if isMeasured k || (List.range 6).any (fun d => k == Od.dieTemp d) then (s.took, s.freeV (odWidth k))
  else if k = Od.pcieIds then (s, Config.pcieIds % 2 ^ 32)
  else if k = Od.pinLevels then (s.took, s.levels (s.freeV 12))
  else if k = Od.taLevel then (s, s.taLevelOf ta)
  else if k = Od.taGrants ∧ taCounted ta then (s, tGet 0 s.arb.grants ta)
  else if k = Od.taGrants ∨ k = Od.taWaitCycles ∨ k = Od.taLongestWait ∨ k = Od.taHint then (s.took, s.freeV (odWidth k))
  else (s, s.o k)

/-! ## BLOBs -/

/-- The 64 bytes of a record (R613). -/
def Rec.bytes (r : Rec) : List Byte :=
  let body := leBytes 60 (packFields [(64, r.number), (48, r.beat), (15, r.offset), (1, b2n r.standby), (8, r.kind), (4, r.writer), (4, 0),
    (16, r.boot), (16, r.supp), (16, 0), (288, r.data)])
  leBytes 4 (crc32c body) ++ body

/-- RECORD_READ from a record on (R563). -/
def State.recordRead (s : State) (sel : Nat) : List Byte :=
  let f := max sel (s.recs.next - 65536)
  ((s.recs.ring.filter fun r => decide (f ≤ r.number ∧ r.number ≤ f + 1023)).reverse).flatMap Rec.bytes

/-- An entry of the measurement log (R627): DIGEST in its own order of bytes. -/
def MeasEntry.bytes (e : MeasEntry) : List Byte :=
  leBytes 6 e.beat ++ leBytes 4 e.info ++ leBytes 4 e.object ++ beBytes 48 e.digest ++ leBytes 1 e.event ++ leBytes 1 e.slot

/-- MEASUREMENT_LOG (R628): its 512-byte header and the entries. -/
def State.measLog (s : State) : List Byte :=
  leBytes 8 s.boot.log.length ++ leBytes 8 (b2n s.boot.logOver) ++ ((List.range 8).flatMap fun i => beBytes 48 (s.o (Od.measurement i))) ++
    leBytes 112 0 ++ s.boot.log.flatMap MeasEntry.bytes

/-- The bytes of a BLOB for a path (R540). -/
def State.readBlob (s : State) (p k : Nat) : List Byte :=
  let fam := k / 65536
  if k = Od.slotTable then
    let v := s.sel p Od.slotTableSelect
    (List.range 256).flatMap fun i => beBytes 2 (s.slotOwner v i)
  else if k = Od.storeData then
    let x := s.storeObj (s.sel p Od.storeSelect)
    if x.state = 2 then x.bytes else []
  else if k = Od.recordRead then s.recordRead (s.sel p Od.recordSelect)
  else if k = Od.measurementLog then s.measLog
  else if k = Od.updateImage then (if s.updateTarget = 0 then s.boot.imageA else s.boot.imageB)
  else if fam = 0x71 then
    let tb := s.table (k / 256 % 256)
    if k % 256 = 0x0F then (List.range (cdiv tb.rows 256)).flatMap fun g => beBytes 2 (tGet 0 tb.groups g)
    else tb.ring.reverse.flatMap fun r => beBytes 4 r
  else tGet [] s.blobs k

end Sys2Proof.Machine
end

