-- ==== Sys2Proof/Machine/Commit.lean ====
section
/-!
DEFINITION. What a write of an object is checked for and what it does: ranges and the checks of the objects' chapters, the effect of each
object, the switch of side-band pins, and a commit's set as a whole (17_chain_beat_dictionary.md R541, R542; 18_dictionary_map.md R549, R556, R566).
-/
namespace Sys2Proof.Machine

/-- Whether a key is subindex lo to hi of some index from a to b. -/
def keyIn (k a b lo hi : Nat) : Bool := decide (a ≤ k / 256 ∧ k / 256 ≤ b ∧ lo ≤ k % 256 ∧ k % 256 ≤ hi)

/-! ## Reserved bits (R14, R549) -/

/-- A PLACEMENT byte without its reserved bits (R216). -/
def placeByte (b : Nat) : Nat :=
  if bitAt b 6 then b / 64 * 64 + b % 8 else b / 64 * 64 + b % 32

/-- An entry of a ladder without its reserved bits (R248, R249). -/
def ladderEntry (stage e : Nat) : Nat :=
  let a := ladAction e
  let par := if a = 4 then ladParam e
    else if stage = 3 ∧ a = 1 then b2n (bitAt e 15) * 2 ^ 15 + e % 64 else if 1 ≤ a ∧ a ≤ 3 then 0 else ladParam e
  packFields [(4, a), (6, ladModel e), (6, 0), (16, par)]

/-- A value as it is kept: reserved bits read 0. -/
def normObj (k v : Nat) : Nat :=
  if isSelect k then v % (((selects.find? fun e => e.1 == k).map (·.2)).getD 1)
  else if k = Od.mailboxRights then v % 32
  else if keyIn k 0x3100 0x313F 2 2 then v % 4
  else if keyIn k 0x3100 0x313F 4 4 then v % 64
  else if keyIn k 0x3100 0x313F 0x10 0x13 then
    packFields ((List.range 4).map fun l => (32, ladderEntry (k % 256 - 0x10) (ladEntry v l)))
  else if keyIn k 0x5000 0x503F 5 5 then packFields ((List.range 256).map fun i => (8, placeByte (octElem v 256 1 i)))
  else if keyIn k 0x5000 0x503F 0x20 0x20 then v / 2 ^ 24 * 2 ^ 24
  else if keyIn k 0x70A0 0x70BF 0x0B 0x0B then v % 4
  else if keyIn k 0x7140 0x714F 0x10 0x17 then v / 2 ^ 104 * 2 ^ 104
  else if k = Od.poolDecoder then v / 2 ^ 20 * 2 ^ 20 + v % 2
  else if k = Od.gpioDirection ∨ k = Od.gpioOutput then v % 4096
  else v

/-! ## Ranges -/

/-- The ranges the object tables give. -/
def ranges : List (Nat × Nat × Nat × Nat × Nat × Nat) := [
  (0x1100, 0x1100, 0x13, 0x13, 1000, 10000000), (0x1100, 0x1100, 0x1B, 0x1B, 2, 100), (0x1200, 0x1200, 3, 3, 100, 10000000),
  (0x2001, 0x2001, 0x01, 0x62, 0, 2), (0x2100, 0x2100, 5, 9, 800, 1500), (0x3000, 0x30FF, 1, 1, 0, 1), (0x3100, 0x313F, 1, 1, 0, 1),
  (0x3100, 0x313F, 3, 3, 0, 15), (0x3100, 0x313F, 8, 8, 1, 1000), (0x3100, 0x313F, 0x0B, 0x0B, 0, 15), (0x4000, 0x4000, 0x20, 0x20, 0, 196607),
  (0x50F1, 0x50F1, 3, 3, 0, 15), (0x50F1, 0x50F1, 4, 4, 1, 15), (0x6000, 0x6000, 4, 4, 1, 262144), (0x6000, 0x6000, 0x20, 0x20, 2, 1000),
  (0x6000, 0x6000, 0x21, 0x21, 1, 1024), (0x6000, 0x6000, 0x2B, 0x2B, 1, 32), (0x6040, 0x607F, 2, 2, 1, 2), (0x7000, 0x700F, 2, 2, 1, 2),
  (0x7000, 0x700F, 6, 6, 0, 31), (0x7040, 0x707F, 2, 2, 1, 2), (0x7040, 0x707F, 7, 7, 0, 31), (0x70A0, 0x70BF, 5, 5, 64, 131072),
  (0x70A0, 0x70BF, 6, 6, 1, 1024), (0x70A0, 0x70BF, 7, 7, 1, 16384), (0x70A0, 0x70BF, 0x0A, 0x0A, 0, 2), (0x7100, 0x713F, 2, 2, 1, 2),
  (0x7140, 0x714F, 1, 1, 0, 1), (0x7140, 0x714F, 2, 2, 0, 63), (0x7140, 0x714F, 3, 3, 0, 8), (0x7140, 0x714F, 6, 6, 1, 508),
  (0x71F0, 0x71F0, 2, 2, 1, 2 ^ 24), (0x71F1, 0x71F1, 2, 2, 1000, 20000), (0x71F1, 0x71F1, 0x0A, 0x0A, 0, 7), (0xA000, 0xA000, 5, 5, 0, 1),
  (0xB000, 0xB000, 1, 0x0C, 0, 10), (0xB001, 0xB001, 1, 1, 0, 1), (0xB001, 0xB001, 5, 5, 9600, 3000000)]

/-- Whether a value lies in its object's range, or is one of the values it may take. -/
def inRange (k v : Nat) : Bool :=
  (ranges.all fun r => !keyIn k r.1 r.2.1 r.2.2.1 r.2.2.2.1 || decide (r.2.2.2.2.1 ≤ v ∧ v ≤ r.2.2.2.2.2)) &&
  (k != Od.codeWidth || v == 256 || v == 512 || v == 1024 || v == 2048) &&
  (k != Od.indexSpineSlots || v == 0 || v == 128) && (k != Od.indexRimSlots || v == 0 || v == 160) &&
  (k != Od.indexStackSlots || v == 0 || v == 48) && (k != Od.taSelect || taExists v) &&
  (!keyIn k 0x7100 0x713F 3 3 || v % 4096 == 0)

/-! ## The checks of the chapters -/

/-- Whether a ladder is valid (R249): its entries up to the first ABSENT are of actions its stage has. -/
def ladderOk (stage v : Nat) : Bool :=
  (List.range (ladLen v)).all fun l =>
    let e := ladEntry v l
    let a := ladAction e
    a == 1 || (stage == 1 && a == 4 && decide (1 ≤ ladParam e)) || (stage == 2 && a == 2) || (stage == 3 && a == 3)

/-- Whether a class may open (R247). -/
def State.mayOpen (s : State) (c : Nat) : Bool :=
  (List.range 6).all fun i => !bitAt (s.o (Od.kinds c)) i ||
    (stagesOf (i + 1)).all fun st => decide (0 < ladLen (s.o (Od.ladderEncode c + st)))

/-- Whether a bulk class keeps its deadlines at 0 or above its STEP_BUDGET (R247). -/
def State.bulkOk (s : State) (c : Nat) : Bool :=
  !bitAt (s.o (Od.classFlags c)) 0 ||
    [s.o (Od.firstDeadline c), s.o (Od.e2eDeadline c)].all fun d => d == 0 || decide (s.o (Od.stepBudget c) < d)

/-- Whether an ENABLED feature set is the only one of its model and its features are valid (R435, R436). -/
def State.fsetOk (s : State) (i : Nat) : Bool :=
  s.o (Od.fsetState i) != 1 ||
    (((List.range 16).all fun j => j == i || s.o (Od.fsetState j) != 1 || s.o (Od.fsetModel j) != s.o (Od.fsetModel i)) &&
     (List.range (s.o (Od.fsetFeatures i))).all fun f =>
       let v := s.o (Od.feature i f)
       let src := bits v 121 120
       let lsb := bits v 116 110
       let n := bits v 109 104
       src == 0 || (src != 3 && decide (1 ≤ n ∧ n ≤ 32 ∧ lsb + n ≤ (if src = 1 then 64 else 128))))

/-- Whether a template body is valid (R450, R451, R14). (DEDUCED; log entry 75) -/
def bodyValid (bs : List Byte) : Bool :=
  let items := (List.range (bs.length / 4)).map fun i => beAt bs (4 * i) 4
  let ops := items.map fun w => bits w 31 28
  let count (l : List Nat) (op : Nat) : Nat := (l.filter fun o => o == op).length
  let after := (ops.dropWhile fun o => o != 2).drop 1
  let block := after.takeWhile fun o => o != 3
  bs.length % 4 == 0 && decide (1 ≤ items.length ∧ items.length ≤ 1024) && (items.all fun w => decide (bits w 31 28 ≤ 5) && bits w 27 18 == 0) &&
    decide (count ops 1 ≤ 1) && count ops 2 == 1 && count ops 3 == 1 && decide (block.length < after.length) &&
    count ops 4 == 1 && count block 4 == 1 && decide (count ops 5 ≤ 1) && count ops 5 == count block 5 && count block 1 == 0

/-- Whether an earlier body of a template still has admitted requests (R450). -/
def State.oldBody (s : State) (t : Nat) : Bool :=
  let cur := (s.tmplVal t).body
  s.reqs.any fun e => e.2.state == 2 && e.2.tmpl == some t && e.2.tmplV.body != cur

/-- Whether a loaded or loading plan with a BIN_WIDTH other than `w` holds the code width (R218). -/
def State.widthHeld (s : State) (w : Nat) : Bool :=
  (List.range 64).any fun m => decide (1 ≤ s.o (Od.modelState m) ∧ s.o (Od.modelState m) ≤ 4) && (match (s.model m).plan with
    | some p => p.bin != 0 && p.bin != w
    | none => false)

/-- Whether a domain may not be set KEEP_OFF (R556). -/
def State.pdInUse (s : State) (p : Nat) : Bool :=
  (s.stakes.any fun e => e.2.used && e.1 != 511 && (s.stakeDomains e.1).contains p) ||
  ((decide (85 ≤ p ∧ p ≤ 88) || decide (92 ≤ p ∧ p ≤ 95)) && (s.mounted || s.o Od.indexState == 2)) ||
  (decide (p < 84) && (p % 21 == 18 || p % 21 == 19) &&
    s.mem.pages.any fun e => pdStack (e.1 / 24576) == p && e.2.cls != cFREE && e.2.cls != cRETIRED) ||
  s.power.serdesOn.contains p || p == 84 || p == 91

/-- What an INDEX_COMMAND is checked for (R218, R363, R394). -/
def State.indexCmdOk (s : State) (v : Nat) : Bool :=
  let st := s.o Od.indexState
  let x := s.index
  if v = 1 then
    (st == 0 || st == 5 || st == 6) && decide (456 ≤ s.o Od.spareBlocks) && decide (8 ≤ s.o Od.indexBlocks) &&
      decide (s.o Od.modelStoreBlocks + s.o Od.indexBlocks + s.o Od.spareBlocks ≤ 5461) && s.o Od.modelStoreBlocks == x.fmtStore
  else if v = 2 then st == 6 && !s.widthHeld x.fmtWidth
  else v == 3 && s.mounted

/-- The pins a function may be put on (R640). -/
def pinAccepts (n fn : Nat) : Bool :=
  if fn = 1 ∨ fn = 2 then decide (n < 4) else if fn = 7 ∨ fn = 8 then decide (4 ≤ n) else true

/-- An UPDATE_COMMAND in a state that takes it (R630). -/
def State.updateOk (s : State) (v : Nat) : Bool :=
  let st := s.o Od.updateState
  if v = 1 then st == 2 && !s.boot.draining else if v = 2 then st == 4 && !s.boot.draining
  else v == 3 && (st == 2 || (st == 4 && !s.boot.draining))

/-- Objects a write is checked for on the state it leaves. -/
def State.leftOk (s : State) (k : Nat) : Bool :=
  let n := k / 256 % 256
  if k = Od.listCachePages ∨ k = Od.rowCachePages ∨ keyIn k 0x3000 0x30FF 0x13 0x13 then s.stackFits
  else if keyIn k 0x3100 0x313F 1 1 then s.o k == 0 || s.mayOpen n
  else if keyIn k 0x3100 0x313F 2 2 || keyIn k 0x3100 0x313F 6 8 then s.bulkOk n
  else if keyIn k 0x3100 0x313F 0x10 0x13 then ladderOk (k % 256 - 0x10) (s.o k)
  else if keyIn k 0x7140 0x714F 7 7 then decide (s.o (Od.queryMax (n % 16)) + 4 ≤ s.o k ∧ s.o k ≤ 512) && s.fsetOk (n % 16)
  else if keyIn k 0x7140 0x714F 1 0x17 then s.fsetOk (n % 16)
  else true

/-- Checks of the objects' chapters against the state before a write. (DEDUCED; log entry 60) -/
def State.objOk (s : State) (w : SWrite) : Bool :=
  let k := w.key
  let v := normObj k w.val
  let n := k / 256 % 256
  inRange k v &&
  (if k = Od.beatResync then
     v == 1 && (s.beatState == bsHOLDOVER || s.beatState == bsSTANDALONE) && (match s.chain.srcCount with
       | some c => decide (s.beat < c)
       | none => false)
   else if keyIn k 0x2001 0x2001 1 0x62 then v != 2 || !s.pdInUse (k % 256 - 1)
   else if keyIn k 0x5000 0x503F 2 2 then
     let st := s.o (Od.modelState n)
     (v == 1 && st == 0) || (v == 2 && st == 3) || (v == 3 && st == 5)
   else if keyIn k 0x5000 0x503F 0x20 0x20 then
     let op := bits v 127 120
     (op == 1 || op == 2) && bits v 111 96 != 0xFFFF && s.o (Od.modelState n) == 3 && (s.model n).sk.isNone
   else if k = Od.indexCommand then s.indexCmdOk v
   else if k = Od.codeWidth then v == s.o k || !s.widthHeld v
   else if k = Od.updateCommand then s.updateOk v
   else if keyIn k 0x70A0 0x70BF 4 4 then bodyValid w.blob && !s.oldBody (n % 32)
   else true)

/-! ## Effects -/

/-- A slot command of a vocabulary, grammar or table slot (R333, R347, R431): LOADING, REPLACING or CLOSING refuse it with BUSY. (DEDUCED; log entry 14) -/
def State.slotCommand (s : State) (k v stKey reasonKey kind busy : Nat) : State :=
  let st := s.o stKey
  if st = 1 ∨ st = 3 ∨ st = 4 then
    let s := s.setO reasonKey busy
    if v = 1 then s.imageRec kind (k / 256 % 64) busy else s
  else
    let s := s.setO k v
    if v = 1 then s.setO stKey (if st = 0 then 1 else 3) else s

/-- A key takes effect (R462). -/
def State.putKey (s : State) (k v : Nat) : State :=
  let t := k / 256 % 256
  let s := s.setO k v
  s.setO (Od.keyState t) (setBitTo (s.o (Od.keyState t)) (k % 256 - 0x20) (v != 0))

/-- PEER_ENABLE (R509, R571): an enabled link trains again; the SerDes group is enabled while one of its links is. -/
def State.putPeerEnable (s : State) (l v : Nat) : State :=
  let s := s.setO (Od.peerEnable l) v
  let s := if v = 1 ∧ (s.o (Od.peerState l) = 0 ∨ s.o (Od.peerState l) = 4) ∧ s.pdOn 97 then s.setO (Od.peerState l) 1 else s
  let on := (List.range 8).any fun i => s.o (Od.peerEnable i) == 1
  let rest := s.power.serdesOn.filter fun p => p != 97
  { s with power := { s.power with serdesOn := if on then rest ++ [97] else rest } }

/-- A write takes effect. -/
def State.putObj (s : State) (w : SWrite) : State :=
  let k := w.key
  let v := normObj k w.val
  let n := k / 256 % 256
  if keyIn k 0x3000 0x30FF 1 1 then
    let s := s.setO k v
    if v = 1 then (s.setO (Od.foreignFrees n) 0).setO (Od.disableCause n) 0 else s
  else if keyIn k 0x3000 0x30FF 0x20 0x21 then s.putKey k v
  else if k = Od.beatResync then { s with chain := { s.chain with resync := true } }
  else if keyIn k 0x5000 0x503F 2 2 then
    let s := s.setO k v
    if v = 1 then s.setO (Od.modelState n) 1
    else if v = 2 then s.setModel n { s.model n with unloadAsked := true } else s
  else if keyIn k 0x5000 0x503F 0x20 0x20 then
    let c : SkCmd := { op := bits v 127 120, tenant := bits v 119 112, id := bits v 111 96, ver := bits v 95 88, wait := bits v 87 56
                       source := bits v 55 24, started := s.beat }
    ((s.setO k v).setModel n { s.model n with sk := some c }).skeinStatus n 1 0 none
  else if k = Od.indexCommand then
    let s := s.setO k v
    if v = 1 then s.setO Od.indexState 1 else if v = 2 then s.setO Od.indexState 2
    else s.setIndex { s.index with unmount := true }
  else if keyIn k 0x6040 0x607F 2 2 then
    let x := n - 0x40
    (s.setO k v).setIndex { s.index with dictPend := x :: s.index.dictPend.filter fun j => j != x }
  else if keyIn k 0x7000 0x700F 2 2 then s.slotCommand k v (Od.vocabState n) (Od.vocabLoadReason n) 0 7
  else if keyIn k 0x7040 0x707F 2 2 then s.slotCommand k v (Od.grammarSlotState (n - 0x40)) (Od.grammarLoadReason (n - 0x40)) 1 8
  else if keyIn k 0x7100 0x713F 2 2 then s.slotCommand k v (Od.tableState n) (Od.tableLoadReason n) 2 5
  else if keyIn k 0x70A0 0x70BF 4 4 then
    ({ s with blobs := tIns k w.blob s.blobs }).setO (Od.templateState (n - 0xA0)) 1
  else if keyIn k 0x51F8 0x51FF 4 4 then s.putPeerEnable (n - 0xF8) v
  else if k = Od.poolDecoder then { s with pool := { s.pool with decs := tSet 0 s.pool.decs w.sel v } }
  else if k = Od.taLevel then { s with arb := { s.arb with levels := tIns w.sel v s.arb.levels } }
  else s.setO k v

/-! ## Side-band pins (R566, R646) -/

/-- Whether a pin carries a function in an assignment. -/
def State.carries (s : State) (n fn : Nat) : Bool := s.o (Od.sbFunction n) == fn

/-- The combinations of R566. -/
def State.pinsOk (s : State) : Bool :=
  let count (fn : Nat) : Nat := ((List.range 12).filter fun n => s.carries n fn).length
  decide (count 1 ≤ 1) && decide (count 5 ≤ 1) && ((count 7 == 0) == (count 8 == 0)) &&
    (s.o Od.beatSource == 0 || count 1 == 1) && (List.range 12).all fun n => pinAccepts n (s.o (Od.sbFunction n))

/-- The switch of the pins whose functions a commit changed, `old` being the state before it (R566, R643, R646). -/
def State.switchPins (s old : State) : State :=
  let moved := (List.range 12).filter fun n => s.o (Od.sbFunction n) != old.o (Od.sbFunction n)
  let src := s.o Od.beatSource != old.o Od.beatSource
  let beatPin (x : State) : List Nat := (List.range 12).filter fun n => x.carries n 1
  let lost := src || (old.o Od.beatSource == 1 && beatPin old != beatPin s)
  let s := if lost && s.beatState == bsLOCKED then s.enterHoldover else s
  if moved.isEmpty || !s.boot.pinsLive then s else
  let s := (applyAll (fun s n => { s with pins := { s.pins with holds := tIns n (some (old.o (Od.sbFunction n))) s.pins.holds } }) s moved).addO
    Od.pinSwitches moved.length
  let s := if moved.any fun n => old.carries n 9 then
      { s with pins := { s.pins with syncHigh := s.pins.syncHigh && (List.range 12).any fun n => s.carries n 9 && !moved.contains n } } else s
  if s.power.throttle && !(List.range 12).any fun n => s.carries n 5 then
    { s with power := { s.power with throttle := false } }.setO Od.throttleActive 0
  else s

/-! ## A whole set (R542) -/

/-- Whether a key is RWP. -/
def isRwp (k : Nat) : Bool := match objRow? (k / 256) (k % 256) with
  | some r => r.acc == .rwp
  | none => false

/-- Whether a write concerns the pins (R566). -/
def isPinKey (k : Nat) : Bool := keyIn k 0xB000 0xB000 1 0x0C || k == Od.beatSource

/-- The writes in order, each checked against the state the ones before it left: the state, or the position, from 1, of the first that
fails. -/
def tryWrites : List SWrite → Nat → State → Nat ⊕ State
  | [], _, s => .inr s
  | w :: r, i, s =>
    if !s.objOk w then .inl i else
    let s := s.putObj w
    if !s.leftOk w.key then .inl i else tryWrites r (i + 1) s

/-- A set as a whole, the pins' combinations with it: the position of the set's last pin write stands for a combination that fails. (DEDUCED; log entry 60) -/
def trySet (ws : List SWrite) (s : State) : Nat ⊕ State :=
  match tryWrites ws 1 s with
  | .inl i => .inl i
  | .inr t =>
    if (ws.any fun w => isPinKey w.key) && !t.pinsOk then
      .inl (((ws.zip (List.range ws.length)).filter fun w => isPinKey w.1.key).foldl (fun _ w => w.2 + 1) 1)
    else .inr (t.switchPins s)

/-- RWP values go to the parameter area, and slot 3 is extended; the digest of the area is a free value, because the spec gives its
layout no bytes (R542, R625; DESIGN CHOICE; log entry 3). -/
def State.putRwp (s : State) (ws : List SWrite) : State :=
  let ps := ws.filter fun w => isRwp w.key
  if ps.isEmpty then s else
  let s := { s with dict := { s.dict with rwp := applyAll (fun (t : Tbl Nat) (w : SWrite) => tIns w.key (s.o w.key) t) s.dict.rwp ps } }
  s.took.measure 3 0x04 (s.freeV 384) 0 0

end Sys2Proof.Machine
end

