-- ==== Sys2Proof/Machine/Dict.lean ====
section
/-!
DEFINITION. The messages of the dictionary's two paths and the session lock (17_chain_beat_dictionary.md R534 to R545, R664, R665).  A
message of the chain is its row's operands; one of the mailbox is what MB_GO left in MB_REQUEST.  Every row takes a message only when
the message is of its operation; a MALFORMED one is taken by DICT_READ.
-/
namespace Sys2Proof.Machine

/-- STATUS values (R538). -/
def rsOK : Nat := 0
def rsSTAGED : Nat := 1
def rsNO_OBJECT : Nat := 2
def rsNO_SUBINDEX : Nat := 3
def rsACCESS : Nat := 4
def rsLOCK_REQUIRED : Nat := 5
def rsRIGHTS : Nat := 6
def rsLENGTH : Nat := 7
def rsREFUSED : Nat := 8
def rsLOCK_HELD : Nat := 9
def rsSEGMENT : Nat := 10
def rsSTAGE_FULL : Nat := 11
def rsBUSY : Nat := 12
def rsNOT_POWERED : Nat := 13
def rsMALFORMED : Nat := 14

/-- A message (R520, R537): its path, whether it is a broadcast, SESSION, LOCK_HANDLE and TAG, the operation word, the data after it,
whether it is malformed as a whole. -/
structure DMsg where
  p       : Nat := 0
  bcast   : Bool := false
  session : Nat := 0
  handle  : Nat := 0
  tag     : Nat := 0
  word    : Nat := 0
  data    : List Byte := []
  bad     : Bool := false
  deriving DecidableEq, Repr

def DMsg.op (m : DMsg) : Nat := bits m.word 63 56
def DMsg.key (m : DMsg) : Nat := bits m.word 55 32
def DMsg.param (m : DMsg) : Nat := bits m.word 31 0

/-- An answer: STATUS, the value of PARAM where it is not the request's, the data. -/
structure Ans where
  status : Nat := 0
  param  : Option Nat := none
  data   : List Byte := []
  deriving DecidableEq, Repr

/-- A header and payload as a message. -/
def mkDMsg (p w : Nat) (payload : List Byte) : DMsg :=
  let m : DMsg := { p := p, bcast := p == 0 && fDst w == 127, session := fSession w, handle := fHandle w, tag := fTag w
                    word := beAt payload 0 8, data := payload.drop 8 }
  let known := decide (1 ≤ m.op ∧ m.op ≤ 8) && (m.op != 8 || decide (1 ≤ m.param ∧ m.param ≤ 6))
  { m with bad := payload.length < 8 || !known || (m.bcast && 2 < m.op) || !frameOk w payload || fType w != 5 }

/-- The message a row finds on a path: the operands' frame when it is addressed to the module, or the mailbox's (R518, R534). -/
def State.findMsg (s : State) (p : Nat) (hdr : BitVec 128) (payload : List Byte) : Option DMsg :=
  if p = 0 then
    let w := hdr.toNat
    let own := s.o Od.chainAddress
    if s.power.stbyOn && s.linkUp 0 && decide (3 ≤ s.o Od.bootStep) && own != 0 && frameOk w payload && fType w == 5 &&
        (fDst w == own || fDst w == 127) then some (mkDMsg 0 w payload) else none
  else if bitAt s.dict.mbStatus 31 then
    let bs := s.dict.mbReq.take s.dict.mbReqLen
    some (mkDMsg 1 (beAt bs 0 16) (bs.drop 16))
  else none

/-- Which row takes a message: an operation, a sub-operation of LOCK from 80 on; 1 for one that is malformed. -/
def DMsg.row (m : DMsg) : Nat := if m.bad then 1 else if m.op = 8 then 80 + m.param else m.op

/-! ## Replies (R537 to R539) -/

/-- A reply leaves by its path. -/
def State.sendReply (s : State) (p : Nat) (r : Reply) : State :=
  let payload := beBytes 8 r.word ++ r.data
  if p = 0 then s.ownFrame 6 0 true r.session 0 r.tag payload
  else
    let bs := beBytes 16 (frameHead 6 0 0 false r.session 0 r.tag payload.length) ++ payload
    { s with dict := { s.dict with mbResp := bs, mbStatus := 2 ^ 30 + bs.length % 2048, msixDone := s.dict.msixDone + 1 } }

/-- A message is answered; access errors are counted; a reply is kept unless the message was not executed. -/
def State.answer (s : State) (p session tag word : Nat) (keep : Bool) (a : Ans) : State :=
  let w := packFields [(8, a.status), (24, bits word 55 32), (32, a.param.getD (bits word 31 0))]
  let r : Reply := { session := session, tag := tag, word := w, data := a.data }
  let s := if 2 ≤ a.status ∧ a.status ≤ 14 then s.addO Od.dictErrors 1 else s
  let x := s.path p
  let s := if keep then s.setPath p { x with kept := (r :: x.kept).take 16 } else s
  s.sendReply p r

/-- Whether a path's session holds the lock with a handle (R541, R545). -/
def State.lockedBy (s : State) (m : DMsg) : Bool :=
  s.holdsLock m.p && s.dict.lockSession == m.session && s.o Od.lockHandle == m.handle

/-- A message's session is the path's, one before it ended (R535). -/
def State.newSession (s : State) (m : DMsg) : State :=
  let old := (s.path m.p).session
  let s := if old.isSome && old != some m.session then s.endSession m.p 4 else s
  s.setPath m.p { s.path m.p with session := some m.session }

/-- A message of the lock's holder restarts the lease. -/
def State.renewed (s : State) (m : DMsg) : State := if s.lockedBy m then s.setO Od.lockRemaining s.dict.lease else s

/-- The state in which a message of no earlier reply is carried out. -/
def State.opened (s : State) (m : DMsg) : State := ((s.addO Od.dictRequests 1).newSession m).renewed m

/-- The reply of a path's session with a message's TAG, kept from before. -/
def State.keptFor (s : State) (m : DMsg) : Option Reply := (s.path m.p).kept.find? fun r => r.session == m.session && r.tag == m.tag

/-- Whether a message is a COMMIT whose set is still fixed. -/
def State.committing (s : State) (m : DMsg) : Bool :=
  s.dict.fixed.any fun x => x.path == m.p && x.session == m.session && x.tag == m.tag

/-- A message is processed (R535, R539, R543): `full` is how many messages of its path wait before it.  No answer: the reply of a COMMIT
comes at its boundary. -/
def State.serve (s : State) (m : DMsg) (full : Nat) (f : State → DMsg → State × Option Ans) : State :=
  let s := s.addO Od.dictRequests 1
  if m.p = 0 ∧ 16 ≤ full then (s.addO Od.dictBusy 1).answer m.p m.session m.tag m.word false { status := rsBUSY } else
  let s := s.newSession m
  match s.keptFor m with
  | some r => s.sendReply m.p r
  | none =>
    if s.committing m then s else
    let s := s.renewed m
    let r := if m.bad then (s, some { status := rsMALFORMED }) else f s m
    match r.2 with
    | some a => r.1.answer m.p m.session m.tag m.word true a
    | none => r.1

/-- A row of the dictionary: it takes the message that is its own. -/
def State.dictRow (s : State) (row p : Nat) (hdr : BitVec 128) (payload : List Byte) (full : Nat)
    (f : State → DMsg → State × Option Ans) : State :=
  match s.findMsg p hdr payload with
  | none => s
  | some m => if m.row = row then s.serve m full f else s

/-! ## Objects (R536, R548) -/

/-- The row of the object a message names, or the status that says why there is none (R539, R548). -/
def State.lookup (s : State) (m : DMsg) : Nat ⊕ ObjRow :=
  let idx := m.key / 256
  let sub := m.key % 256
  if s.o Od.bootStep ≠ 11 ∧ !standbyIndex idx then .inl rsNOT_POWERED else
  match objFam? idx with
  | none => .inl rsNO_OBJECT
  | some f =>
    if sub = 0 then .inr ⟨0, 0, .u8, .ro, .const f.sub0⟩
    else match f.row? sub with
      | some r => .inr r
      | none => .inl rsNO_SUBINDEX

/-- Whether a path has a right of R536. -/
def State.hasRight (s : State) (p mask : Nat) : Bool :=
  p == 0 || (List.range 5).all fun i => !bitAt mask i || bitAt (s.o Od.mailboxRights) i

/-- The rights a write needs: bits of MAILBOX_RIGHTS; bit 5 is held by the chain alone. -/
def writeRights (k : Nat) (r : ObjRow) : Nat :=
  if keyIn k 0x3000 0x30FF 0x20 0x21 then 8
  else if k = Od.storeDigest ∨ k = Od.storeData ∨ k = Od.updateImage then 20
  else if r.acc = .rwl ∨ r.acc = .rwp then 4 else 2

/-- What bars a write, if anything: access kind, broadcast, rights, lock (R536 to R538, R541). (DEDUCED; log entry 15) -/
def State.writeGate (s : State) (m : DMsg) (k : Nat) (r : ObjRow) : Option Nat :=
  let lockKind := r.acc == .rwl || r.acc == .rwp
  if r.acc = .ro ∨ (k = Od.taLevel ∧ taFixed (s.sel m.p Od.taSelect)) then some rsACCESS
  else if m.bcast && r.acc != .rw then some rsMALFORMED
  else if m.p != 0 && (k == Od.mailboxRights || !s.hasRight m.p (writeRights k r)) then some rsRIGHTS
  else if lockKind && !s.lockedBy m then some rsLOCK_REQUIRED
  else none

/-- The value of an object as it travels (R664): TEXT has as many bytes as it holds. -/
def encodeVal (r : ObjRow) (v : Nat) : List Byte :=
  let bs := beBytes r.ty.bytes v
  match r.ty with
  | .text _ => bs.dropWhile fun b => b == 0
  | _ => bs

/-! ## READ and WRITE -/

/-- What a READ answers. (DEDUCED; log entry 15) -/
def State.doRead (s : State) (m : DMsg) : State × Option Ans :=
  match s.lookup m with
  | .inl st => (s, some { status := st })
  | .inr r =>
    if r.ty = .blob ∨ r.acc = .wo then (s, some { status := rsACCESS })
    else if !s.hasRight m.p 1 then (s, some { status := rsRIGHTS })
    else if m.key % 256 = 0 then (s, some { data := encodeVal r (r.dflt.val 0 0) })
    else
      let x := s.readObj m.p m.key
      (x.1, some { data := encodeVal r x.2 })

/-- DICT_READ (R537): a READ of the path returns an object's value; a message of no known operation is answered MALFORMED. -/
def execDictRead (path : Fin 2) (hdr : BitVec 128) (payload : List (BitVec 8)) (full : Nat) (s : State) : Res :=
  .next (s.dictRow 1 path.val hdr payload full State.doRead)

/-- Bytes a staged write holds. -/
def SWrite.bytes (w : SWrite) : Nat := if w.blob.isEmpty then odWidth w.key / 8 else w.blob.length

/-- LOCK_STAGED follows the staged set. -/
def State.setStaged (s : State) (ws : List SWrite) : State :=
  ({ s with dict := { s.dict with staged := ws } }).setO Od.lockStaged ws.length

/-- A write is staged (R541, R542): sets fixed by COMMIT count against the limits. -/
def State.stage (s : State) (w : SWrite) : State × Ans :=
  let all := s.dict.staged ++ s.dict.fixed.flatMap (·.writes)
  if 512 ≤ all.length ∨ 1048576 < (all.map SWrite.bytes).sum + w.bytes then (s, { status := rsSTAGE_FULL })
  else (s.setStaged (s.dict.staged ++ [w]), { status := rsSTAGED })

/-- Objects whose RW and WO writes wait for the next beat boundary (R272, R301, R394, R456, R462, R486, R515). -/
def waitsBoundary (k : Nat) : Bool :=
  [0x31F0, 0x31F1, 0x50F1, 0x6000, 0x71F0, 0x71F1].contains (k / 256) || keyIn k 0x3000 0x30FF 0x20 0x21

/-- The selection of a path an object's write takes with it. -/
def selKey (k : Nat) : Nat := if k = Od.taLevel then Od.taSelect else if k = Od.poolDecoder then Od.poolDecoderSelect else Od.storeSelect

/-- A value of an object that has passed its gate (R537, R541, R542, R665). -/
def State.writeVal (s : State) (m : DMsg) (k : Nat) (r : ObjRow) (bs : List Byte) : State × Ans :=
  let v := beNat bs
  let w : SWrite := { key := k, val := if r.ty = .blob then 0 else v, blob := if r.ty = .blob then bs else [], sel := s.sel m.p (selKey k) }
  if r.ty != .blob && bs.length != r.ty.bytes then (s, { status := rsLENGTH })
  else if r.ty = .bool ∧ 1 < v then (s, { status := rsREFUSED })
  else if r.acc = .rwl ∨ r.acc = .rwp then s.stage w
  else if !s.objOk w then (s, { status := rsREFUSED })
  else if isSelect k then
    let x := s.path m.p
    (s.setPath m.p { x with sels := tSet (odDefault k) x.sels k (normObj k v) }, {})
  else if !(s.putObj w).leftOk k then (s, { status := rsREFUSED })
  else if waitsBoundary k then ({ s with dict := { s.dict with deferred := s.dict.deferred ++ [w] } }, {})
  else (s.putObj w, {})

/-- What a WRITE answers and does. -/
def State.doWrite (s : State) (m : DMsg) : State × Option Ans :=
  match s.lookup m with
  | .inl st => (s, some { status := st })
  | .inr r =>
    if r.ty = .blob then (s, some { status := rsACCESS }) else
    match s.writeGate m m.key r with
    | some st => (s, some { status := st })
    | none =>
      let x := s.writeVal m m.key r m.data
      (x.1, some x.2)

/-- DICT_WRITE (R537, R541, R545, R549, R665). -/
def execDictWrite (path : Fin 2) (hdr : BitVec 128) (payload : List (BitVec 8)) (full : Nat) (s : State) : Res :=
  .next (s.dictRow 2 path.val hdr payload full State.doWrite)

/-! ## Segmented transfers (R540) -/

def segBytes : Nat := 1024

/-- What a SEG_READ_INIT answers: the length of a snapshot of the object. -/
def State.doSegReadInit (s : State) (m : DMsg) : State × Option Ans :=
  let s := s.dropSeg m.p
  match s.lookup m with
  | .inl st => (s, some { status := st })
  | .inr r =>
    if r.acc = .wo then (s, some { status := rsACCESS })
    else if !s.hasRight m.p 1 then (s, some { status := rsRIGHTS })
    else
      let x : State × List Byte :=
        if r.ty = .blob then (s, s.readBlob m.p m.key)
        else if m.key % 256 = 0 then (s, encodeVal r (r.dflt.val 0 0))
        else
          let y := s.readObj m.p m.key
          (y.1, encodeVal r y.2)
      let g : Seg := { key := m.key, total := x.2.length, data := x.2 }
      (x.1.setPath m.p { x.1.path m.p with seg := some g }, some { data := beBytes 8 x.2.length })

/-- SEG_READ_INIT (R540, R563, R628). -/
def execSegReadInit (path : Fin 2) (hdr : BitVec 128) (payload : List (BitVec 8)) (full : Nat) (s : State) : Res :=
  .next (s.dictRow 3 path.val hdr payload full State.doSegReadInit)

/-- What a segment without a transfer is answered: NOT_POWERED when main power's loss has discarded the transfer (R540, R551). -/
def State.noSeg (s : State) (m : DMsg) : State × Option Ans :=
  if (s.path m.p).cut = some m.key then (s.dropSeg m.p, some { status := rsNOT_POWERED })
  else (s, some { status := rsSEGMENT, param := some 0 })

/-- What a SEG_READ answers. -/
def State.doSegRead (s : State) (m : DMsg) : State × Option Ans :=
  let x := s.path m.p
  match x.seg with
  | none => s.noSeg m
  | some g =>
    if g.isWrite then (s, some { status := rsSEGMENT, param := some 0 })
    else if cdiv g.total segBytes ≤ m.param then (s, some { status := rsSEGMENT, param := some (cdiv g.total segBytes) })
    else (s.setPath m.p { x with seg := some { g with idle := 0 } }, some { data := (g.data.drop (segBytes * m.param)).take segBytes })

/-- SEG_READ (R540): segments in any order and any number of times. -/
def execSegRead (path : Fin 2) (hdr : BitVec 128) (payload : List (BitVec 8)) (full : Nat) (s : State) : Res :=
  .next (s.dictRow 4 path.val hdr payload full State.doSegRead)

/-- Whether a model-store object is named by something loaded, or a load in progress reads it (R382). -/
def State.storeNamed (s : State) (n : Nat) : Bool :=
  ((List.range 64).any fun m =>
    (s.o (Od.modelState m) != 0 && s.o (Od.planObject m) == n) ||
    (match (s.model m).sk with | some c => c.op == 1 && c.source == n | none => false) ||
    (s.o (Od.modelState m) != 0 && s.o Od.centroidObject == n && (match (s.model m).plan with | some p => p.kind == 4 | none => false))) ||
  ((List.range 512).any fun k => s.o (Od.skeinState k) != 0 && s.o (Od.skeinSource k) == n) ||
  ((List.range 16).any fun v => s.o (Od.vocabState v) != 0 && s.o (Od.vocabSource v) == n) ||
  ((List.range 64).any fun g => s.o (Od.grammarSlotState g) != 0 && s.o (Od.grammarSource g) == n) ||
  ((List.range 64).any fun x => s.o (Od.textDictState x) != 0 && s.o (Od.textDictSource x) == n)

/-- RELEASE and DIGEST of an image's header; the bytes of DIGEST stand in their own order (R622, R664). -/
def imageRel (bs : List Byte) : Nat := leBits (bs.take 128) 959 928
def imageDig (bs : List Byte) : Nat := beNat (sliceB bs 64 48)

/-- An image in NOR is valid (R622): the header's fields, its reserved bits, the digest of its body. -/
def imageOk (stepping : Nat) (bs : List Byte) : Bool :=
  let n := leBits (bs.take 128) 927 896
  decide (128 ≤ bs.length) && leBits (bs.take 128) 1023 992 == 0x56384657 && leBits (bs.take 128) 991 976 == 1 &&
    leBits (bs.take 128) 975 960 == stepping && decide (1 ≤ n ∧ n ≤ 67108736) && leBits (bs.take 128) 511 0 == 0 &&
    decide (128 + n ≤ bs.length) && imageDig bs == sha384 (sliceB bs 128 n)

/-- The whole of a write transfer is received: the object's own checks. -/
def State.endWrite (s : State) (m : DMsg) (g : Seg) : State × Ans :=
  let bs := g.data
  match objRow? (g.key / 256) (g.key % 256) with
  | none => (s, { status := rsNO_OBJECT })
  | some r =>
    match s.writeGate { m with bcast := false } g.key r with
    | some st => (s.dropSeg m.p, { status := st })
    | none =>
      let s := s.setPath m.p { s.path m.p with seg := none }
      if g.key = Od.storeData then
        let d := sha384 bs
        if d = s.o Od.storeDigest then
          let x : StoreObj := { state := 2, len := bs.length, digest := d, bytes := bs }
          ((s.setStoreObj g.sel x).measure 6 0x0A d g.sel 0, {})
        else (s.setStoreObj g.sel {}, { status := rsREFUSED })
      else if g.key = Od.updateImage then
        let i := s.updateTarget
        if imageOk (s.o Od.stepping) bs then
          (((s.setImage i bs true (imageRel bs)).setUpdate 2 i).measure 7 0x0B (imageDig bs) (imageRel bs) 0, {})
        else ((s.setImage i bs false 0).setUpdate 3 i, { status := rsREFUSED })
      else s.writeVal m g.key r bs

/-- What bars a write transfer at its INIT (R382, R629). -/
def State.segBarred (s : State) (k sel : Nat) : Bool :=
  (k == Od.storeData && s.storeNamed sel) || (k == Od.updateImage && (s.o Od.updateState == 4 || s.boot.draining))

/-- What a SEG_WRITE_INIT answers: a transfer of no bytes ends at once. -/
def State.doSegWriteInit (s : State) (m : DMsg) : State × Option Ans :=
  let s := s.dropSeg m.p
  match s.lookup m with
  | .inl st => (s, some { status := st })
  | .inr r =>
    match s.writeGate m m.key r with
    | some st => (s, some { status := st })
    | none =>
      let sel := s.sel m.p (selKey m.key)
      if m.data.length ≠ 8 then (s, some { status := rsLENGTH })
      else if s.segBarred m.key sel then (s, some { status := rsREFUSED })
      else
        let g : Seg := { isWrite := true, key := m.key, sel := sel, total := beNat m.data }
        let s := if m.key = Od.storeData then s.setStoreObj sel { state := 1 }
          else if m.key = Od.updateImage then (s.setImage s.updateTarget [] false 0).setUpdate 1 s.updateTarget else s
        let s := s.setPath m.p { s.path m.p with seg := some g }
        if g.total = 0 then
          let x := s.endWrite m g
          (x.1, some x.2)
        else (s, some {})

/-- SEG_WRITE_INIT (R540, R382, R629). -/
def execSegWriteInit (path : Fin 2) (hdr : BitVec 128) (payload : List (BitVec 8)) (full : Nat) (s : State) : Res :=
  .next (s.dictRow 5 path.val hdr payload full State.doSegWriteInit)

/-- What a SEG_WRITE answers; an update's bytes are programmed as they arrive (R629). -/
def State.doSegWrite (s : State) (m : DMsg) : State × Option Ans :=
  let x := s.path m.p
  match x.seg with
  | none => s.noSeg m
  | some g =>
    let n := m.param
    if !g.isWrite then (s, some { status := rsSEGMENT, param := some 0 })
    else if cdiv g.total segBytes ≤ n ∨ (n = g.next ∧ m.data.length ≠ min segBytes (g.total - segBytes * n)) then
      (s.dropSeg m.p, some { status := rsLENGTH })
    else if n ≠ g.next then (s, some { status := rsSEGMENT, param := some g.next })
    else
      let g := { g with data := g.data ++ m.data, next := n + 1, idle := 0 }
      let s := s.setPath m.p { x with seg := some g }
      let s := if g.key = Od.updateImage then s.setImage s.updateTarget g.data false 0 else s
      if n + 1 < cdiv g.total segBytes then (s, some {})
      else
        let y := s.endWrite m g
        (y.1, some y.2)

/-- SEG_WRITE (R540, R382, R629). -/
def execSegWrite (path : Fin 2) (hdr : BitVec 128) (payload : List (BitVec 8)) (full : Nat) (s : State) : Res :=
  .next (s.dictRow 6 path.val hdr payload full State.doSegWrite)

/-- What a SEG_ABORT answers. -/
def State.doSegAbort (s : State) (m : DMsg) : State × Option Ans :=
  (s.dropSeg m.p, some { status := if (s.path m.p).cut = some m.key then rsNOT_POWERED else rsOK })

/-- SEG_ABORT (R540). -/
def execSegAbort (path : Fin 2) (hdr : BitVec 128) (payload : List (BitVec 8)) (full : Nat) (s : State) : Res :=
  .next (s.dictRow 7 path.val hdr payload full State.doSegAbort)

/-- SEG_TIMEOUT (R540): a transfer idle for SEG_TIMEOUT_BEATS is discarded. -/
def execSegTimeout (path : Fin 2) (s : State) : Res :=
  .next <|
    let idle : Bool := match (s.path path.val).seg with
      | some g => decide (s.o Od.segTimeoutBeats ≤ g.idle)
      | none => false
    guardS idle s fun s => s.dropSeg path.val

/-! ## The session lock (R541 to R544) -/

/-- The data of a LOCK reply: handle, lease, PREV_BROKEN (R543). -/
def lockData (handle lease prev : Nat) : List Byte := beBytes 2 handle ++ beBytes 4 lease ++ beBytes 1 prev

/-- The reply of a sub-operation that leaves the lock held. -/
def State.lockAns (s : State) : Ans := { data := lockData (s.o Od.lockHandle) s.dict.lease (s.o Od.prevBroken) }

/-- A sub-operation of the holder: RIGHTS without the right, LOCK_REQUIRED when the message does not name the lock. -/
def State.holder (s : State) (m : DMsg) (f : State → DMsg → State × Option Ans) : State × Option Ans :=
  if !s.hasRight m.p 4 then (s, some { status := rsRIGHTS })
  else if !s.lockedBy m then (s, some { status := rsLOCK_REQUIRED })
  else f s m

/-- ACQUIRE. -/
def State.acquire (s : State) (m : DMsg) : State × Option Ans :=
  let st := s.o Od.lockState
  if !s.hasRight m.p 4 then (s, some { status := rsRIGHTS })
  else if st ≠ 0 ∧ !(s.holdsLock m.p && s.dict.lockSession == m.session) then (s, some { status := rsLOCK_HELD })
  else
    let lease := s.o Od.lockLeaseBeats
    let s := if st = 0 then
        let h := if (s.dict.nextHandle + 1) % 65536 = 0 then 1 else (s.dict.nextHandle + 1) % 65536
        ((({ s with dict := { s.dict with nextHandle := h, lockSession := m.session } }).setO Od.lockState (m.p + 1)).setO Od.lockHandle h)
      else s
    let s := ({ s with dict := { s.dict with lease := lease } }).setO Od.lockRemaining lease
    let a := s.lockAns
    (s.setO Od.prevBroken 0, some a)

/-- LOCK_ACQUIRE (R543). -/
def execLockAcquire (path : Fin 2) (hdr : BitVec 128) (payload : List (BitVec 8)) (full : Nat) (s : State) : Res :=
  .next (s.dictRow 81 path.val hdr payload full State.acquire)

/-- RENEW: the holder's lease restarts. -/
def State.renew (s : State) (_ : DMsg) : State × Option Ans :=
  let s := s.setO Od.lockRemaining s.dict.lease
  (s, some s.lockAns)

/-- COMMIT: the holder's staged set is fixed. -/
def State.fixStaged (s : State) (m : DMsg) : State × Option Ans :=
  let x : FixedSet := { writes := s.dict.staged, handle := m.handle, path := m.p, session := m.session, tag := m.tag, word := m.word }
  (({ s with dict := { s.dict with fixed := s.dict.fixed ++ [x] } }).setStaged [], none)

/-- ABORT: the holder's staged set is discarded. -/
def State.abortStaged (s : State) (_ : DMsg) : State × Option Ans :=
  let s := s.setStaged []
  (s, some s.lockAns)

/-- RELEASE: the holder's lock is free. -/
def State.releaseLock (s : State) (_ : DMsg) : State × Option Ans :=
  let data := lockData (s.o Od.lockHandle) 0 (s.o Od.prevBroken) ++ beBytes 2 s.dict.staged.length
  (s.freeLock, some { data := data })

/-- BREAK: over the chain only. -/
def State.breakByChain (s : State) (m : DMsg) : State × Option Ans :=
  if m.p ≠ 0 then (s, some { status := rsRIGHTS })
  else
    let s := s.breakLock 6
    (s, some s.lockAns)

/-- LOCK_RENEW (R543): the lease restarts. -/
def execLockRenew (path : Fin 2) (hdr : BitVec 128) (payload : List (BitVec 8)) (full : Nat) (s : State) : Res :=
  .next (s.dictRow 82 path.val hdr payload full fun s m => s.holder m State.renew)

/-- LOCK_COMMIT (R542): the staged set is fixed; its reply comes when it has applied. -/
def execLockCommit (path : Fin 2) (hdr : BitVec 128) (payload : List (BitVec 8)) (full : Nat) (s : State) : Res :=
  .next (s.dictRow 83 path.val hdr payload full fun s m => s.holder m State.fixStaged)

/-- LOCK_ABORT (R543): the staged set is discarded; the lock stays. -/
def execLockAbort (path : Fin 2) (hdr : BitVec 128) (payload : List (BitVec 8)) (full : Nat) (s : State) : Res :=
  .next (s.dictRow 84 path.val hdr payload full fun s m => s.holder m State.abortStaged)

/-- LOCK_RELEASE (R543). -/
def execLockRelease (path : Fin 2) (hdr : BitVec 128) (payload : List (BitVec 8)) (full : Nat) (s : State) : Res :=
  .next (s.dictRow 85 path.val hdr payload full fun s m => s.holder m State.releaseLock)

/-- LOCK_BREAK (R543, R544): over the chain only. -/
def execLockBreak (path : Fin 2) (hdr : BitVec 128) (payload : List (BitVec 8)) (full : Nat) (s : State) : Res :=
  .next (s.dictRow 86 path.val hdr payload full State.breakByChain)

/-- LOCK_LEASE_EXPIRY (R544): the first boundary at which the lease has run out. -/
def execLockLeaseExpiry (s : State) : Res :=
  .next <| guardS (s.o Od.lockState != 0 && s.o Od.lockRemaining == 0) s fun s => s.breakLock 1

/-- LAST_COMMIT (R546). -/
def State.lastCommit (s : State) (status handle pos : Nat) : State :=
  s.setO Od.lastCommit (packFields [(8, status), (16, handle), (16, pos), (40, 0), (48, s.beat)])

/-- A fixed set has been applied whole. -/
def State.committed (s : State) (x : FixedSet) : State :=
  let s := ((s.putRwp x.writes).addO Od.commits 1).lastCommit rsOK x.handle 0
  s.answer x.path x.session x.tag x.word true s.lockAns

/-- Write i of a fixed set is refused: none applies, and the set returns to the lock that fixed it. -/
def State.commitRefused (s : State) (x : FixedSet) (i : Nat) : State :=
  let mine := s.holdsLock x.path && s.dict.lockSession == x.session && s.o Od.lockHandle == x.handle
  let s := if mine then s.setStaged (x.writes ++ s.dict.staged) else s
  let s := s.lastCommit rsREFUSED x.handle i
  s.answer x.path x.session x.tag x.word true { status := rsREFUSED, param := some i, data := beBytes 1 rsREFUSED }

/-- COMMIT_APPLY (R542): the set fixed first applies whole, or returns to the staged set of the lock that fixed it. -/
def execCommitApply (s : State) : Res :=
  .next <| match s.dict.fixed with
    | [] => s
    | x :: r =>
      let s := { s with dict := { s.dict with fixed := r } }
      match trySet x.writes s with
      | .inr t => t.committed x
      | .inl i => s.commitRefused x i

end Sys2Proof.Machine
end

