-- ==== Sys2Proof/Machine/Pcie.lean ====
section
/-!
DEFINITION. The PCIe host port: submission and completion rings, function control, resets of the host path, and the mailbox's doorbell
(16_host_pool_and_peer_links.md R487 to R498; 17_chain_beat_dictionary.md R534).
-/
namespace Sys2Proof.Machine

/-- FN_STATUS READY (R490, R618, R631): the function's reset is complete, start-up has reached step 11 and the module is not draining. -/
def State.fnReady (s : State) (f : Nat) : Bool := (s.fn f).ready && s.o Od.bootStep == 11 && !s.boot.draining

/-- FN_STATUS as the host reads it (R490). -/
def State.fnStatus (s : State) (f : Nat) : Nat :=
  let x := s.fn f
  packFields [(1, b2n (s.fnReady f)), (1, b2n x.stalled), (1, b2n x.incomplete), (1, b2n x.cfgErr), (11, 0), (17, x.cplTail)]

/-- Whether the host can reach a function: the port's SerDes group is on and the function exists (R488). -/
def State.fnSeen (s : State) (f : Nat) : Bool := s.pdOn 90 && s.vfOn f

/-! ## Submission (R492, R493) -/

/-- A byte of a submission ring at an offset, and the next offset. -/
def Fn.put (x : Fn × Nat) (b : Byte) : Fn × Nat :=
  ({ x.1 with ring := tSet 0 x.1.ring x.2 b, written := tSet false x.1.written x.2 true }, x.2 + 1)

/-- SUBMISSION_ENTRY_WRITE (R489, R493): bytes written into the submission ring from an offset mark themselves written. -/
def execSubmissionEntryWrite (f : Fin 256) (off : Fin 16384) (bytes : List (BitVec 8)) (s : State) : Res :=
  .next <| guardS (s.fnSeen f.val) s fun s =>
    let bs := bytes.take (16384 - off.val)
    s.setFn f.val (applyAll Fn.put (s.fn f.val, off.val) bs).1

/-- Entry i of a submission ring, and whether it is whole. -/
def Fn.entry (x : Fn) (i : Nat) : Nat := leNat ((List.range 64).map fun j => tGet 0 x.ring (64 * i + j))
def Fn.whole (x : Fn) (i : Nat) : Bool := (List.range 64).all fun j => tGet false x.written (64 * i + j)

/-- The written mask of an entry's slot cleared. -/
def Fn.clearMask (x : Fn) (i : Nat) : Fn := { x with written := tDrop (fun k => k / 64 == i) x.written }

/-- A command kept for its own row. -/
def State.pushCmd (s : State) (f : Nat) (c : HostCmd) : State := s.setFn f { s.fn f with cmds := (s.fn f).cmds ++ [c] }

/-- A whole entry, copied, is processed (R252, R466, R476, R492, R493). (DEDUCED; log entry 51) -/
def State.takeEntry (s : State) (f v : Nat) : State :=
  let typ := bits v 511 504
  let id := bits v 479 448
  let len := bits v 383 352
  let p : RetPath := { port := 2, cookie := bits v 351 288 }
  if typ = 1 then
    match (s.idWin f).look id with
    | 1 => (s.addO (Od.duplicates f) 1).resend f id
    | 2 => s.notice p f id 3 0 0 0 0 0 0
    | _ =>
      match s.takeAssembly f len with
      | .inl why => s.notice p f id 2 why 0 0 0 0 0
      | .inr (s, bs) =>
        let x : Req := { tenant := f, id := id, ingress := 2, path := p, bufs := bs, len := len, state := 3
                         badEntry := bits v 503 480 != 0 || bits v 287 0 != 0 }
        let (s, r) := (s.addO Od.descriptorsAccepted 1).accept x
        if s.preCancelled f id then s.cancelAtOnce r else s
  else if typ = 2 then
    let s := (s.ingress).addO Od.descriptorsAccepted 1
    s.pushCmd f { seq := s.o Od.ingressSequence, beat := s.beat, typ := 2, id := id }
  else if typ = 3 ∨ typ = 4 then
    (s.addO Od.descriptorsAccepted 1).pushCmd f { seq := s.o Od.ingressSequence, beat := s.beat, typ := typ, id := id, len := len }
  else s

/-- Entries from SUB_HEAD on are accepted in ring order, up to the tail or the first that is not whole. -/
def acceptEntries : Nat → State → Nat → State
  | 0, s, f => s.setFn f { s.fn f with incomplete := false }
  | n + 1, s, f =>
    let x := s.fn f
    let i := x.head % 256
    if x.whole i then
      acceptEntries n ((s.setFn f { x.clearMask i with head := (x.head + 1) % 512 }).takeEntry f (x.entry i)) f
    else (s.setFn f { x with incomplete := true }).addO Od.descriptorsIncomplete 1

/-- SUB_TAIL_DOORBELL (R493, R621): a tail more than 256 entries beyond SUB_HEAD is ignored and counted; before step 11 entries are
dropped. -/
def execSubTailDoorbell (f : Fin 256) (tail : Fin 512) (s : State) : Res :=
  .next <| guardS (s.fnSeen f.val) s fun s =>
    let x := s.fn f.val
    let n := (tail.val + 512 - x.head) % 512
    if 256 < n then s.addO Od.descriptorsIncomplete 1 else
    let s := s.setFn f.val { x with tail := tail.val }
    if s.o Od.bootStep ≠ 11 then
      let y := applyAll Fn.clearMask (s.fn f.val) ((List.range n).map fun i => (x.head + i) % 256)
      (s.setFn f.val y).addO Od.ingressDrops n
    else if x.enable && s.fnReady f.val then acceptEntries n s f.val
    else s

/-- The body of an accepted request is here. -/
def State.bodyRead (s : State) (r : Nat) (bytes : List Byte) : State :=
  let x := s.req r
  let body := sliceB bytes 0 x.len
  let h := parseHead body
  s.setReq r { x with body := body, head := h.1, items := h.2, path := s.returnPath x.tenant h.1 x.path, state := 0 }

/-- BODY_DMA_COMPLETE (R253, R256, R493): the body of an accepted request is read, or its read fails; `hint` is the turn hint the request
reads as it enters the arbiter. -/
def execBodyDmaComplete (r : Nat) (ok : Bool) (bytes : List (BitVec 8)) (hint : Nat) (s : State) : Res :=
  .next <| guardS (s.hasReq r && (s.req r).state == 3) s fun s =>
    if !ok then (s.addO Od.dmaErrors 1).refuse r 5 0x07 0 else (s.bodyRead r bytes).meetGate r hint

/-! ## Function control (R490, R491) -/

/-- FN_CONTROL_WRITE (R490, R491): a write of FN_CONTROL; `cplBase` and `outBase` are what the host last wrote into the two base
registers, which are frozen while ENABLE is 1. (DEDUCED; log entry 51) -/
def execFnControlWrite (f : Fin 256) (v : BitVec 32) (cplBase outBase : BitVec 64) (s : State) : Res :=
  .next <| guardS (s.fnSeen f.val) s fun s =>
    let w := v.toNat
    let x := s.fn f.val
    let x := if x.enable then x else { x with cplBase := cplBase.toNat, outBase := outBase.toNat, cplLog := bits w 20 16, outLog := bits w 12 8 }
    let x := { x with coalesce := bits w 7 0 }
    if bitAt w 31 then
      let ok := decide (6 ≤ bits w 20 16 ∧ bits w 20 16 ≤ 16) && decide (4 ≤ bits w 12 8 ∧ bits w 12 8 ≤ 16) &&
        x.cplBase % 4096 == 0 && x.outBase % 4096 == 0
      if !ok then s.setFn f.val { x with cfgErr := true, msix1 := x.msix1 + 1 }
      else
        let x := if x.enable then x else { x with enable := true, head := 0, cplTail := 0 }
        (s.setFn f.val { x with cfgErr := false }).pumpOutput
    else s.setFn f.val { x with enable := false, cfgErr := false, waitQ := [], stalled := false }

/-! ## Completion ring (R495, R497) -/

/-- Waiting entries that now have room are written. -/
def drainWait : Nat → State → Nat → State
  | 0, s, _ => s
  | n + 1, s, f =>
    let x := s.fn f
    match x.waitQ with
    | [] => s.setFn f { x with stalled := false }
    | m :: r =>
      if x.cplUsed < 2 ^ x.cplLog then drainWait n ((s.setFn f { x with waitQ := r }).putEntry m) f else s

/-- CPL_HEAD_WRITE (R495, R497): the host has read up to CPL_HEAD; `cycles` are the PCLK cycles the function's DMA waited for its full
queue. -/
def execCplHeadWrite (f : Fin 256) (v : Fin 131072) (cycles : Nat) (s : State) : Res :=
  .next <| guardS (s.fnSeen f.val) s fun s =>
    let x := s.fn f.val
    let s := if x.stalled && 64 ≤ x.waitQ.length then s.addO Od.cplRingFullCycles cycles else s
    drainWait (x.waitQ.length + 1) (s.setFn f.val { x with cplHead := v.val }) f.val

/-! ## Resets of the host path (R498) -/

/-- What a reset does to one function, and how many requests it ended. -/
def State.resetFn (s : State) (f : Nat) : State × Nat :=
  let mine := tKeys s.reqs fun _ x => x.tenant == f && x.path.port == 2
  let s := applyAll (fun s r => s.endReq r 0x09) s mine
  let s := applyAll State.freeBuf s (tKeys s.bufs fun _ x => x.owner == f && x.state == 2 && x.slot.isSome)
  (s.setFn f { ready := false, cmds := (s.fn f).cmds.filter fun c => c.typ == 2 }, mine.length)

/-- A hot reset or a loss of the link acts on every function in use. -/
def State.resetFns (s : State) : State × Nat :=
  applyAll (fun (a : State × Nat) f => let x := a.1.resetFn f; (x.1, a.2 + x.2)) (s, 0) (List.range 256)

/-- The mailbox registers at their defaults (R534). -/
def State.resetMailbox (s : State) : State :=
  { s with dict := { s.dict with mbStatus := 0, mbReqLen := 0, mbReq := [], mbResp := [], msixDone := 0 } }

/-- VF Enable and NumVFs cleared, as a reset of the physical function does (PRESUMED: PCI Express; log entry 40). -/
def State.clearVfs (s : State) : State :=
  { s with pcie := { s.pcie with vfEnable := false, numVfs := 0 } }.setO Od.vfsEnabled 0

/-- The record of a reset of the host path. -/
def State.hostRecord (s : State) (f n : Nat) : State := s.record 0x12 f (dataDown [(16, f), (16, sat 16 n)])

/-- The reset of every function; the mailbox session ends with a cause (R498, R535, R544). -/
def State.hostReset (s : State) (cause : Nat) : State :=
  let x := s.resetFns
  let s := ((x.1.tidySteps).pumpOutput).clearVfs
  ((s.addO Od.hostResets 1).hostRecord 0xFFFF x.2).endSession 1 cause |>.resetMailbox

/-- HOT_RESET (R498). -/
def execHotReset (s : State) : Res := .next <| guardS (s.pdOn 90) s fun s => s.hostReset 4

/-- PCIE_LINK_DOWN (R498, R544). -/
def execPcieLinkDown (s : State) : Res :=
  .next <| guardS (s.o Od.pcieLink != 0) s fun s => (s.hostReset 2).setO Od.pcieLink 0

/-- A function-level reset, counted and recorded. -/
def State.resetOne (s : State) (f : Nat) : State :=
  let x := s.resetFn f
  (((x.1.tidySteps).pumpOutput).addO Od.flrs 1).hostRecord f x.2

/-- FLR (R498): of the physical function it ends the mailbox session too. -/
def execFlr (f : Fin 256) (s : State) : Res :=
  .next <| guardS (s.fnSeen f.val) s fun s =>
    let s := s.resetOne f.val
    if f.val = 0 then ((s.clearVfs).endSession 1 4).resetMailbox else s

/-- FUNCTION_READY (R489, R498): the function's reset is over; MSI-X vector 1 signals it.  With the physical function the link's rate and
lanes are known (R514). -/
def execFunctionReady (f : Fin 256) (rate lanes : Fin 256) (s : State) : Res :=
  .next <| guardS (s.pdOn 90 && (!(s.fn f.val).ready || (f.val == 0 && s.o Od.pcieLink == 0))) s fun s =>
    let x := s.fn f.val
    let s := s.setFn f.val { x with ready := true, msix1 := x.msix1 + 1 }
    if f.val = 0 then s.setO Od.pcieLink (65536 + 256 * rate.val + lanes.val) else s

/-- VF_ENABLE_CHANGE (R488): a configuration write leaves VF Enable and NumVFs so. -/
def execVfEnableChange (en : Bool) (n : Fin 256) (s : State) : Res :=
  .next <| guardS (s.pdOn 90) s fun s =>
    { s with pcie := { s.pcie with vfEnable := en, numVfs := n.val } }.setO Od.vfsEnabled (if en then n.val else 0)

/-- MB_GO (R534): GO with the bytes of MB_REQUEST, MB_REQ_LEN of them; ignored while BUSY. -/
def execMbGo (bytes : List (BitVec 8)) (s : State) : Res :=
  .next <| guardS (s.pdOn 90 && !bitAt s.dict.mbStatus 31) s fun s =>
    { s with dict := { s.dict with mbReq := bytes, mbReqLen := bytes.length % 2048, mbStatus := 2 ^ 31 } }

end Sys2Proof.Machine
end

