-- ==== Sys2Proof/Machine/Peer.lean ====
section
/-!
DEFINITION. The peer links: flits that arrive, acknowledgement, replay, retraining and failure (16_host_pool_and_peer_links.md R504 to
R509; 07_models_stakes_steps.md R224, R228, R234).  A flit's payload that the spec gives no layout comes as operands (DESIGN CHOICE; log entry 41).
-/
namespace Sys2Proof.Machine

/-- Fields of a flit header (R505). -/
def fKind (h : Nat) : Nat := bits h 111 108
def fStake (h : Nat) : Nat := bits h 107 99
def fEpoch (h : Nat) : Nat := bits h 98 67
def fArray (h : Nat) : Nat := bits h 66 62
def fCtr (h : Nat) : Nat := bits h 61 58
def fUnits (h : Nat) : Nat := bits h 57 54
def fOffset (h : Nat) : Nat := bits h 53 32

/-- A flit of a kind arrives whole on a link that is UP. -/
def State.takeFlit (s : State) (l kind h : Nat) (f : State → State) : State :=
  if s.o (Od.peerState l) = 2 ∧ fKind h = kind then f (s.addO (Od.peerFlitsRx l) 1) else s

/-- A flit other than STEP_START acts when its epoch is its stake's current one; else it is dropped and counted, for a reply to a remote
request against the model too (R234, R507). -/
def State.inEpoch (s : State) (l h : Nat) (reply : Bool) (f : State → State) : State :=
  let x := s.stake (fStake h)
  if x.used && x.epoch == fEpoch h then f s
  else
    let s := s.addO (Od.peerStale l) 1
    if reply then s.addO (Od.modelStaleReplies x.model) 1 else s

/-- PEER_STEP_START (R224, R225, R507): a segment takes the lead's epoch; it runs the step when the flit comes before its start beat.
`start` and `fold` are the start beat and the fold shape the flit carries. -/
def execPeerStepStart (l : Fin 8) (hdr : BitVec 128) (start fold : Nat) (s : State) : Res :=
  .next <|
    let h := hdr.toNat
    s.takeFlit l.val 1 h fun s =>
      let n := fStake h
      let x := s.stake n
      if !x.used || x.lead then s else
      let s := match x.step with
        | some k => (s.abandonOn n).dropStep k
        | none => s
      let s := s.setStake n { s.stake n with epoch := fEpoch h }
      if start ≤ s.beat || x.stopped then s else
      let k := s.nextStep
      let t : Step := { model := x.model, state := spRUNNING, stake := n, fold := fold, asm := s.beat, epoch := fEpoch h }
      let s := { s.setStep k t with nextStep := k + 1 }
      s.setStake n { s.stake n with step := some k, beat := start, state := if x.state = skIDLE then skBUSY else x.state }

/-- The staging area a flit writes into: that of the STAGING descriptor that names the array as OWNER and the counter as SCTR. -/
def State.stagingOf (s : State) (a r ctr : Nat) : Option Nat :=
  ((s.res a r).descs.find? fun e => dKind e.2 == 6 && dOwner e.2 == a && dSctr e.2 == ctr).map fun e => dElem e.2

/-- FP32 values written from a byte offset of a staging area on: row m's sum n at 1 024 m + 4 n (R81). -/
def Arr.stage (x : Arr) (r addr off : Nat) (vs : List FP32) : Arr :=
  (vs.foldl (fun (p : Arr × Nat) v =>
    let key := stageKey r addr (p.2 / 1024)
    let y : Staged := tGet {} p.1.staged key
    let sums := ((List.range 256).map fun c => y.sums.getD c f32zero).set (p.2 % 1024 / 4) v
    ({ p.1 with staged := tSet {} p.1.staged key { y with sums := sums } }, p.2 + 4)) (x, off)).1

/-- A flit's values in the staging area of array a, resident r, with the row's reference sums when the flit begins a row. -/
def State.stageFlit (s : State) (a r h : Nat) (payload : List Byte) (ref mag : FP32) (sk : List FP32) : State :=
  let vs := (List.range (4 * fUnits h)).map fun i => BitVec.ofNat 32 (leAt payload (4 * i) 4)
  match s.stagingOf a r (fCtr h) with
  | none => s
  | some addr =>
    let x := (s.arr a).stage r addr (16 * fOffset h) vs
    let key := stageKey r addr (16 * fOffset h / 1024)
    let y : Staged := tGet {} x.staged key
    s.setArr a (if 16 * fOffset h % 1024 = 0 then
        { x with staged := tSet {} x.staged key { y with ref := ref, mag := mag, sk := if sk.isEmpty then none else some sk } } else x)

/-- PEER_DATA (R505, R507): a flit of a remote segment's export writes its values into the staging area and increments the counter.
`ref`, `mag` and `sk` are the reference sums and the skein sums of the row the flit begins; `reply` says whether it answers a remote
request. (DESIGN CHOICE; log entry 41) -/
def execPeerData (l : Fin 8) (hdr : BitVec 128) (payload : List (BitVec 8)) (ref mag : BitVec 32) (sk : List (BitVec 32)) (reply : Bool)
    (s : State) : Res :=
  .next <|
    let h := hdr.toNat
    s.takeFlit l.val 2 h fun s => s.inEpoch l.val h reply fun s =>
      let a := fArray h
      match s.residentOf (fStake h) a with
      | none => s
      | some r =>
        (s.stageFlit a r h payload ref mag sk).increment a { target := a, res := r, ctr := fCtr h, value := 1, epoch := fEpoch h % 65536 }

/-- PEER_INCREMENT (R505, R507). -/
def execPeerIncrement (l : Fin 8) (hdr : BitVec 128) (s : State) : Res :=
  .next <|
    let h := hdr.toNat
    s.takeFlit l.val 3 h fun s => s.inEpoch l.val h false fun s =>
      match s.residentOf (fStake h) (fArray h) with
      | none => s
      | some r => s.increment (fArray h) { target := fArray h, res := r, ctr := fCtr h, value := 1, epoch := fEpoch h % 65536 }

/-- PEER_COURSE_END (R228, R505): the segment across a link has ended the course. -/
def execPeerCourseEnd (l : Fin 8) (hdr : BitVec 128) (s : State) : Res :=
  .next <|
    let h := hdr.toNat
    s.takeFlit l.val 4 h fun s => s.inEpoch l.val h false fun s =>
      match (s.stake (fStake h)).step with
      | none => s
      | some k =>
        let t := s.step_ k
        s.setStep k { t with done := l.val :: t.done.filter fun j => j != l.val }

/-- PEER_LINK_CONTROL (R504, R505): link management: `ack` is the sequence number up to which, itself left out, the other end has received
flits. (DEDUCED; log entry 68) -/
def execPeerLinkControl (l : Fin 8) (hdr : BitVec 128) (ack : Fin 65536) (s : State) : Res :=
  .next <|
    s.takeFlit l.val 5 hdr.toNat fun s =>
      let x := s.peer l.val
      let waits (g : Nat) : Bool := decide ((bits g 127 112 + 65536 - ack.val) % 65536 < 32768)
      s.setPeer l.val { x with held := x.held.filter waits }

/-- PEER_FLIT_CRC_FAIL (R504): go-back-N replay recovers the flit. -/
def execPeerFlitCrcFail (l : Fin 8) (s : State) : Res :=
  .next <| guardS (s.o (Od.peerState l.val) == 2) s fun s => s.addO (Od.peerReplays l.val) 1

/-- The largest width a number of good lanes allows (R508). -/
def laneWidth (good : Nat) : Nat := if 8 ≤ good then 8 else if 4 ≤ good then 4 else if 2 ≤ good then 2 else good

/-- PEER_LANE_FAULT (R508): `bad` lanes leave service and `good` are left; the link retrains. -/
def execPeerLaneFault (l : Fin 8) (bad good : Fin 9) (s : State) : Res :=
  .next <| guardS (s.o (Od.peerState l.val) == 2) s fun s =>
    let s := (s.addO (Od.peerLaneFaults l.val) bad.val).addO (Od.peerRetrains l.val) 1
    (s.setO (Od.peerLanes l.val) (laneWidth good.val)).setO (Od.peerState l.val) 3

/-- PEER_RETRAIN_DONE (R508, R597, R598): the first flit at the new width; flits held for replay are sent again.  `ns` is the hold; the
record is a LINK_LANE_REPAIR of the peer link, whose module and redundant lanes have no meaning (DESIGN CHOICE; log entry 42). -/
def execPeerRetrainDone (l : Fin 8) (lane : Fin 8) (ns : Nat) (s : State) : Res :=
  .next <| guardS (s.o (Od.peerState l.val) == 3 && s.o (Od.peerLanes l.val) != 0) s fun s =>
    let s := (s.setO (Od.peerState l.val) 2).addO (Od.peerFlitsTx l.val) (s.peer l.val).held.length
    s.fault1 0x27 11 l.val 0 ns 0 [(16, 0xFFFF), (16, lane.val), (16, 0xFFFF)]

/-- A peer link is FAILED: no lane, nothing held, the stakes with a segment across it DEGRADED, and a record says so. -/
def State.peerFails (s : State) (l : Nat) (off : Bool) : State :=
  let across (x : Stake) : Bool := x.place.any fun b => bitAt b 6 && b % 8 == l
  let n := (s.stakes.filter fun e => e.2.used && e.2.step.isSome && across e.2).length
  let s := (s.setO (Od.peerState l) 4).setO (Od.peerLanes l) 0
  let s := (s.setPeer l {}).degradeWhere (fun _ x => across x) true
  let extra := [(16, s.o (Od.peerRemote l))]
  if off then s.faultRec 0x30 11 l 2 0 n extra else s.fault1 0x30 11 l 2 0 n extra

/-- PEER_LINK_FAIL (R223, R509): a link that cannot train, or that is disabled, is FAILED; stakes with a segment across it are DEGRADED.
Disabling is no fault of its own. -/
def execPeerLinkFail (l : Fin 8) (s : State) : Res :=
  .next <|
    let st := s.o (Od.peerState l.val)
    let off := s.o (Od.peerEnable l.val) == 0
    guardS (st == 1 || st == 3 || (off && st != 4)) s fun s =>
      s.peerFails l.val off

/-- PEER_LINK_TRAINED (R509): the link is UP; the other end's chain address and link number are known. -/
def execPeerLinkTrained (l : Fin 8) (good : Fin 9) (addr num : Fin 256) (s : State) : Res :=
  .next <|
    guardS (s.pdOn 97 && s.o (Od.peerEnable l.val) == 1 && decide (s.o (Od.peerState l.val) ≤ 1) && good.val != 0) s fun s =>
      ((s.setO (Od.peerState l.val) 2).setO (Od.peerLanes l.val) (laneWidth good.val)).setO (Od.peerRemote l.val)
        (256 * addr.val + num.val)

end Sys2Proof.Machine
end

