-- ==== Sys2Proof/Machine/TierFaults.lean ====
section
/-!
DEFINITION. Faults in the two memory tiers and the halving of heat (06_memory_tiers.md R185, R205, R206; 20_faults_ageing_record.md R596,
R605, R606, R608).
-/
namespace Sys2Proof.Machine

/-- HEAT_HALVING (R185, R410, R445): at a beat multiple of 16 384 every heat of pages, granules, lists, row groups and chunks is halved. -/
def execHeatHalving (s : State) : Res :=
  .next <| guardS (s.beat % 16384 == 0) s fun s =>
    let s := s.halveTiers
    { s with
      index := { s.index with lists := tMap {} s.index.lists fun _ x => { x with heat := x.heat / 2 } }
      tables := s.tables.map fun e => (e.1, { e.2 with cur := e.2.cur.map fun t =>
        { t with groups := tMap 0 t.groups fun _ h => h / 2, heats := tMap 0 t.heats fun _ h => h / 2 } }) }

/-- Courses abandoned on all models so far: AFFECTED of a fault is the difference its recovery makes (R602). -/
def State.allAbandoned (s : State) : Nat := ((List.range 64).map fun m => s.o (Od.coursesAbandoned m)).sum

/-! ## Granules (R205, R596) -/

/-- The granule is out of service: its tag reads RETIRED. -/
def State.retireGran (s : State) (g : Nat) : State :=
  (s.putGran g { state := gRETIRED }).wipeGran g

/-- A home or transit granule's place in its resident's map taken by another granule of the slice; the resident's running course is
abandoned and replayed (R596). (DEDUCED; log entry 63) -/
def State.rehome (s : State) (g : Nat) (x : Gran) : State :=
  let a := g / 512
  let r := s.res a x.res
  let s := match (s.stake r.stake).step with
    | some k => s.abandonStep k true
    | none => s
  let s := s.retireGran g
  let old := 2 ^ 15 + g % 512
  match claimGrans a x.state x.owner x.res 1 s with
  | some (s, q :: _) =>
    let y := s.res a x.res
    s.setRes a x.res { y with
      nearMap := y.nearMap.map fun e => (e.1, if e.2 = old then 2 ^ 15 + q % 512 else e.2)
      transit := y.transit.map fun t => if t = g then q else t }
  | _ =>
    let y := s.res a x.res
    s.setRes a x.res { y with nearMap := y.nearMap.filter fun e => e.2 != old, transit := y.transit.filter fun t => t != g }

/-- GRANULE_ECC_ERROR (R205, R596): an uncorrectable error at byte `off` of a granule, or in its tag: the granule is RETIRED; a TIERED
copy's loads fetch on demand; a HOME or TRANSIT granule's resident is replayed. -/
def execGranuleEccError (g : Fin 16384) (off : Fin 65536) (tag : Bool) (s : State) : Res :=
  .next <|
    let x := s.gran g.val
    guardS (x.state != gRETIRED) s fun s =>
      let n := s.allAbandoned
      let s := s.addO Od.eccUncorrectable 1
      let s :=
        if granHome x then s.rehome g.val x
        else if x.state == gMIGRATING then (s.cancelMigr g.val).retireGran g.val
        else if x.state == gTIERED then
          let p := s.page x.page
          (s.setPage x.page { p with present := setBitTo p.present x.piece false }).retireGran g.val
        else s.retireGran g.val
      s.fault1 0x22 1 g.val 1 0 (s.allAbandoned - n) [(8, if tag then 4 else 3), (64, if tag then g.val else 65536 * g.val + off.val)]

/-! ## Pages (R205, R608) -/

/-- STACK_PAGE_ECC_ERROR (R205, R596, R608): an uncorrectable burst of page p found on a pseudo-channel, or an error in its directory
entry (`dir`).  A FIRMWARE page is served from its copy and rebuilt; `both` says its other copy is lost too, `index` that it then held
the index directory, which is rebuilt while the index is DEGRADED. (DEDUCED; log entry 63) -/
def execStackPageEccError (p : Fin 196608) (pc : Fin 64) (dir both index : Bool) (s : State) : Res :=
  .next <|
    let x := s.page p.val
    guardS (x.cls != cRETIRED) s fun s =>
      let n := s.allAbandoned
      let s := s.addO Od.eccUncorrectable 1
      let s := s.failPage p.val cRETIRED
      let k := p.val / 24576 * 64 + pc.val
      let s := { s with mem := { s.mem with
        pcErr := tMod [] s.mem.pcErr k fun l => ((p.val, s.beat) :: l).filter fun e => decide (s.beat < e.2 + 1024) } }
      let s := if x.cls == cFIRMWARE && both && index then
          let s := s.setIndex { s.index with dirLost := true }
          if s.o Od.indexState == 3 then s.setO Od.indexState 4 else s
        else s
      let out := if x.cls == cHOME then 3 else if x.cls == cFIRMWARE then 0 else 1
      if dir then s.fault1 0x22 2 p.val out 0 (s.allAbandoned - n) [(8, 5), (64, p.val)]
      else s.fault1 0x23 2 p.val out 0 (s.allAbandoned - n) [(3, x.cls), (8, x.owner), (16, pc.val)]

/-- A page for bytes fetched again: on the stack of the same die that has more, else on the stack with the most FREE pages (R205,
R606). -/
def State.pageAgain (s : State) (d : Nat) (x : Page) : Option (State × Nat) :=
  match s.takePage d x.cls x.owner x.target x.use with
  | some r => some r
  | none =>
    let hs := (List.range 8).filter s.stackUp
    match (sortBy (fun a b => decide (s.freeCount b < s.freeCount a)) hs).head? with
    | none => none
    | some h => s.takePage (h / 2) x.cls x.owner x.target x.use

/-- The origin of a page's bytes (R179): the plan's tiles and the skein in the model store, the loaded image; a pool read brings `bs`. -/
def State.originOf (s : State) (u : PUse) (bs : List Byte) : List Byte :=
  let part (l : List Byte) : List Byte := (l.drop (u.idx * 2 ^ 21)).take (2 ^ 21)
  match u.kind with
  | 1 =>
    let m := (s.stake u.obj).model
    match (s.model m).plan with
    | some p => part (((s.storeObj (s.o (Od.planObject m))).bytes.drop p.tiles).take p.tilesLen)
    | none => []
  | 2 => part (s.storeObj (s.o (Od.skeinSource u.obj))).bytes
  | 3 => part (((s.vslot (u.obj % 64)).cur.map fun v => v.image).getD [])
  | 4 => part (((s.gslot (u.obj % 64)).cur.map fun v => v.image).getD [])
  | 8 => bs.take (2 ^ 21)
  | _ => []

/-- Whether the object of a page is still loaded, so that the page is fetched again. -/
def State.stillUsed (s : State) (p : Nat) (u : PUse) : Bool :=
  match u.kind with
  | 1 => (s.stake u.obj).used
  | 2 => s.o (Od.skeinState u.obj) != 0
  | 3 => (s.vslot (u.obj % 64)).cur.isSome && slotObj (u.obj % 64) (s.vslot (u.obj % 64)).gen == u.obj
  | 4 => (s.gslot (u.obj % 64)).cur.isSome && slotObj (u.obj % 64) (s.gslot (u.obj % 64)).gen == u.obj
  | 7 => (s.index.list u.obj).copies.any fun c => c.pages.contains p
  | 8 => match (s.tslot u.obj).cur with
    | some t => t.fixed == p || (t.chunks ++ t.filling).any fun c => c.2 == p
    | none => false
  | _ => false

/-- Every map that named page p names page q (R205). -/
def State.renamePage (s : State) (p q : Nat) : State :=
  let ren (n : Nat) : Nat := if n = p then q else n
  let old := 2 ^ 30 + p
  { s with
    residents := s.residents.map fun e =>
      (e.1, { e.2 with stackMap := e.2.stackMap.map fun m => (m.1, if m.2 = old then 2 ^ 30 + q else m.2) })
    index := { s.index with lists := s.index.lists.map fun e =>
      (e.1, { e.2 with copies := e.2.copies.map fun c => { c with pages := c.pages.map ren } }) }
    tables := s.tables.map fun e => (e.1, { e.2 with cur := e.2.cur.map fun t =>
      { t with fixed := ren t.fixed, chunks := t.chunks.map (fun c => (c.1, ren c.2)), filling := t.filling.map fun c => (c.1, ren c.2) } }) }

/-- PAGE_REFETCH_COMPLETE (R205, R606): the bytes of a failed PINNED or CACHED page stand in a FREE page, charged as before, and every
map that named the old page is rewritten; `bytes` are what a pool read brought for a row cache page. -/
def execPageRefetchComplete (p : Fin 196608) (bytes : List Byte) (s : State) : Res :=
  .next <| match s.mem.refetch.find? fun e => e.1 == p.val with
  | none => s
  | some (_, x) =>
    let drop (s : State) : State := { s with mem := { s.mem with refetch := s.mem.refetch.filter fun e => e.1 != p.val } }
    if !s.stillUsed p.val x.use then drop s
    else match s.pageAgain (p.val / 49152) { x with heat := 0, touch := 0, present := 0 } with
      | none => s
      | some (s, q) => drop ((s.putStack q 0 (s.originOf x.use bytes)).renamePage p.val q)

/-! ## Pseudo-channels and stacks (R206, R605, R606) -/

/-- PSEUDO_CHANNEL_RETIRE (R605, R206): trigger 0 is uncorrectable errors on two pages within 1 024 beats, 1 is 64 corrected bursts in
one scrub pass, 2 a failed training. -/
def execPseudoChannelRetire (h : Fin 8) (n : Fin 64) (trigger : Fin 3) (s : State) : Res :=
  .next <|
    let k := 64 * h.val + n.val
    let out := tGet 0 s.mem.pcOut h.val
    let seen := ((tGet [] s.mem.pcErr k).filter fun e => decide (s.beat < e.2 + 1024)).map (·.1)
    let due := match trigger.val with
      | 0 => decide (2 ≤ seen.eraseDups.length)
      | 1 => decide (64 ≤ tGet 0 s.mem.scrub k)
      | _ => true
    guardS (due && !bitAt out n.val && !s.mem.stacksOut.contains h.val) s fun s =>
      let c := s.allAbandoned
      let r := s.failStack h.val cFREE
      let s := r.1
      let gone := 384 * (popCount 64 out + 1)
      let s := applyAll (fun s i => s.setPage (24576 * (h.val + 1) - 1 - i) { cls := cRETIRED }) s (List.range (min gone 24576))
      let s := s.subO Od.stackPagesInService 384
      let s := { s with mem := { s.mem with pcOut := tSet 0 s.mem.pcOut h.val (setBitTo out n.val true)
                                            pcErr := tDel k s.mem.pcErr, scrub := tDel k s.mem.scrub } }
      s.fault1 0x24 3 k 1 0 (s.allAbandoned - c) [(8, trigger.val)]

/-- The corrected bursts of a scrub pass counted, and kept by pseudo-channel (R605). -/
def State.scrubCounts (s : State) (h : Nat) (channels : List (Nat × Nat)) : State :=
  let s := s.addO Od.eccCorrected (channels.map (·.2)).sum
  { s with mem := { s.mem with scrub := applyAll (fun (t : Tbl Nat) n =>
    tSet 0 t (64 * h + n) ((channels.find? fun e => e.1 == n).map (·.2) |>.getD 0)) s.mem.scrub (List.range 64) } }

/-- A PINNED or CACHED page with 8 corrected bursts in one pass is moved: its page is RETIRED and its content fetched again (R605). -/
def State.scrubPage (h : Nat) (s : State) (e : Nat × Nat) : State :=
  let p := 24576 * h + e.1
  let x := s.page p
  if decide (8 ≤ e.2 ∧ e.1 < 24576) && (x.cls == cPINNED || x.cls == cCACHED) then
    (s.failPage p cRETIRED).faultRec 0x23 2 p 0 0 0 [(3, x.cls), (8, x.owner), (16, 0xFFFF)]
  else s

/-- PATROL_SCRUB_PASS (R605): a pass over stack h has ended: corrected bursts by pseudo-channel and by page, both as (number, count). -/
def execPatrolScrubPass (h : Fin 8) (channels pages : List (Nat × Nat)) (s : State) : Res :=
  .next <| guardS (s.stackUp h.val) s fun s => applyAll (State.scrubPage h.val) (s.scrubCounts h.val channels) pages

/-- A stack fails: every page of it, its pages leave STACK_PAGES_IN_SERVICE, and one single fault (R596, R606). -/
def State.stackFails (s : State) (h : Nat) : State :=
  let c := s.allAbandoned
  let r := s.failStack h cRETIRED
  let s := r.1
  let s := { s with mem := { s.mem with stacksOut := h :: s.mem.stacksOut } }
  let s := s.subO Od.stackPagesInService (24576 - 384 * popCount 64 (tGet 0 s.mem.pcOut h))
  s.fault1 0x25 4 h 2 0 (s.allAbandoned - c) [(16, sat 16 r.2.1), (16, sat 16 r.2.2)]

/-- STACK_FAILURE (R606): a stack controller or a stack has failed. -/
def execStackFailure (h : Fin 8) (s : State) : Res :=
  .next (guardS (!s.mem.stacksOut.contains h.val && s.power.mainOn) s fun s => s.stackFails h.val)

end Sys2Proof.Machine
end

