-- ==== Sys2Proof/Machine/Boot.lean ====
section
/-!
DEFINITION. Start-up, power events, images, updates and the drain (21_boot_measurement_update.md R618 to R633; 22_module_package_pins.md
R647, R649; 23_ratings.md R651, R652; 20_faults_ageing_record.md R616).
-/
namespace Sys2Proof.Machine

/-! ## Steps (R618, R619, R649) -/

/-- A start-up step begins: BOOT_STEP, and a line on the debug UART, whose record number and kind the spec does not give (DESIGN CHOICE; log entry 3). -/
def State.stepTo (s : State) (n : Nat) : State :=
  let s := s.setO Od.bootStep n
  let line := (s.freeV 64, s.beat, s.took.freeV 8)
  { s.took.took with pins := { s.pins with dbg := some line } }

/-- A BOOT record (R614): start-up has stopped, or has reached READY. -/
def State.bootRecord (s : State) : State := s.record 0x05 0 (dataDown [(8, s.o Od.bootStep), (8, s.o Od.bootImage)])

/-- Start-up stops at a step (R620). -/
def State.bootStop (s : State) (v : Nat) : State :=
  ({ s with boot := { s.boot with attempt := none } }.setO Od.bootStep v).bootRecord

/-- The domains step 6 wakes (R619); one whose policy is KEEP_OFF is not woken (R571; DEDUCED; log entry 45). -/
def State.bootDomains (s : State) : List Nat :=
  let kept := (List.range 84).filter fun p => decide (p % 21 < 16) && s.o (Od.pdPolicy p) == 1
  let slices := (kept.filter isArrayPd).map (· + 8)
  let fixed := [84, 91] ++ (List.range 4).flatMap (fun d => [20, 16, 17, 18, 19].map fun i => 21 * d + i) ++
    [85, 86, 87, 88, 92, 93, 94, 95]
  ((fixed ++ s.power.serdesOn ++ slices ++ kept).eraseDups).filter fun p => s.o (Od.pdPolicy p) != 2

/-! ## Images (R622 to R626) -/

/-- The bytes of an image, and whether it is valid. -/
def State.imageBytes (s : State) (i : Nat) : List Byte := if i = 0 then s.boot.imageA else s.boot.imageB
/-- DESIGN CHOICE; log entry 43. -/
def State.imageValid (s : State) (i : Nat) : Bool := if i = 0 then s.boot.validA else s.boot.validB

/-- The order in which step 8 tries the images (R623), without those already tried. -/
def State.bootOrder (s : State) : List Nat :=
  let p := s.o Od.preferredImage
  let order := if s.o Od.updateState = 4 then [s.boot.drainTo.getD (1 - p)] else [p, 1 - p]
  order.filter fun i => !s.boot.tried.contains i

/-- The boot description of an image being started (R626). -/
def State.bootDescription (s : State) (i : Nat) : Nat :=
  packFields [(16, s.o Od.stepping), (8, i), (8, s.o Od.preferredImage), (8, s.o Od.updateState), (32, s.o (Od.imageRelease i)), (440, 0)]

/-- Step 8 starts: slots 1 to 6 and their entries of the log are cleared, and OVERFLOW with them unless no entry concerned those slots
(R625, R627). -/
def State.clearSlots (s : State) : State :=
  let s := applyAll (fun s n => s.setO (Od.measurement n) 0) s [1, 2, 3, 4, 5, 6]
  let kept := s.boot.log.filter fun e => e.slot == 0 || e.slot == 7
  let s := { s with boot := { s.boot with log := kept, logOver := s.boot.logOver && kept.length == s.boot.log.length, logCount := kept.length } }
  s.setO Od.measurementLogEntries kept.length

/-- An attempt begins (R623): BOOT_COUNT, ROLLBACKS and a FIRMWARE record. -/
def State.attemptImage (s : State) (i : Nat) : State :=
  let s := (s.stepTo 8).clearSlots
  let s := s.addO Od.bootCount 1
  let s := s.addO Od.rollbacks (b2n (i != s.o Od.preferredImage))
  s.record 0x06 0 (dataDown [(8, s.o Od.updateState), (8, i), (32, s.o (Od.imageRelease i))])

/-- A valid image is measured and started (R625). -/
def State.startImage (s : State) (i : Nat) : State :=
  let rel := s.o (Od.imageRelease i)
  let bs := s.imageBytes i
  let s := s.measure 1 0x02 (sha384 (leBytes 64 (s.bootDescription i))) 0 0
  let s := s.measure 2 0x03 (imageDig bs) rel 0
  let s := s.measure 2 0x03 (sha384 (sliceB bs 0 128)) rel 0
  let s := s.took.measure 3 0x04 (s.freeV 384) 0 0
  let s := (s.setO Od.bootImage i).setO Od.firmwareRelease rel
  { s with boot := { s.boot with attempt := some i } }

/-- A failed attempt (R623, R633): the domains woken so far are reset, and TRIAL ends. -/
def State.attemptOver (s : State) (i : Nat) : State :=
  let s := (s.resetNow 84).resetNow 91
  let s : State := { s with boot := { s.boot with attempt := none, tried := i :: s.boot.tried } }
  if s.o Od.updateState = 4 then (s.setUpdate 0 i).addO Od.rollbacks 1 else s

/-- Step 8: images are tried in order until one is valid; with none left start-up stops at 0x88 (R623, R624). -/
def tryImages : Nat → State → State
  | 0, s => s
  | n + 1, s =>
    match s.bootOrder with
    | [] => s.bootStop 0x88
    | i :: _ =>
      let s := s.attemptImage i
      if s.imageValid i then s.startImage i else tryImages n (s.attemptOver i)

/-- Step 8 begins. -/
def State.beginStep8 (s : State) : State := tryImages 4 s

/-- The running attempt has failed, and the next image is tried. (DEDUCED; log entry 61) -/
def State.attemptFails (s : State) : State :=
  match s.boot.attempt with
  | none => s
  | some i => if decide (8 ≤ s.o Od.bootStep ∧ s.o Od.bootStep ≤ 10) then tryImages 4 (s.attemptOver i) else s

/-- IMAGE_ATTEMPT_TIMEOUT (R623): the firmware has not reached step 11 within 300 s of the attempt's start. -/
def execImageAttemptTimeout (s : State) : Res := .next s.attemptFails

/-- BOOT_CORE_EXCEPTION (R623): a reed core takes an exception before step 11. -/
def execBootCoreException (s : State) : Res := .next s.attemptFails

/-! ## Power events -/

/-- STANDBY_POWER_APPLIED (R588, R616, R618): the always-on domain starts with its volatile state lost; NOR, NAND, MRAM and the record
store keep theirs. -/
def execStandbyPowerApplied (s : State) : Res :=
  .next <| guardS (!s.power.stbyOn) s fun s =>
    let kept := [Od.windowEpoch, Od.mirrorState, Od.mirrorLag, Od.imageARelease, Od.imageBRelease]
    let next := s.recs.next
    let s : State := { s with
      od := s.od.filter fun e => kept.contains e.1
      mboxes := [], keepers := [], chain := {}, pins := {}, aged := [], dict := { rwp := s.dict.rwp }
      power := { stbyOn := true }, recs := { s.recs with pairs := [] }
      boot := { imageA := s.boot.imageA, imageB := s.boot.imageB, validA := s.boot.validA, validB := s.boot.validB } }
    let s := s.setO Od.indexState (if s.index.fmtLists = 0 then 0 else 6)
    let s := s.stepTo 1
    s.record 0x01 0 (dataDown [(64, next), (8, s.o Od.mirrorState)])

/-- What a loss of main power does beside the loss itself (R588, R633): start-up waits at step 4, an image on trial is given up. -/
def State.mainPowerGone (s : State) : State :=
  let inflight := (s.reqs.filter fun e => e.2.state == 2).length
  let s := s.record 0x04 0 (dataDown [(16, s.o Od.mainInputW), (16, sat 16 inflight)])
  let image := s.o Od.bootImage
  let s := s.mainLost
  let s : State := { s with
    power := { s.power with mainOn := false, mainSw := false, moduleTrip := false }
    boot := { s.boot with awaitMain := false, attempt := none, tried := [], draining := false, drainTo := none } }
  let s := if s.o Od.bootStep < 4 then s else s.setO Od.bootStep 4
  if s.o Od.updateState = 4 then (s.setUpdate 0 image).addO Od.rollbacks 1 else s

/-- MAIN_POWER_LOSS (R588, R621, R652): the 54 V input has been below 46.0 V for 20 µs. -/
def execMainPowerLoss (s : State) : Res := .next (guardS (s.power.mainSw || s.power.mainOn) s State.mainPowerGone)

/-- MAIN_OVERVOLTAGE (R651): above 60.0 V for 1 µs: the main input switch opens, as for a loss of main power. -/
def execMainOvervoltage (s : State) : Res := .next (guardS (s.power.mainSw || s.power.mainOn) s State.mainPowerGone)

/-- STANDBY_POWER_LOSS (R616, R621): both inputs are lost; on the supercapacitor, keeper 0 writes STANDBY_LOSS. -/
def execStandbyPowerLoss (s : State) : Res :=
  .next <| guardS s.power.stbyOn s fun s =>
    let s := if s.power.mainSw || s.power.mainOn then s.mainPowerGone else s
    let r := s.mkRec 0x02 3 (dataDown [(8, s.o Od.supercapState), (16, s.o Od.mainInputW)])
    let s := s.took.writeRec r
    { s with power := { s.power with stbyOn := false }, boot := { s.boot with pinsLive := false } }

/-- MIRROR_COPY (R616): outcome 0: keeper 0 has copied 16 records to the NOR mirror; 1: NOR cannot be written; 2: MRAM has failed. -/
def execMirrorCopy (outcome : Fin 3) (s : State) : Res :=
  .next <| guardS s.power.stbyOn s fun s =>
    match outcome.val with
    | 0 =>
      if s.o Od.mirrorState ≤ 1 ∧ 16 ≤ s.o Od.mirrorLag then
        let s := s.subO Od.mirrorLag 16
        s.setO Od.mirrorState (if 16 ≤ s.o Od.mirrorLag then 1 else 0)
      else s
    | 1 => if s.o Od.mirrorState ≤ 1 then s.setO Od.mirrorState 2 else s
    | _ => if s.o Od.mirrorState ≤ 1 then s.setO Od.mirrorState 3 else s

/-! ## Start-up (R618) -/

/-- Step 2 ends (R551, R616, R625, R647): the parameter area and the record store are checked, slot 0 is extended, the beat input starts
and the pins switch to their functions. -/
def State.bootStep2 (s : State) (bad : Nat) (lost : List Nat) : State :=
  let s := if bad = 2 then { s with dict := { s.dict with rwp := [] } } else s
  let s := applyAll (fun s (e : Nat × Nat) => s.setO e.1 e.2) s s.dict.rwp
  let s := if bad = 0 then s else s.record 0x07 0 (dataDown [(8, bad)])
  let s : State := { s with recs := { s.recs with ring := s.recs.ring.map fun (r : Rec) => if lost.contains r.number then ({ number := r.number } : Rec) else r } }
  let s := s.measure 0 0x01 Config.romDigest 0 0
  let s := if s.o Od.beatStandalone = 1 then
      let t := (s.setO Od.beatState bsSTANDALONE).setO Od.beatPeriodUs (s.o Od.standalonePeriodUs)
      { t with chain := { t.chain with hasCount := true } }
    else s.setO Od.beatState bsUNLOCKED
  let pins := (List.range 12).filter fun n => s.o (Od.sbFunction n) != 0
  let s := { s with boot := { s.boot with pinsLive := true }
                    pins := { s.pins with holds := pins.map fun n => (n, some 0) } }
  s.addO Od.pinSwitches pins.length

/-- Whether every sensor that is powered reads at least 0 °C (R657). -/
def State.warmEnough (s : State) : Bool :=
  (List.range 6).all fun d => let t := i16 (s.o (Od.dieTemp d)); t == -32768 || decide (0 ≤ t)

/-- Whether the stacks in service lie on two dies at least (R608, R620). -/
def State.twoStacks (s : State) : Bool :=
  decide (2 ≤ ((((List.range 8).filter s.stackUp).map (· / 2)).eraseDups).length)

/-- START_UP_STEP_ADVANCE (R618 to R621, R625, R647): the step in progress has met its condition.  `bad` counts the failed copies of the
parameter area, `lost` the records whose CRC fails in both copies (step 2), `mv` is the main input at step 5, `badStacks` the stacks that
fail their training at step 7. -/
def execStartUpStepAdvance (bad : Fin 3) (lost : List Nat) (mv : Fin 65536) (badStacks : List (Fin 8)) (s : State) : Res :=
  .next <| guardS s.power.stbyOn s fun s =>
    match s.o Od.bootStep with
    | 1 => s.stepTo 2
    | 2 => (s.bootStep2 bad.val lost).stepTo 3
    | 3 => guardS (s.beatState == bsLOCKED || s.beatState == bsSTANDALONE) s fun s => s.stepTo 4
    | 4 => guardS (!s.coolHeld && decide (i16 (s.o Od.inletTemp) ≤ i16 (s.o Od.inletMax)) && s.warmEnough && !s.boot.awaitMain) s fun s =>
        ({ s with power := { s.power with mainSw := true } } : State).stepTo 5
    | 5 => guardS (decide (50000 ≤ mv.val ∧ mv.val ≤ 58000)) s fun s =>
        let s := s.setO Od.mainInputMv mv.val
        let s := { s with power := { s.power with mainOn := true, capClk := 1500 } }
        let s := (s.record 0x03 0 (dataDown [(16, mv.val)])).stepTo 6
        applyAll (fun s p => s.wake p 2 [64, 0]) s s.bootDomains
    | 6 => guardS (s.bootDomains.all fun p => s.pdOn p || s.pdState p == pdFAILED) s fun s =>
        if s.pdState 84 == pdFAILED || s.pdState 91 == pdFAILED then s.bootStop 0x86 else s.stepTo 7
    | 7 =>
      let s := applyAll (fun s (h : Fin 8) => if s.mem.stacksOut.contains h.val then s else s.stackFails h.val) s badStacks
      if s.twoStacks then s.beginStep8 else s.bootStop 0x87
    | 8 => guardS s.boot.attempt.isSome s fun s =>
        let s := s.stepTo 9
        if s.o Od.indexState = 6 then s.setO Od.indexState 2 else s
    | 9 => guardS ([0, 3, 4, 5].contains (s.o Od.indexState)) s fun s => s.stepTo 10
    | 10 =>
      let s := { s with store := tMap {} s.store fun _ x => if x.state = 1 then {} else x
                        boot := { s.boot with attempt := none, tried := [] } }
      (s.stepTo 11).bootRecord
    | _ => s

/-! ## Updates (R630 to R633) -/

/-- A command of UPDATE_COMMAND takes effect: slot 7 is extended (R625). -/
def State.updateTook (s : State) (c : Nat) : State := (s.setO Od.updateCommand 0).measure 7 0x0C c 0 c

/-- The drain begins (R631): OVERLOAD_LEVEL reads 3 and the deferral queue is emptied. -/
def State.beginDrain (s : State) (target : Option Nat) : State :=
  let s := { s with boot := { s.boot with draining := true, drainTo := target } }
  let s := s.setO Od.overloadLevel 3
  let retry := s.drainRetry
  let s := applyAll (fun s r => s.refuse r 2 0x04 retry) s s.gate.deferq
  { s with gate := { s.gate with deferq := [] } }

/-- UPDATE_ACTIVATE (R624, R630): a VERIFIED image: the drain, or from 0x88 at once step 8 with that image. -/
def execUpdateActivate (s : State) : Res :=
  .next <| guardS (s.o Od.updateCommand == 1 && s.o Od.updateState == 2 && !s.boot.draining) s fun s =>
    let t := s.updateTarget
    let s := s.updateTook 1
    if s.o Od.bootStep = 0x88 then
      let s := s.setUpdate 0 t
      { s with boot := { s.boot with tried := [1 - t] } }.beginStep8
    else s.beginDrain (some t)

/-- UPDATE_CONFIRM (R630, R633): the running image becomes the preferred one. -/
def execUpdateConfirm (s : State) : Res :=
  .next <| guardS (s.o Od.updateCommand == 2 && s.o Od.updateState == 4) s fun s =>
    let i := s.o Od.bootImage
    let s := (s.updateTook 2).setO Od.preferredImage i
    let s := s.putRwp [{ key := Od.preferredImage, val := i }]
    s.setUpdate 0 i

/-- UPDATE_CANCEL (R630): in VERIFIED, IDLE or the end of the drain; in TRIAL, a drain and a restart into the preferred image. -/
def execUpdateCancel (s : State) : Res :=
  .next <| guardS (s.o Od.updateCommand == 3 && (s.o Od.updateState == 2 || s.o Od.updateState == 4)) s fun s =>
    if s.o Od.updateState = 2 then
      let s := s.updateTook 3
      if s.boot.draining then { s with boot := { s.boot with draining := false, drainTo := none } } else s.setUpdate 0 s.updateTarget
    else
      let i := s.o Od.bootImage
      (((s.updateTook 3).setUpdate 0 i).addO Od.rollbacks 1).beginDrain none

/-- Whether a restart returns an object to its default (R632): every writable object that is not RWP, and what its unloading leaves of the
objects of models, skeins, slots, templates and feature sets. -/
def restartDrops (k : Nat) : Bool :=
  let i := k / 256
  decide (0x5000 ≤ i ∧ i ≤ 0x503F) || decide (0x5200 ≤ i ∧ i ≤ 0x53FF) || decide (0x6040 ≤ i ∧ i ≤ 0x607F) ||
    decide (0x7000 ≤ i ∧ i ≤ 0x707F) || decide (0x70A0 ≤ i ∧ i ≤ 0x70BF) || decide (0x7100 ≤ i ∧ i ≤ 0x714F) ||
    match objRow? i (k % 256) with
    | some r => r.acc == .rw || r.acc == .rwl
    | none => false

/-- The restart that follows a drain (R632): everything loaded is unloaded, pages are FREE, arrays and slices OFF, reed cores reset. (DEDUCED; log entry 61) -/
def State.restart (s : State) : State :=
  let s := applyAll State.unloadModel s (List.range 64)
  let s := if (s.stake 511).used then s.unmountIndex else s
  let s := applyAll State.freePage s ((s.mem.pages.filter fun e => e.2.cls != cRETIRED).map (·.1))
  let s := { s with
    prefixes := [], vocabs := [], grammars := [], tables := [], trieQ := [], tries := [], masks := [], blobs := []
    mem := { s.mem with refetch := [], queues := [] }, index := { s.index with dicts := [], dictPend := [] }
    dict := { s.dict with chain := { s.dict.chain with sels := [] }, mbox := { s.dict.mbox with sels := [] } } }
  let s := s.setO Od.prefixEntriesUsed 0
  let s := applyAll (fun s p =>
    let s := if s.pdState p == pdFAILED then s else (s.partsLost p).setPdState p pdOFF
    s.setPd p {}) s ((List.range 84).filter fun p => isArrayPd p || isSlicePd p)
  let s := { s with od := s.od.filter fun e => !restartDrops e.1 }
  let s := applyAll (fun s d => (s.resetNow (21 * d + 16)).resetNow (21 * d + 17)) s (List.range 4)
  s.coresLost 128 16

/-- DRAIN_END (R631 to R633): no admitted request is in flight and no merge is under way; stripes are closed, a checkpoint written, and
the module restarts at step 8, in TRIAL after an ACTIVATE. -/
def execDrainEnd (s : State) : Res :=
  .next <| guardS (s.boot.draining && !(s.reqs.any fun e => e.2.state == 2) && s.index.lists.all fun e => e.2.merge.isNone) s fun s =>
    let s := match s.index.stripe with
      | some t => if s.mounted then s.closeStripe t else s
      | none => s
    let s := if s.mounted then s.setIndex { s.index.closeText with ckpt := s.beat } else s
    let s := s.restart
    let s := { s with boot := { s.boot with draining := false, tried := [] } }
    match s.boot.drainTo with
    | some i => (s.setUpdate 4 i).beginStep8
    | none => s.beginStep8

end Sys2Proof.Machine
end

