-- ==== Sys2Proof/Machine/Pins.lean ====
section
/-!
DEFINITION. Side-band pins, the UART tap and JTAG (22_module_package_pins.md R641 to R649).
-/
namespace Sys2Proof.Machine

/-- PIN_HOLD_END (R646): the neutral hold of pin n ends and its new function starts. -/
def execPinHoldEnd (n : Fin 12) (s : State) : Res :=
  .next { s with pins := { s.pins with holds := tDel n.val s.pins.holds } }

/-- FAULT_PULSE_END (R641): 10 ms have passed since the last increment of SINGLE_FAULTS (FAULT_N), or of THERMAL_TRIPS (ALERT_N). -/
def execFaultPulseEnd (alert : Bool) (s : State) : Res :=
  .next <| if alert then { s with pins := { s.pins with alertPulse := false } } else { s with pins := { s.pins with faultPulse := false } }

/-- SYNC_MARK_FALL (R641): 1 µs after its rise. -/
def execSyncMarkFall (s : State) : Res := .next { s with pins := { s.pins with syncHigh := false } }

/-- UART_TAP_RESTART (R645): a frame received on UART_RX of 0xA5, 0x5A and a record number sends the records from it on every UART_TX
pin; a frame that breaks this form is ignored. -/
def execUartTapRestart (frame : List Byte) (s : State) : Res :=
  .next <| guardS (s.power.stbyOn && s.pinWith 8 && frame.length == 10 && beAt frame 0 2 == 0xA55A) s fun s =>
    let f := max (leAt frame 2 8) (s.recs.next - 65536)
    if s.pinWith 7 then
      { s with pins := { s.pins with uartOut := (s.recs.ring.filter fun (r : Rec) => decide (f ≤ r.number)).reverse } }
    else s

/-! ## JTAG (R648) -/

/-- The instruction register of the TAP, and what TDO shifts out. -/
def State.tap (s : State) (instr tdo : Nat) : State := { s with pins := { s.pins with jtag := instr, tdo := tdo } }

/-- IDCODE's value. -/
def idcode : Nat := 0xB8384001

/-- The boundary-scan register: bits 0 to 11 SB0 to SB11, then DBG_TX, DBG_RX, E4, E9, E11; what the module drives, and the level from
outside elsewhere.  DBG_TX idles high; E11 is tied to ground (R638). (DEDUCED; log entry 64) -/
def State.scan (s : State) (outside : Nat) : Nat :=
  s.levels outside + 2 ^ 12 * (if s.pins.jtag = 3 ∨ s.pins.jtag = 4 then b2n (bitAt s.pins.bsr 12) else 1) +
    2 ^ 13 * (outside / 2 ^ 13 % 8)

/-- TAP_RESET (R648): IEEE 1149.1 selects IDCODE; the pins are the module's own again. (DEDUCED; log entry 64) -/
def execTapReset (s : State) : Res := .next (s.tap 1 idcode)

/-- BYPASS (R648): one bit, 0 when captured; every code without an instruction of its own acts so. -/
def execBypass (s : State) : Res := .next (s.tap 0 0)

/-- IDCODE (R648, R36): every unit shifts out the same value. -/
def execIdcode (s : State) : Res := .next (s.tap 1 idcode)

/-- SAMPLE_PRELOAD (R648): the boundary-scan register is sampled and loaded; the pins keep their functions. -/
def execSamplePreload (outside preload : BitVec 17) (s : State) : Res :=
  .next <|
    let s := s.tap 2 (s.scan outside.toNat)
    { s with pins := { s.pins with bsr := preload.toNat } }

/-- EXTEST (R648): the boundary-scan register drives the pins, or the instruction acts as BYPASS. -/
def execExtest (s : State) : Res := .next (if s.tapMayDrive then s.tap 3 s.pins.bsr else s.tap 0 0)

/-- CLAMP (R648): the boundary-scan register drives the pins and TDO shifts the bypass bit. -/
def execClamp (s : State) : Res := .next (if s.tapMayDrive then s.tap 4 0 else s.tap 0 0)

/-- HIGHZ (R648): every output is released. -/
def execHighz (s : State) : Res := .next (if s.tapMayDrive then s.tap 5 0 else s.tap 0 0)

end Sys2Proof.Machine
end

