-- ==== Sys2Proof/Machine/Ageing.lean ====
section
/-!
DEFINITION. Ageing samples and the margin planner (20_faults_ageing_record.md R609 to R612).
-/
namespace Sys2Proof.Machine

/-- The power domain of monitored domain i (subindex i + 1): arrays, compute spines, RN and RS (R559). -/
def pdMonitored (i : Nat) : Nat := if i < 32 then pdArray i else pdSpine (i - 32)

/-- The limits of a supply in mV (R610). -/
def supplyMin (i : Nat) : Nat := if i < 32 then 650 else 700
def supplyMax : Nat := 850

/-- MARGIN_CHANGES, LAST_MARGIN_CHANGE and the record of a change (R612). -/
def State.marginChange (s : State) (i mv clk : Nat) : State :=
  let v := packFields [(8, i + 1), (16, mv), (16, clk), (40, 0), (48, s.beat)]
  let s := (s.addO Od.marginChanges 1).setO Od.lastMarginChange v
  s.record 0x15 i (dataDown [(128, v)])

/-- The clock of a monitored domain: the planner clock of an array, SCLK for a spine. -/
def State.agedClk (s : State) (i : Nat) : Nat := if i < 32 then tGet 1200 s.power.planClk i else 1600

def State.aged_ (s : State) (i : Nat) : Aged := tGet {} s.aged i
def State.setAged (s : State) (i : Nat) (x : Aged) : State := { s with aged := tSet {} s.aged i x }

/-- Hours until V_min + F reaches the highest supply, at the slope of a least-squares line through the points, from the latest of them
(R611); a point spans 256 sampling periods. -/
def floorHours (f periodBeats periodUs : Nat) (hist : List Nat) : Nat :=
  let n := hist.length
  if n < 16 then 0xFFFFFFFF else
  let xs := List.range n
  let sx := xs.sum
  let sy := hist.sum
  let sxy := ((xs.zip hist).map fun p => p.1 * p.2).sum
  let sxx := (xs.map fun x => x * x).sum
  let num := n * sxy - sx * sy
  if n * sxy ≤ sx * sy then 0xFFFFFFFF else
  let left := supplyMax - f - hist.getLastD 0
  min 0xFFFFFFFF (left * (n * sxx - sx * sx) * (256 * periodBeats * periodUs) / (num * 3600000000))

/-- The history's part of a sample (R611). (DESIGN CHOICE; log entry 46) -/
def State.ageHistory (s : State) (i vmin : Nat) : State :=
  let x := s.aged_ i
  let x := { x with accum := x.accum + vmin, samples := x.samples + 1 }
  if x.samples < 256 then s.setAged i x else
  let h := x.hist ++ [x.accum / 256]
  let h := h.drop (h.length - 64)
  let s := s.setAged i { x with accum := 0, samples := 0, hist := h }
  s.setO (Od.floorHours i) (floorHours (s.o Od.marginFloorMv) (s.o Od.ageingPeriodBeats) s.periodUs h)

/-- The least number of 5 mV steps that gives a margin of F + 20, within the highest supply (R610). -/
def raisedSupply (f : Nat) (mv : Nat) (margin : Int) : Nat :=
  min supplyMax (mv + 5 * cdiv (((f : Int) + 20 - margin).toNat) 5)

/-- The first row of R610 that applies to a domain's sample. -/
def State.marginPlan (s : State) (i vmin50 : Nat) (margin : Int) : State :=
  let f := s.o Od.marginFloorMv
  let mv := s.o (Od.supplyMv i)
  let clk := s.agedClk i
  let setClk (s : State) (c : Nat) : State :=
    ({ s with power := { s.power with planClk := tSet 1200 s.power.planClk i c } } : State).marginChange i mv c
  let setMv (s : State) (v : Nat) : State := (s.setAged i { s.aged_ i with pending := some v }).marginChange i v clk
  let floorRec (s : State) (pk part out : Nat) : State := s.faultRec 0x32 pk part out 0 0 [(16, ofI16 margin), (16, mv)]
  if margin < (f : Int) + 10 ∧ mv < supplyMax then setMv s (raisedSupply f mv margin)
  else if margin < (f : Int) ∧ i < 32 then
    if clk < 850 then (floorRec s 0 i 1).retireArray i 2 else setClk s (clk - 50)
  else if margin < (f : Int) then floorRec s 12 (pdMonitored i) 0
  else if i < 32 ∧ clk < 1500 ∧ (f : Int) + 20 ≤ (mv : Int) - (vmin50 : Int) then setClk s (clk + 50)
  else if 16 ≤ (s.aged_ i).streak ∧ supplyMin i < mv then setMv s (max (supplyMin i) (mv - 5))
  else s

/-- The supply a domain was started with, where the planner has not set one. -/
def State.supplyKnown (s : State) (i supply : Nat) : State :=
  if s.o (Od.supplyMv i) = 0 then s.setO (Od.supplyMv i) (max (supplyMin i) (min supplyMax supply)) else s

/-- The margin of a sample. -/
def State.marginOf (s : State) (i vmin : Nat) : Int := (s.o (Od.supplyMv i) : Int) - (vmin : Int)

/-- A sample's margin, its streak of high margins and its history (R609 to R611). -/
def State.ageSampled (s : State) (i vmin : Nat) : State :=
  let margin := s.marginOf i vmin
  let s := s.setO (Od.marginMv i) (ofI16 margin)
  let high := decide ((s.o Od.marginFloorMv : Int) + 40 ≤ margin)
  let x := s.aged_ i
  (s.setAged i { x with due := false, streak := if high then x.streak + 1 else 0 }).ageHistory i vmin

/-- AGEING_SAMPLE (R609 to R612): a domain that is ON is sampled at a beat multiple of AGEING_PERIOD_BEATS, or at its first ON after one;
V_min and V_min+50 in mV.  `supply` is the supply the domain was started with, where the planner has not set one (DESIGN CHOICE; log entry 46). -/
def execAgeingSample (d : Fin 38) (vmin vmin50 supply : Fin 65536) (s : State) : Res :=
  .next <|
    let i := d.val
    let x := s.aged_ i
    guardS (s.pdOn (pdMonitored i) && (x.due || s.beat % max 1 (s.o Od.ageingPeriodBeats) == 0)) s fun s =>
      let s := s.supplyKnown i supply.val
      (s.ageSampled i vmin.val).marginPlan i vmin50.val (s.marginOf i vmin.val)

/-- At a boundary: pending voltages take effect (R610), and domains that are OFF at a sampling beat wait for their next ON (R609). -/
def State.ageBoundary (s : State) : State :=
  let s := applyAll (fun (s : State) (e : Nat × Aged) => match e.2.pending with
    | some v => (s.setO (Od.supplyMv e.1) v).setAged e.1 { e.2 with pending := none }
    | none => s) s s.aged
  if s.beat % max 1 (s.o Od.ageingPeriodBeats) != 0 || !s.power.mainOn then s
  else applyAll (fun s i => if s.pdOn (pdMonitored i) then s else s.setAged i { s.aged_ i with due := true }) s (List.range 38)

end Sys2Proof.Machine
end

