-- ==== Sys2Proof/Machine/Beat.lean ====
section
/-!
DEFINITION. The beat boundary: assembly and placement of steps, overload, deferral releases, the deadline monitor and what else every
boundary brings (00_scope.md R663; 07_models_stakes_steps.md R221 to R233; 08_admission_and_deadlines.md R251, R257 to R265;
09_generation.md R291, R300; 11_tokenizer_and_grammar.md R349).
-/
namespace Sys2Proof.Machine

/-! ## Ladder moves (R251, R291, R442) -/

/-- Whether a stage (0 ENCODE, 1 SEARCH, 2 RERANK, 3 GENERATE) has committed no step for a request and is still to come (R251). -/
def Req.mayMove (x : Req) (st : Nat) : Bool :=
  (stagesOf x.head.kind).contains st && x.final.isNone &&
  match st with
  | 0 => if x.head.kind = 5 then x.items.all (fun i => i.code.isNone) else decide (x.stage ≤ 4) && x.code.isNone
  | 1 => if x.head.kind = 5 then x.items.all (fun i => i.list.isNone) else decide (x.stage ≤ 6)
  | 2 => decide (x.stage ≤ 10) && x.cands.all fun c => c.score.isNone
  | _ => decide (x.stage ≤ 16)

/-- The tag of a stage's rows. -/
def rowStage (st : Nat) : Nat := if st = 0 then 4 else if st = 1 then 6 else if st = 2 then 13 else 16

/-- Rows of a request's stage leave the steps that wait for placement. -/
def State.withdraw (s : State) (r st : Nat) : State :=
  let hit (z : Row) : Bool := z.req == r && z.stage == rowStage st
  applyAll (fun s (e : Nat × Step) =>
    if (e.2.state == spPENDING || e.2.state == spREPLAY) && e.2.rows.any hit then
      let rows := e.2.rows.filter fun z => !hit z
      if rows.isEmpty then s.dropStep e.1 else s.setStep e.1 { e.2 with rows := rows }
    else s) s s.steps

/-- The pages of a side of a sequence are set apart: they stay its own until completion (R291). -/
def Seq.shelve (y : Seq) (side : Nat) : Seq :=
  let used := y.kv.map fun e => e.1 / 2 ^ 20
  match (List.range 16).find? fun i => decide (2 ≤ i) && !used.contains i with
  | none => y
  | some i => { y with kv := applyAll (fun (t : Tbl Nat) e =>
      tIns (if e.1 / 2 ^ 20 = side then e.1 % 2 ^ 20 + i * 2 ^ 20 else e.1) e.2 t) [] y.kv }

/-- The sequence of a request takes the models of its new GENERATE level (R291): proposals are void; a model that the sequence already
runs keeps its pages, another starts from the blocks it adopted. (DEDUCED; log entry 36) -/
def State.moveSeq (s : State) (r : Nat) : State :=
  let x := s.req r
  match x.seqE with
  | none => s
  | some q =>
    let y := s.seq q
    let was := y.draft
    let hadDraft := y.spec || y.model == y.draft
    let z := y.atLevel x
    let alone := x.alone
    let adopt (m : Nat) : Nat := 256 * (s.chainOf y m).length
    let keep0 := !alone && z.model == y.model && !(y.model == y.draft && !y.spec)
    let keep1 := (alone || z.spec) && hadDraft && z.draft == was
    let kv := if keep0 then y.kvLen else if alone then y.kvLen else adopt z.model
    let dr := if keep1 then min y.drLen kv else if alone || z.spec then adopt z.draft else 0
    let z := { z with props := [], drafting := false, round := 0, drawn := none, kvLen := kv, drLen := dr
                      skSlot := (x.skeinFor z.model).map (·.1), adopted := (s.chainOf y z.model).length }
    let z := if keep0 then z else z.shelve 0
    let z := if keep1 then z else z.shelve 1
    ((s.setSeq q z).truncate q 1).nextRound q

/-- Stage 12 is given up for the models it was done for; lines already read stay (R442). -/
def Req.unpool (x : Req) (all : Bool) : Req :=
  let cs := x.cands.map fun c => { c with feats := [] }
  if all then { x with cands := cs, pool := [], missing := [], retried := [], fromCache := [], crcs := [] } else { x with cands := cs }

/-- A decided move takes effect (R251): rows of the stage that wait for placement are formed anew at the new level. (DEDUCED; log entry 36) -/
def State.applyMove (s : State) (r st l : Nat) : State :=
  let x := s.req r
  let s := s.withdraw r st
  let old := (s.rowMax x, x.fset.qMax, x.fset.rowMax)
  let y := { x with levels := x.levels.set st l }
  match st with
  | 0 =>
    let m := (y.modelOf 0).getD 64
    let cut (ts : List Nat) : List Nat := ts.take (min 512 (s.topRows m))
    s.setReq r { y with toks := y.toks.map cut, items := y.items.map fun i => { i with toks := i.toks.map cut } }
  | 1 => s.setReq r y
  | 2 =>
    if y.stage < 10 then s.setReq r y
    else if ladAction (y.entry 2) = 1 then
      let y := y.unpool false
      let s := s.setReq r y
      if (s.rowMax y, y.fset.qMax, y.fset.rowMax) = old then (s.pumpGather r).tryRerank r
      else
        let s := s.setReq r { y with rtoks := none, cands := y.cands.map fun c =>
          if c.text.isSome && c.status = 0 then { c with toks := none } else c }
        (s.askTokens r 1 0).pumpGather r
    else (s.setReq r (y.unpool true)).tryRerank r
  | _ => (s.setReq r y).moveSeq r

/-- The moves decided at the boundary before (R251, R261); GENERATE moves between two steps of the request. -/
def State.applyMoves (s : State) : State :=
  let ms := s.gate.moves
  let s : State := { s with gate := { s.gate with moves := [] } }
  applyAll (fun (s : State) (e : Nat × Nat × Nat) =>
    let x := s.req e.1
    let busy := s.steps.any fun k => (k.2.state == spRUNNING || k.2.state == spSUSPENDED) &&
      k.2.rows.any fun z => z.req == e.1 && z.stage == 16
    if !s.hasReq e.1 || x.state != 2 || !x.mayMove e.2.1 then s
    else if e.2.1 = 3 && busy then { s with gate := { s.gate with moves := s.gate.moves ++ [e] } }
    else s.applyMove e.1 e.2.1 e.2.2) s ms

/-! ## Assembly (R227) -/

/-- Rows in rank order, then by admission, then by their place among the request's inputs. -/
def State.rowKey (s : State) (z : Row) : List Nat := [64 - z.rank, (s.req z.req).admitted, z.item]

/-- Rows of a model's requests that await a step; sequences without room for their output are left out (R300). -/
def State.waitingRows (s : State) (m : Nat) : List Row :=
  let rows := s.reqs.flatMap fun e => ((s.rowsOf e.1).filter fun z => z.1 == m && (z.2.stage != 16 || match e.2.seqE with
    | some q => !s.outStalled e.2 (s.seq q)
    | none => true)).map (·.2)
  sortBy (fun a b => lexLt (s.rowKey a) (s.rowKey b)) rows

/-- The step budget in beats of the highest-ranked class with a row. -/
def State.rowsBudget (s : State) (rows : List Row) : Nat :=
  match (sortBy (fun a b => lexLt (s.rowKey a) (s.rowKey b)) rows).head? with
  | some z => (s.req z.req).cls.budget
  | none => 0

def State.fitsStep (s : State) (m : Nat) (rows : List Row) : Bool := s.rowsFit m (s.rowsBudget rows) rows

/-- The rows of one step, from those that wait. -/
def State.pickRows (s : State) (m : Nat) (wait : List Row) : List Row :=
  let top := s.topRows m
  let one := (wait.filter fun z => z.kind != 2).foldl (fun (acc : List Row) z =>
    if acc.isEmpty || s.fitsStep m (acc ++ [z]) then acc ++ [z] else acc) []
  let pre := wait.filter fun z => z.kind == 2
  let two := pre.foldl (fun (acc : List Row) z =>
    match (chunks top z.n).find? fun c => s.fitsStep m (acc ++ [{ z with n := c }]) with
    | some c => acc ++ [{ z with n := c }]
    | none => acc) one
  match two, pre with
  | [], z :: _ => [{ z with n := (chunks top z.n).getLastD z.n }]
  | _, _ => two

/-- Steps of a model assembled while its PENDING steps stay within its good stakes. -/
def assemble (m : Nat) : Nat → State → State
  | 0, s => s
  | fuel + 1, s =>
    let pend := (s.steps.filter fun e => e.2.model == m && e.2.state == spPENDING).length
    if (s.goodStakes m).length ≤ pend then s else
    match s.pickRows m (s.waitingRows m) with
    | [] => s
    | rows =>
      let k := s.nextStep
      let fold := ((s.model m).plan.map fun p => p.foldFor (rows.map (·.n)).sum).getD 0
      assemble m fuel { s.setStep k { model := m, rows := rows, fold := fold, asm := s.beat } with nextStep := k + 1 }

/-- STEP_ASSEMBLY (R227), and the beats lost for lack of output space (R300). -/
def State.assembleAll (s : State) : State :=
  let stalled := s.reqs.filter fun e => match e.2.seqE with
    | some q => !(s.rowsOf e.1).isEmpty && e.2.stage == 16 && s.outStalled e.2 (s.seq q)
    | none => false
  let s := s.addO Od.outputStallBeats stalled.length
  applyAll (fun s m =>
    if s.o (Od.modelState m) = 3 ∨ s.o (Od.modelState m) = 4 then assemble m 8 s else s) s (List.range 64)

/-! ## Placement (R231, R232, R349) -/

def Step.rank (t : Step) : Nat := (t.rows.map (·.rank)).foldl max 0
def Step.bulk (t : Step) : Bool := t.rows.all (·.bulk)

/-- Running steps that occupy arrays of a stake. -/
def State.occupants (s : State) (n : Nat) : List Nat :=
  let mine := (s.stake n).arrays
  (s.steps.filter fun e => e.2.state == spRUNNING && (s.stake e.2.stake).arrays.any mine.contains).map (·.1)

def State.stakeFree (s : State) (n : Nat) : Bool :=
  let x := s.stake n
  x.used && x.state == skIDLE && x.lead && (s.occupants n).isEmpty && x.arrays.all s.arrInService

def State.stakeAwake (s : State) (n : Nat) : Bool := (s.stake n).arrays.all fun a => s.pdOn (pdArray a)

/-- The stakes a step may be placed on: a suspended one its own, a replay none that holds an array it excludes while another is good. -/
def State.stakesFor (s : State) (t : Step) : List Nat :=
  if t.state == spSUSPENDED then [t.stake] else
  let ns := (s.stakesOf t.model).filter fun n => (s.stake n).used
  let clean := ns.filter fun n => !((s.stake n).arrays.any t.excl.contains)
  if clean.any fun n => (s.stake n).state != skDEGRADED then clean else ns

/-- The mask jobs of a placed step (R349); `smp` gives the sampling array of a sequence's row, the first one of the stake otherwise. -/
def State.maskJobs (s : State) (k n ep : Nat) (smp : List (Nat × Nat)) : State :=
  let t := s.step_ k
  let x := s.stake n
  let first := ((s.planX t.model).sampling.filterMap fun la =>
    let b := x.place.getD la 64
    if bitAt b 6 then none else some (b % 32)).headD 0
  applyAll (fun s (z : Row) =>
    match (s.req z.req).seqE with
    | none => s
    | some q =>
      let y := s.seq q
      if !y.gEn || !s.rowDraws z then s else
      let a := ((smp.find? fun p => p.1 == q).map (·.2)).getD first
      let mode := if z.draft && !(s.req z.req).alone then 2 else if z.kind = 1 then 3 else 1
      match s.residentOf n a with
      | none => s
      | some r => applyAll (fun s p => let g := y.gramAt mode p
          s.queueMask a y.gSlot g.1 g.2 q p r (ep % 65536)) s (List.range (if z.kind = 1 then z.n else 1))) s t.rows

/-- A step starts on a stake, or resumes there; behind a course that still runs to its end it waits for that end (R225, R230, R232).
Domains that are not ON are woken (R572). -/
def State.placeOn (s : State) (k n : Nat) (smp : List (Nat × Nat)) : State :=
  let t := s.step_ k
  let x := s.stake n
  let resume := t.state == spSUSPENDED
  let behind := x.step.isSome
  let ep := if behind || !resume then (x.epoch + 1) % 2 ^ 32 else x.epoch
  let parts := ((s.stakeDomains n).filter s.pdOn).foldl (fun (p : Tbl Nat) d => tIns d (s.o (Od.pdEpoch d)) p) []
  let s := if t.state == spREPLAY then s.addO (Od.stepsReplayed t.model) 1 else s
  let s := s.setStake n { x with
    step := if behind then x.step else some k, next := if behind then some k else none, susp := if resume then none else x.susp
    state := skBUSY, epoch := if behind then x.epoch else ep, beat := s.beat, parts := parts }
  let course := if resume || (t.state == spREPLAY && t.stake == n) then t.course else 0
  let s := s.setStep k { t with state := spRUNNING, stake := n, course := course, epoch := ep, suspend := false, done := [] }
  let s := if behind || resume then s else s.sendStart n
  let s := s.maskJobs k n ep smp
  applyAll (fun s a => s.wake (pdArray a) 3 t.order) s (s.stake n).arrays

/-- An occupant gives way (R230): `waits` are the steps whose course is in a remote wait. (DEDUCED; log entry 35) -/
def State.preempt (s : State) (waits : List Nat) (k : Nat) : State :=
  let t := s.step_ k
  let x := s.stake t.stake
  let s := s.addO Od.stepsPreempted 1
  if x.next == some k then s.abandonStep k false
  else if t.suspend then s
  else if t.bulk || waits.contains k || x.susp.isSome then s.abandonStep k false
  else s.setStep k { t with suspend := true }

/-- The stake a step takes by pre-emption (R231). -/
def State.victim (s : State) (t : Step) : Option Nat :=
  let ns := (s.stakesFor t).filter fun n =>
    let x := s.stake n
    (x.state == skIDLE || x.state == skBUSY) && x.lead && !(s.occupants n).isEmpty &&
      (s.occupants n).all fun k => decide ((s.step_ k).rank < t.rank)
  let key (n : Nat) : List Nat :=
    [((s.occupants n).map fun k => (s.step_ k).rank).foldl max 0, b2n (!s.stakeAwake n), (s.stake n).plan]
  (sortBy (fun a b => lexLt (key a) (key b)) ns).head?

/-- Requests of a step bound to a FAILED skein end as it is placed (R244). -/
def State.dropFailedSkeins (s : State) (k : Nat) : State :=
  let t := s.step_ k
  let bad := t.rows.filter fun z => match (s.req z.req).skeinFor t.model with
    | some p => s.hasReq z.req && s.o (Od.skeinState p.1) == 4
    | none => false
  applyAll (fun s (z : Row) => s.failReq z.req 0x0B) s bad

/-- One step of the placement. (DEDUCED; log entry 35) -/
def State.placeStep (s : State) (k : Nat) (waits : List Nat) (smp : List (Nat × Nat)) : State :=
  let s := s.dropFailedSkeins k
  let t := s.step_ k
  if !s.hasStep k || t.state == spRUNNING then s else
  let ns := s.stakesFor t
  let own := t.state == spREPLAY && ns.contains t.stake && s.stakeFree t.stake
  let free := ns.filter s.stakeFree
  let pick := if own then some t.stake else (free.find? s.stakeAwake).or free.head?
  match pick with
  | some n => s.placeOn k n smp
  | none =>
    match s.victim t with
    | none => s
    | some n => (applyAll (fun s j => s.preempt waits j) s (s.occupants n)).placeOn k n smp

/-- STEP_PLACEMENT (R231): descending rank, then oldest first, then ascending model. -/
def State.placeAll (s : State) (waits : List Nat) (smp : List (Nat × Nat)) : State :=
  let ks := s.steps.filter fun e => e.2.state != spRUNNING
  let ks := sortBy (fun a b => lexLt (a.2.order ++ [a.2.model, a.1]) (b.2.order ++ [b.2.model, b.1])) ks
  applyAll (fun s e => s.placeStep e.1 waits smp) s ks

/-! ## Stakes at a boundary (R221, R223) -/

/-- A stake returns to IDLE once every part it uses is in service with the epoch it had, and is DEGRADED otherwise; models none of whose
stakes can take a step are counted. -/
def State.stakeScan (s : State) : State :=
  let s := applyAll (fun s (e : Nat × Stake) =>
    let x := s.stake e.1
    if !x.used then s
    else if x.state == skDEGRADED then (if s.stakeBroken e.1 then s else s.setStake e.1 { x with state := skIDLE, parts := [] })
    else if x.state == skIDLE && s.stakeBroken e.1 then s.degradeStake e.1 false
    else if x.step.isSome && x.parts.any fun p => s.o (Od.pdEpoch p.1) != p.2 then s.degradeStake e.1 true
    else s) s s.stakes
  applyAll (fun s (e : Nat × Model) =>
    let st := s.o (Od.modelState e.1)
    let none_ := (st == 3 || st == 4) && !(s.stakesOf e.1).isEmpty && (s.goodStakes e.1).isEmpty
    s.setModel e.1 { s.model e.1 with stuck := if none_ then (s.model e.1).stuck + 1 else 0 }) s s.models

/-! ## Overload and deferral (R257, R259) -/

/-- OVERLOAD_LEVEL_UPDATE (R257); a draining module reads FULL (R631). -/
def State.overload (s : State) : State :=
  let i := s.o Od.inflight
  let l := if s.boot.draining || i = s.o Od.inflightMax || decide (s.o Od.deferQueueMax ≤ s.o Od.deferHeld) then 3
    else if s.o Od.deferInflight ≤ i || s.gate.lateLow then 2
    else if s.o Od.shedBulkInflight ≤ i || s.gate.moved then 1 else 0
  let p := s.o Od.deferFloor
  (s.setO Od.overloadLevel l).setO Od.deferFloor (if 2 ≤ l then min 16 (p + 1) else p - 1)

/-- DEFERRAL_RELEASE (R259). -/
def State.releaseDeferred (s : State) : State :=
  let key (r : Nat) : List Nat := let x := s.req r
    [64 - (s.classVal x.head.cls).rank, x.beat, x.seq]
  applyAll (fun s r =>
    let x := s.req r
    if s.hasReq r && x.state == 1 && decide (s.o Od.deferFloor ≤ s.o (Od.priority x.head.cls)) && s.hasRoom x then s.releaseReq r else s) s
    (sortBy (fun a b => lexLt (key a) (key b)) s.gate.deferq)

/-! ## The deadline monitor (R261 to R265) -/

/-- What the monitor knows of a request: its projected end, its latenesses, and whether the projection failed. -/
structure Late where
  req : Nat := 0
  nan : Bool := false
  fin : Int := 0
  key : Int := 0
  deriving DecidableEq, Repr

/-- FIRST_MISS (R265). -/
def State.firstMisses (s : State) : State :=
  applyAll (fun s (e : Nat × Req) =>
    let x := e.2
    if x.state == 2 && x.cls.first != 0 && x.firstBeat.isNone && decide (x.beat + x.cls.first ≤ s.beat) then
      s.setReq e.1 { x with firstMiss := true }
    else s) s s.reqs

/-- The lateness of a request that has a deadline: lateness_end, or lateness_first where it has no other (DEDUCED; log entry 34). -/
def State.lateness (s : State) (r : Nat) (x : Req) : Option Late :=
  let useFirst := x.cls.first != 0 && x.firstBeat.isNone && !x.firstMiss
  if x.state != 2 || (x.cls.e2e == 0 && !useFirst) then none else
  let p := s.project r x false s.beat
  let le : Int := (p.t : Int) - ((x.beat + x.cls.e2e : Nat) : Int)
  let lf : Int := ((p.first.getD p.t : Nat) : Int) - ((x.beat + x.cls.first : Nat) : Int)
  let ends := if p.bad then ((x.beat + x.cls.e2e + 65535 : Nat) : Int) else (p.t : Int)
  let key := if x.cls.e2e = 0 then lf else le
  some { req := r, nan := p.bad, fin := ends, key := if useFirst && !p.bad && decide (key ≤ 0) && decide (0 < lf) then lf else key }

/-- The FP32 value the monitor submits. -/
def Late.val (e : Late) : FP32 := if e.nan then f32nan else rne32 (ofDyadic e.key 0)

/-- The move of R264: the stage whose next usable level reduces the projected end most; ties to the later stage. -/
def State.bestMove (s : State) (e : Late) : Option (Nat × Nat) :=
  let x := s.req e.req
  let best := (stagesOf x.head.kind).foldl (fun (acc : Option (Int × Nat × Nat)) st =>
    if !x.mayMove st then acc else
    match s.usableFrom st (x.cls.ladders.getD st 0) (x.levels.getD st 0 + 1) with
    | none => acc
    | some l =>
      let p := s.project e.req { x with levels := x.levels.set st l } false s.beat
      let red : Int := e.fin - (p.t : Int)
      if p.bad || decide (red ≤ 0) then acc
      else match acc with
        | some b => if red < b.1 then acc else some (red, st, l)
        | none => some (red, st, l)) none
  best.map (·.2)

/-- DEADLINE_MONITOR and LADDER_MOVE (R261 to R264). -/
def State.monitor (s : State) : State :=
  let es := s.reqs.filterMap fun e => s.lateness e.1 e.2
  let sorted := sortBy (topkBefore true) ((es.zip (List.range es.length)).map fun e => (e.1.val, e.2))
  let back := (sorted.drop 1024).any fun p => let e := es.getD p.2 {}
    e.nan || decide (0 < e.key)
  let s := s.addO Od.monitorBacklog (b2n back)
  let s : State := { s with gate := { s.gate with moved := false, lateLow := false } }
  let s := s.setO Od.monitorEndangered 0
  applyAll (fun (s : State) (p : FP32 × Nat) =>
    let e := es.getD p.2 {}
    let s := if e.nan then s.addO (Od.mergeTopkNumfaultCount 0) 1 else s
    if !e.nan && decide (e.key ≤ 0) then s else
    if s.gate.moves.any fun m => m.1 == e.req then s else
    let x := s.req e.req
    match s.bestMove e with
    | some (st, l) =>
      let s := s.addO (Od.ladderMoves x.head.cls) 1
      { s with gate := { s.gate with moves := s.gate.moves ++ [(e.req, st, l)], moved := s.gate.moved || !x.cls.bulk } }
    | none =>
      let s := s.addO Od.monitorEndangered 1
      { s with gate := { s.gate with lateLow := s.gate.lateLow || !x.cls.bulk } }) s (sorted.take 1024)

/-! ## What else every boundary brings -/

/-- Writes that take effect at this boundary (R462, R541). -/
def State.applyDeferred (s : State) : State :=
  let ws := s.dict.deferred
  applyAll State.putObj { s with dict := { s.dict with deferred := [] } } ws

/-- Counts kept by beat: the lock's lease, idle transfers, arrays at rest, and what may happen once a beat. -/
def State.beatCounts (s : State) : State :=
  let idle (p : Path) : Path := { p with seg := p.seg.map fun g => { g with idle := g.idle + 1 } }
  let s := s.subO Od.lockRemaining 1
  { s with
    dict := { s.dict with chain := idle s.dict.chain, mbox := idle s.dict.mbox }
    mem := { s.mem with counted := [] }
    tables := tMap {} s.tables fun _ (t : TableSlot) => { t with counted := [] }
    parts := { s.parts with retries := [] }
    cores := (List.range 144).foldl (fun (t : Tbl RCore) c =>
      if s.pdOn (pdCore c) then tMod {} t c fun x => { x with beatIrq := true } else t) s.cores
    arrs := (List.range 32).foldl (fun (t : Tbl Arr) a =>
      if s.pdOn (pdArray a) then tMod {} t a fun x => { x with idleOff := if x.ramp == .off then x.idleOff + 1 else 0 } else t) s.arrs }

/-- SYNC_MARK_PULSE (R641). -/
def State.syncPulse (s : State) : State :=
  let n := s.o Od.syncMarkBeats
  if s.pinWith 9 && n != 0 && s.beat % max 1 n == 0 then { s with pins := { s.pins with syncHigh := true } } else s

/-- BEAT_BOUNDARY (R663): `waits` are the running steps whose course is in a remote wait now (R233), `smp` the sampling array the plan
gives a sequence's row (R310), `inlet` INLET_TEMP averaged over the beat just ended in 0.1 °C and `watts` the average main-input power
(R655, R579). (DEDUCED; log entry 10) -/
def execBeatBoundary (waits : List Nat) (smp : List (Nat × Nat)) (inlet : Int) (watts : Nat) (s : State) : Res :=
  .next <| guardS s.power.stbyOn s fun s =>
    let s := s.bufFaultRecs.carryRecords.beatAdvance
    let s := s.applyDeferred.beatCounts
    let s := s.ageBoundary.applyMoves
    let s := applyAll (fun s m => (s.skeinRetry m).skeinActivate m) s (List.range 64)
    let s := s.stakeScan.assembleAll.placeAll waits smp
    let s := s.overload.releaseDeferred
    let s := s.firstMisses.monitor
    let s := s.startMerges
    let s := (s.setO Od.mainInputW watts).powerLimitUpdate inlet
    s.powerCapStep.syncPulse

end Sys2Proof.Machine
end

