-- ==== Sys2Proof/Machine/Dispatch.lean ====
section
/-!
DEFINITION. What each command does to everything but the queue: one direct call of its meaning for each row.
-/
namespace Sys2Proof.Machine

def exec (i : Instr) (s : State) : Host.Outcome State Fault Refusal :=
  match i with
  | .beatBoundary waits smp inlet watts => Sys2Proof.Machine.execBeatBoundary waits smp inlet watts s
  | .syncMarkFall => Sys2Proof.Machine.execSyncMarkFall s
  | .standbyPowerApplied => Sys2Proof.Machine.execStandbyPowerApplied s
  | .startUpStepAdvance bad lost mv badStacks => Sys2Proof.Machine.execStartUpStepAdvance bad lost mv badStacks s
  | .imageAttemptTimeout => Sys2Proof.Machine.execImageAttemptTimeout s
  | .standbyPowerLoss => Sys2Proof.Machine.execStandbyPowerLoss s
  | .mainPowerLoss => Sys2Proof.Machine.execMainPowerLoss s
  | .mainOvervoltage => Sys2Proof.Machine.execMainOvervoltage s
  | .coolantInterlockOpen flow => Sys2Proof.Machine.execCoolantInterlockOpen flow s
  | .interlockOpenTimeout => Sys2Proof.Machine.execInterlockOpenTimeout s
  | .coolantInterlockClose flow => Sys2Proof.Machine.execCoolantInterlockClose flow s
  | .inletOverMax temp => Sys2Proof.Machine.execInletOverMax temp s
  | .thermalTripDie d temp => Sys2Proof.Machine.execThermalTripDie d temp s
  | .thermalTripClear d temp => Sys2Proof.Machine.execThermalTripClear d temp s
  | .thermalTripModule d temp => Sys2Proof.Machine.execThermalTripModule d temp s
  | .fastPowerComparator avgW => Sys2Proof.Machine.execFastPowerComparator avgW s
  | .throttleAssert => Sys2Proof.Machine.execThrottleAssert s
  | .throttleDeassert => Sys2Proof.Machine.execThrottleDeassert s
  | .aclkChange d => Sys2Proof.Machine.execAclkChange d s
  | .wakeGrant d t => Sys2Proof.Machine.execWakeGrant d t s
  | .wakeComplete p => Sys2Proof.Machine.execWakeComplete p s
  | .rampUpGrant d t => Sys2Proof.Machine.execRampUpGrant d t s
  | .rampComplete a => Sys2Proof.Machine.execRampComplete a s
  | .rampDownStart a bubbles => Sys2Proof.Machine.execRampDownStart a bubbles s
  | .idlePowerDown p => Sys2Proof.Machine.execIdlePowerDown p s
  | .quiesceComplete p => Sys2Proof.Machine.execQuiesceComplete p s
  | .domainReset p orderly => Sys2Proof.Machine.execDomainReset p orderly s
  | .domainResetComplete p => Sys2Proof.Machine.execDomainResetComplete p s
  | .domainFailure p attempt => Sys2Proof.Machine.execDomainFailure p attempt s
  | .mirrorCopy outcome => Sys2Proof.Machine.execMirrorCopy outcome s
  | .hangWatchdog init target => Sys2Proof.Machine.execHangWatchdog init target s
  | .partReset kind unit ns => Sys2Proof.Machine.execPartReset kind unit ns s
  | .keeperHeartbeat k w => Sys2Proof.Machine.execKeeperHeartbeat k w s
  | .keeperHeartbeatMiss k => Sys2Proof.Machine.execKeeperHeartbeatMiss k s
  | .keeperDualTimeout => Sys2Proof.Machine.execKeeperDualTimeout s
  | .spineOwnerWrite c v => Sys2Proof.Machine.execSpineOwnerWrite c v s
  | .coreHoldLimit c => Sys2Proof.Machine.execCoreHoldLimit c s
  | .mboxPop c n => Sys2Proof.Machine.execMboxPop c n s
  | .mboxStatusWrite c n v => Sys2Proof.Machine.execMboxStatusWrite c n v s
  | .postWindowWrite c t off bytes w => Sys2Proof.Machine.execPostWindowWrite c t off bytes w s
  | .bundle a c w ds kv fill => Sys2Proof.Machine.execBundle a c w ds kv fill s
  | .bundleWordWrite a c bytes w => Sys2Proof.Machine.execBundleWordWrite a c bytes w s
  | .bundlePortTimeout a => Sys2Proof.Machine.execBundlePortTimeout a s
  | .bundleComplete a key => Sys2Proof.Machine.execBundleComplete a key s
  | .tload a => Sys2Proof.Machine.execTload a s
  | .fetchComplete a => Sys2Proof.Machine.execFetchComplete a s
  | .feed a => Sys2Proof.Machine.execFeed a s
  | .skld a => Sys2Proof.Machine.execSkld a s
  | .mma a upsets => Sys2Proof.Machine.execMma a upsets s
  | .importBlk a => Sys2Proof.Machine.execImport a s
  | .estate a => Sys2Proof.Machine.execEstate a s
  | .smres a => Sys2Proof.Machine.execSmres a s
  | .norm a => Sys2Proof.Machine.execNorm a s
  | .tksub a => Sys2Proof.Machine.execTksub a s
  | .topkJobComplete a c => Sys2Proof.Machine.execTopkJobComplete a c s
  | .wait a => Sys2Proof.Machine.execWait a s
  | .signal a => Sys2Proof.Machine.execSignal a s
  | .fence a => Sys2Proof.Machine.execFence a s
  | .instructionComplete a n => Sys2Proof.Machine.execInstructionComplete a n s
  | .syncIncrementArrival n => Sys2Proof.Machine.execSyncIncrementArrival n s
  | .abandon a r epoch => Sys2Proof.Machine.execAbandon a r epoch s
  | .waitLimit a beats => Sys2Proof.Machine.execWaitLimit a beats s
  | .eccFault a mem key addr => Sys2Proof.Machine.execEccFault a mem key addr s
  | .liveTableError kind inst slot => Sys2Proof.Machine.execLiveTableError kind inst slot s
  | .liveTableReloadDone kind inst ns => Sys2Proof.Machine.execLiveTableReloadDone kind inst ns s
  | .slotLedgerError addr => Sys2Proof.Machine.execSlotLedgerError addr s
  | .tierDecision => Sys2Proof.Machine.execTierDecision s
  | .heatHalving => Sys2Proof.Machine.execHeatHalving s
  | .migrationComplete sl => Sys2Proof.Machine.execMigrationComplete sl s
  | .pageWriteComplete a r q draft g pos n keyA keyS valA sr => Sys2Proof.Machine.execPageWriteComplete a r q draft g pos n keyA keyS valA sr s
  | .granuleEccError g off tag => Sys2Proof.Machine.execGranuleEccError g off tag s
  | .stackPageEccError p pc dir both index => Sys2Proof.Machine.execStackPageEccError p pc dir both index s
  | .pageRefetchComplete p bytes => Sys2Proof.Machine.execPageRefetchComplete p bytes s
  | .pseudoChannelRetire h n trigger => Sys2Proof.Machine.execPseudoChannelRetire h n trigger s
  | .patrolScrubPass h channels pages => Sys2Proof.Machine.execPatrolScrubPass h channels pages s
  | .stackFailure h => Sys2Proof.Machine.execStackFailure h s
  | .modelLoad m x => Sys2Proof.Machine.execModelLoad m x s
  | .tileCopyComplete m ok => Sys2Proof.Machine.execTileCopyComplete m ok s
  | .modelLoadCommit m => Sys2Proof.Machine.execModelLoadCommit m s
  | .modelUnload m => Sys2Proof.Machine.execModelUnload m s
  | .modelUnloadCommit m => Sys2Proof.Machine.execModelUnloadCommit m s
  | .modelClear m => Sys2Proof.Machine.execModelClear m s
  | .modelFail m => Sys2Proof.Machine.execModelFail m s
  | .courseEnd k cycles outs => Sys2Proof.Machine.execCourseEnd k cycles outs s
  | .remoteWaitLimit k ns => Sys2Proof.Machine.execRemoteWaitLimit k ns s
  | .skeinLoad m pages => Sys2Proof.Machine.execSkeinLoad m pages s
  | .skeinWaitExpiry m => Sys2Proof.Machine.execSkeinWaitExpiry m s
  | .skeinCopyComplete m ok baseId tiles => Sys2Proof.Machine.execSkeinCopyComplete m ok baseId tiles s
  | .skeinRemove m => Sys2Proof.Machine.execSkeinRemove m s
  | .skeinSlotFree k => Sys2Proof.Machine.execSkeinSlotFree k s
  | .gateDecision port => Sys2Proof.Machine.execGateDecision port s
  | .deferLimitExpiry r => Sys2Proof.Machine.execDeferLimitExpiry r s
  | .deadlineExpiry r => Sys2Proof.Machine.execDeadlineExpiry r s
  | .prefixRelease p => Sys2Proof.Machine.execPrefixRelease p s
  | .detokenizeStream q => Sys2Proof.Machine.execDetokenizeStream q s
  | .diceJob a ws => Sys2Proof.Machine.execDiceJob a ws s
  | .diceJobComplete a => Sys2Proof.Machine.execDiceJobComplete a s
  | .maskFrameComplete a => Sys2Proof.Machine.execMaskFrameComplete a s
  | .rngKeyReplace u => Sys2Proof.Machine.execRngKeyReplace u s
  | .rngConditionedKey u raw => Sys2Proof.Machine.execRngConditionedKey u raw s
  | .vocabLoad v ok => Sys2Proof.Machine.execVocabLoad v ok s
  | .vocabLoadDone v => Sys2Proof.Machine.execVocabLoadDone v s
  | .vocabClose v => Sys2Proof.Machine.execVocabClose v s
  | .vocabCloseDone v => Sys2Proof.Machine.execVocabCloseDone v s
  | .grammarLoad g ok => Sys2Proof.Machine.execGrammarLoad g ok s
  | .grammarLoadDone g => Sys2Proof.Machine.execGrammarLoadDone g s
  | .grammarClose g => Sys2Proof.Machine.execGrammarClose g s
  | .grammarCloseDone g => Sys2Proof.Machine.execGrammarCloseDone g s
  | .certificationRecompute => Sys2Proof.Machine.execCertificationRecompute s
  | .tokenizeJob die busy => Sys2Proof.Machine.execTokenizeJob die busy s
  | .indexFormat => Sys2Proof.Machine.execIndexFormat s
  | .indexMount => Sys2Proof.Machine.execIndexMount s
  | .indexUnmount => Sys2Proof.Machine.execIndexUnmount s
  | .sideFlushTimeout => Sys2Proof.Machine.execSideFlushTimeout s
  | .sidePageProgramDone n core mb => Sys2Proof.Machine.execSidePageProgramDone n core mb s
  | .programFailure kind n core mb => Sys2Proof.Machine.execProgramFailure kind n core mb s
  | .stripeCloseTimeout => Sys2Proof.Machine.execStripeCloseTimeout s
  | .checkpoint => Sys2Proof.Machine.execCheckpoint s
  | .textPageProgramDone g => Sys2Proof.Machine.execTextPageProgramDone g s
  | .textReadDone r cd core mb => Sys2Proof.Machine.execTextReadDone r cd core mb s
  | .textDictLoad k => Sys2Proof.Machine.execTextDictLoad k s
  | .textDictRemove k => Sys2Proof.Machine.execTextDictRemove k s
  | .compaction => Sys2Proof.Machine.execCompaction s
  | .readReconstruct kind n page c cw ok core mb => Sys2Proof.Machine.execReadReconstruct kind n page c cw ok core mb s
  | .dieFailure c d ms core mb => Sys2Proof.Machine.execDieFailure c d ms core mb s
  | .rebuildBlockDone => Sys2Proof.Machine.execRebuildBlockDone s
  | .channelFailure c core mb => Sys2Proof.Machine.execChannelFailure c core mb s
  | .windowClose => Sys2Proof.Machine.execWindowClose s
  | .windowStart => Sys2Proof.Machine.execWindowStart s
  | .contextDone sp r core mb => Sys2Proof.Machine.execContextDone sp r core mb s
  | .rimMerge r => Sys2Proof.Machine.execRimMerge r s
  | .listCacheDecision => Sys2Proof.Machine.execListCacheDecision s
  | .listCacheFillDone l => Sys2Proof.Machine.execListCacheFillDone l s
  | .mergeProgrammed l => Sys2Proof.Machine.execMergeProgrammed l s
  | .listFlip l => Sys2Proof.Machine.execListFlip l s
  | .sideFloorRaise l => Sys2Proof.Machine.execSideFloorRaise l s
  | .tombstoneRetire => Sys2Proof.Machine.execTombstoneRetire s
  | .versionRelease l => Sys2Proof.Machine.execVersionRelease l s
  | .tableLoad t hdr l1 dflt counts ok => Sys2Proof.Machine.execTableLoad t hdr l1 dflt counts ok s
  | .tableLoadDone t => Sys2Proof.Machine.execTableLoadDone t s
  | .tableClose t => Sys2Proof.Machine.execTableClose t s
  | .tableCloseDone t => Sys2Proof.Machine.execTableCloseDone t s
  | .poolReadReply tag data => Sys2Proof.Machine.execPoolReadReply tag data s
  | .poolReadTimeout tag poison => Sys2Proof.Machine.execPoolReadTimeout tag poison s
  | .poolTagQuarantineEnd tag => Sys2Proof.Machine.execPoolTagQuarantineEnd tag s
  | .poolLinkDown => Sys2Proof.Machine.execPoolLinkDown s
  | .bagPool r c f => Sys2Proof.Machine.execBagPool r c f s
  | .rowCacheDecision => Sys2Proof.Machine.execRowCacheDecision s
  | .chunkFillDone t c bytes => Sys2Proof.Machine.execChunkFillDone t c bytes s
  | .promptPack r => Sys2Proof.Machine.execPromptPack r s
  | .datagramArrival port net bytes => Sys2Proof.Machine.execDatagramArrival port net bytes s
  | .requestFragment port hint => Sys2Proof.Machine.execRequestFragment port hint s
  | .reassemblyTimeout t id => Sys2Proof.Machine.execReassemblyTimeout t id s
  | .cancel port f => Sys2Proof.Machine.execCancel port f s
  | .preCancelExpiry t id => Sys2Proof.Machine.execPreCancelExpiry t id s
  | .free port f list => Sys2Proof.Machine.execFree port f list s
  | .fetch port f list => Sys2Proof.Machine.execFetch port f list s
  | .outputRetainExpiry b => Sys2Proof.Machine.execOutputRetainExpiry b s
  | .tenantDisable t => Sys2Proof.Machine.execTenantDisable t s
  | .submissionEntryWrite f off bytes => Sys2Proof.Machine.execSubmissionEntryWrite f off bytes s
  | .subTailDoorbell f tail => Sys2Proof.Machine.execSubTailDoorbell f tail s
  | .bodyDmaComplete r ok bytes hint => Sys2Proof.Machine.execBodyDmaComplete r ok bytes hint s
  | .fnControlWrite f v cplBase outBase => Sys2Proof.Machine.execFnControlWrite f v cplBase outBase s
  | .cplHeadWrite f v cycles => Sys2Proof.Machine.execCplHeadWrite f v cycles s
  | .hotReset => Sys2Proof.Machine.execHotReset s
  | .flr f => Sys2Proof.Machine.execFlr f s
  | .pcieLinkDown => Sys2Proof.Machine.execPcieLinkDown s
  | .functionReady f rate lanes => Sys2Proof.Machine.execFunctionReady f rate lanes s
  | .mbGo bytes => Sys2Proof.Machine.execMbGo bytes s
  | .peerStepStart l hdr start fold => Sys2Proof.Machine.execPeerStepStart l hdr start fold s
  | .peerData l hdr payload ref mag sk reply => Sys2Proof.Machine.execPeerData l hdr payload ref mag sk reply s
  | .peerIncrement l hdr => Sys2Proof.Machine.execPeerIncrement l hdr s
  | .peerCourseEnd l hdr => Sys2Proof.Machine.execPeerCourseEnd l hdr s
  | .peerLinkControl l hdr ack => Sys2Proof.Machine.execPeerLinkControl l hdr ack s
  | .peerFlitCrcFail l => Sys2Proof.Machine.execPeerFlitCrcFail l s
  | .peerLaneFault l bad good => Sys2Proof.Machine.execPeerLaneFault l bad good s
  | .peerRetrainDone l lane ns => Sys2Proof.Machine.execPeerRetrainDone l lane ns s
  | .peerLinkFail l => Sys2Proof.Machine.execPeerLinkFail l s
  | .spineFlitResend inst ns => Sys2Proof.Machine.execSpineFlitResend inst ns s
  | .d2dFlitRetry inst ns => Sys2Proof.Machine.execD2dFlitRetry inst ns s
  | .linkLaneRepair inst module lane spare ns => Sys2Proof.Machine.execLinkLaneRepair inst module lane spare ns s
  | .frameRepeat up hdr payload fcs => Sys2Proof.Machine.execFrameRepeat up hdr payload fcs s
  | .enumerate hop acc => Sys2Proof.Machine.execEnumerate hop acc s
  | .probe src => Sys2Proof.Machine.execProbe src s
  | .echo delay src => Sys2Proof.Machine.execEcho delay src s
  | .pathDown src => Sys2Proof.Machine.execPathDown src s
  | .upstreamLinkUp => Sys2Proof.Machine.execUpstreamLinkUp s
  | .upstreamLinkDown cutUp cutDown => Sys2Proof.Machine.execUpstreamLinkDown cutUp cutDown s
  | .addressHoldExpiry => Sys2Proof.Machine.execAddressHoldExpiry s
  | .beatWord word off gap => Sys2Proof.Machine.execBeatWord word off gap s
  | .beatMarkerMissing => Sys2Proof.Machine.execBeatMarkerMissing s
  | .holdoverLimit => Sys2Proof.Machine.execHoldoverLimit s
  | .dictRead path hdr payload full => Sys2Proof.Machine.execDictRead path hdr payload full s
  | .dictWrite path hdr payload full => Sys2Proof.Machine.execDictWrite path hdr payload full s
  | .segReadInit path hdr payload full => Sys2Proof.Machine.execSegReadInit path hdr payload full s
  | .segRead path hdr payload full => Sys2Proof.Machine.execSegRead path hdr payload full s
  | .segWriteInit path hdr payload full => Sys2Proof.Machine.execSegWriteInit path hdr payload full s
  | .segWrite path hdr payload full => Sys2Proof.Machine.execSegWrite path hdr payload full s
  | .segAbort path hdr payload full => Sys2Proof.Machine.execSegAbort path hdr payload full s
  | .segTimeout path => Sys2Proof.Machine.execSegTimeout path s
  | .lockAcquire path hdr payload full => Sys2Proof.Machine.execLockAcquire path hdr payload full s
  | .lockRenew path hdr payload full => Sys2Proof.Machine.execLockRenew path hdr payload full s
  | .lockCommit path hdr payload full => Sys2Proof.Machine.execLockCommit path hdr payload full s
  | .commitApply => Sys2Proof.Machine.execCommitApply s
  | .lockAbort path hdr payload full => Sys2Proof.Machine.execLockAbort path hdr payload full s
  | .lockRelease path hdr payload full => Sys2Proof.Machine.execLockRelease path hdr payload full s
  | .lockBreak path hdr payload full => Sys2Proof.Machine.execLockBreak path hdr payload full s
  | .lockLeaseExpiry => Sys2Proof.Machine.execLockLeaseExpiry s
  | .ageingSample d vmin vmin50 supply => Sys2Proof.Machine.execAgeingSample d vmin vmin50 supply s
  | .updateActivate => Sys2Proof.Machine.execUpdateActivate s
  | .updateConfirm => Sys2Proof.Machine.execUpdateConfirm s
  | .updateCancel => Sys2Proof.Machine.execUpdateCancel s
  | .drainEnd => Sys2Proof.Machine.execDrainEnd s
  | .pinHoldEnd n => Sys2Proof.Machine.execPinHoldEnd n s
  | .faultPulseEnd alert => Sys2Proof.Machine.execFaultPulseEnd alert s
  | .uartTapRestart frame => Sys2Proof.Machine.execUartTapRestart frame s
  | .tapReset => Sys2Proof.Machine.execTapReset s
  | .bypass => Sys2Proof.Machine.execBypass s
  | .idcode => Sys2Proof.Machine.execIdcode s
  | .samplePreload outside preload => Sys2Proof.Machine.execSamplePreload outside preload s
  | .extest => Sys2Proof.Machine.execExtest s
  | .clamp => Sys2Proof.Machine.execClamp s
  | .highz => Sys2Proof.Machine.execHighz s
  | .downstreamLinkDown cutUp cutDown => Sys2Proof.Machine.execDownstreamLinkDown cutUp cutDown s
  | .downstreamLinkUp => Sys2Proof.Machine.execDownstreamLinkUp s
  | .poolLinkUp rate lanes => Sys2Proof.Machine.execPoolLinkUp rate lanes s
  | .peerLinkTrained l good addr num => Sys2Proof.Machine.execPeerLinkTrained l good addr num s
  | .ethernetLinkDown port => Sys2Proof.Machine.execEthernetLinkDown port s
  | .ethernetLinkUp port => Sys2Proof.Machine.execEthernetLinkUp port s
  | .inletTempRecovered temp => Sys2Proof.Machine.execInletTempRecovered temp s
  | .datagramAuthFail port => Sys2Proof.Machine.execDatagramAuthFail port s
  | .bootCoreException => Sys2Proof.Machine.execBootCoreException s
  | .slotLedgerRebuilt => Sys2Proof.Machine.execSlotLedgerRebuilt s
  | .indexDirectoryRebuilt => Sys2Proof.Machine.execIndexDirectoryRebuilt s
  | .textFlushTimeout => Sys2Proof.Machine.execTextFlushTimeout s
  | .vfEnableChange en n => Sys2Proof.Machine.execVfEnableChange en n s

end Sys2Proof.Machine
end

