-- ==== Sys2Proof/Safety.lean ====
section
/-!
DEFINITION. What holds of the machine in every state a run reaches: the canonical form of its objects and of the bytes of its two
memory tiers.  A safe run is one whose every state has it.
-/
namespace Sys2Proof.Machine

/-- The objects of the dictionary in canonical form: keys strictly rising, and none listed at its Default, so that states that
read alike are equal (R15 to R17). -/
def State.objWf (s : State) : Bool := tWf odDefault s.od

/-- The bytes of the near store and of the stack store in canonical form: addresses strictly rising, and no byte listed that equals
what an unlisted address reads as (DESIGN CHOICE; log entry 7). -/
def Mem.wf (m : Mem) : Bool := tWf (fun _ => (0 : Byte)) m.near && tWf (fun _ => (0 : Byte)) m.stack

end Sys2Proof.Machine
end

