-- ==== Sys2Proof/Certificates/Slice0/Obligations.lean ====
section
/-!
DEFINITION. The statements for the provers.  Each command's own clause says, under conditions on the state and the operands alone
(the names beginning Ready), that it answers a next state and what that state holds.
-/
namespace Sys2Proof.Machine

/-- The command answers a next state, of which P holds. -/
def Runs (c : Instr) (s : State) (P : State → Prop) : Prop := ∃ t, exec c s = .next t ∧ P t

/-! ## 19_power_clocks_resets.md, 23_ratings.md -/

abbrev ReadyWakeGrant (s : State) (d : Fin 6) (t : Nat) (r : WakeReq) : Prop :=
  (s.ledger d.val).queue.find? (s.mayWake d.val) = some r ∧ r.unit < 98 ∧
    ((s.ledger d.val).lastWake.all fun u => decide (u + s.o Od.wakeSpacingNs ≤ t)) = true ∧ s.power.now ≤ t

abbrev ReadyRampUp (s : State) (d : Fin 6) (t : Nat) (r : WakeReq) : Prop :=
  (s.ledger d.val).queue.find? (fun r => r.ramp && s.pdOn (pdArray r.unit) && (s.arr r.unit).ramp == .off) = some r ∧
    s.coolHeld = false ∧ s.power.now ≤ t ∧
    ((s.ledger d.val).ramps.filter fun u => decide (t < u + s.o Od.rampWindowNs)).length < s.o Od.rampsPerWindow

abbrev ReadyRampDown (s : State) (a : Fin 32) (bubbles : Nat) : Prop :=
  (s.arr a.val).ramp = .full ∧ (s.arr a.val).issued = [] ∧ s.o Od.arrayBubbleFill ≤ bubbles

abbrev ReadyIdleArray (s : State) (p : Fin 98) : Prop :=
  s.o (Od.pdPolicy p.val) = 0 ∧ s.pdState p.val = pdON ∧ isArrayPd p.val = true ∧ (s.arr (arrayOfPd p.val)).ramp = .off ∧
    1024 ≤ (s.arr (arrayOfPd p.val)).idleOff ∧ s.arrayWanted (arrayOfPd p.val) = false

abbrev ReadyIdleSerdes (s : State) (p : Fin 98) : Prop :=
  s.o (Od.pdPolicy p.val) = 0 ∧ s.pdState p.val = pdON ∧ p.val ∈ [89, 90, 96, 97] ∧ p.val ∉ s.power.serdesOn

/-- The state with the epoch of a part one higher (R604). -/
def State.nextEpoch (s : State) (k : Nat) : State :=
  { s with parts := { s.parts with epochs := tSet 0 s.parts.epochs k (tGet 0 s.parts.epochs k + 1) } }

end Sys2Proof.Machine

open Sys2Proof Sys2Proof.Machine

/-- R573, R85, R86: a wake ledger grants a wake and a ramp-up; a ramp completes and a ramp-down starts. -/
def Obligations.WakesAndRampsProceed : Prop :=
  (∀ (s : State) (d : Fin 6) (t : Nat) (r : WakeReq), ReadyWakeGrant s d t r →
    Runs (.wakeGrant d t) s fun u =>
      u.power.now = t ∧ u.pdState r.unit = pdWAKING ∧ (u.ledger d.val).lastWake = some t ∧ u.arrs = s.arrs) ∧
  (∀ (s : State) (d : Fin 6) (t : Nat) (r : WakeReq), ReadyRampUp s d t r →
    Runs (.rampUpGrant d t) s fun u =>
      u.power.now = t ∧ (u.arr r.unit).ramp = .up ∧ t ∈ (u.ledger d.val).ramps ∧
        ∀ b, b ≠ r.unit → u.arr b = s.arr b) ∧
  (∀ (s : State) (a : Fin 32), (s.arr a.val).ramp = .up →
    exec (.rampComplete a) s = .next (s.setArr a.val { s.arr a.val with ramp := .full })) ∧
  (∀ (s : State) (a : Fin 32), (s.arr a.val).ramp = .down → (s.arr a.val).compQ = [] →
    exec (.rampComplete a) s = .next (s.setArr a.val { s.arr a.val with ramp := .off, idleOff := 0 })) ∧
  (∀ (s : State) (a : Fin 32) (bubbles : Nat), ReadyRampDown s a bubbles →
    exec (.rampDownStart a bubbles) s = .next (s.setArr a.val { s.arr a.val with ramp := .down }))

/-- R569, R574, R590, R594, R571: where each command takes a domain's PD_STATE. -/
def Obligations.DomainsChangeState : Prop :=
  (∀ (s : State) (p : Fin 98), s.pdState p.val = pdWAKING → (s.pd p.val).rstAfter = false → isSlicePd p.val = false →
    Runs (.wakeComplete p) s fun u => u.pdState p.val = pdON) ∧
  (∀ (s : State) (p : Fin 98), s.pdState p.val = pdWAKING → (s.pd p.val).rstAfter = false → isSlicePd p.val = true →
    exec (.wakeComplete p) s = .next (((s.setPdState p.val pdON).setPd p.val
      { s.pd p.val with attempts := 0, rstAfter := false }).sliceBack (arrayOfPd (p.val - 8)))) ∧
  (∀ (s : State) (p : Fin 98), s.pdState p.val = pdQUIESCING → (s.pd p.val).reason = 1 → isSlicePd p.val = false →
    (s.pd p.val).wakeAfter = false → Runs (.quiesceComplete p) s fun u => u.pdState p.val = pdOFF) ∧
  (∀ (s : State) (p : Fin 98), s.pdState p.val = pdQUIESCING → (s.pd p.val).reason = 1 → isSlicePd p.val = true →
    s.pdState (p.val - 8) ≠ pdQUIESCING → Runs (.quiesceComplete p) s fun u => u.pdState p.val = pdRETAINED) ∧
  (∀ (s : State) (p : Fin 98), s.pdState p.val = pdQUIESCING → (s.pd p.val).reason ≠ 1 →
    Runs (.quiesceComplete p) s fun u => u.pdState p.val = pdRESET) ∧
  (∀ (s : State) (p : Fin 98), s.pdState p.val = pdON →
    Runs (.domainReset p true) s fun u => u.pdState p.val = pdQUIESCING) ∧
  (∀ (s : State) (p : Fin 98), s.pdState p.val = pdON → pdChildren p.val = [] →
    Runs (.domainReset p false) s fun u => u.pdState p.val = pdRESET) ∧
  (∀ (s : State) (p : Fin 98), exec (.domainReset p false) s = .next (s.resetNow p.val)) ∧
  (∀ (s : State) (p : Fin 98), s.pdState p.val = pdRESET →
    Runs (.domainResetComplete p) s fun u => u.pdState p.val = pdQUEUED ∧ (u.pd p.val).reason = 0) ∧
  (∀ (s : State) (p : Fin 98), ReadyIdleArray s p →
    Runs (.idlePowerDown p) s fun u => u.pdState p.val = pdQUIESCING ∧ (u.pd p.val).reason = 1) ∧
  (∀ (s : State) (p : Fin 98), ReadyIdleSerdes s p →
    Runs (.idlePowerDown p) s fun u => u.pdState p.val = pdQUIESCING ∧ (u.pd p.val).reason = 1)

/-- R569, R586, R604, R607, R597: what failures of domains, parts and links do. -/
def Obligations.FailuresOfDomainsPartsAndLinks : Prop :=
  (∀ (s : State) (p : Fin 98), s.power.mainOn = true → s.pdState p.val = pdWAKING → (s.pd p.val).attempts < 2 →
    exec (.domainFailure p true) s =
      .next (s.setPd p.val { s.pd p.val with attempts := (s.pd p.val).attempts + 1 })) ∧
  (∀ (s : State) (p : Fin 98) (attempt : Bool), s.power.mainOn = true → s.pdState p.val ≠ pdFAILED →
    (attempt = true → s.pdState p.val = pdWAKING ∧ 2 ≤ (s.pd p.val).attempts) →
    ¬ ((85 ≤ p.val ∧ p.val ≤ 88) ∨ (92 ≤ p.val ∧ p.val ≤ 95)) →
    Runs (.domainFailure p attempt) s fun u => u.pdState p.val = pdFAILED ∧ u.pins.faultPulse = true) ∧
  (∀ (s : State) (init target : Fin 98), s.pdState target.val ≠ pdON → s.pdState init.val = pdON →
    exec (.hangWatchdog init target) s =
      .next (((s.addO Od.hangResets 1).resetNow init.val).fault1 0x29 12 init.val 0 0
        ((s.addO Od.hangResets 1).coursesOn init.val) [(16, init.val), (16, target.val)])) ∧
  (∀ (s : State) (kind : Fin 9) (unit ns : Nat),
    Runs (.partReset kind unit ns) s fun u =>
      u.o Od.singleFaults = (((s.nextEpoch (kind.val * 256 + unit)).partCleared kind.val unit).o Od.singleFaults + 1) % 2 ^ 32 ∧
        u.pins.faultPulse = true) ∧
  (∀ (s : State) (inst ns : Nat),
    exec (.spineFlitResend inst ns) s = .next ((s.retryCount 5 inst).fault1 0x26 5 inst 0 ns 0 [(16, 1)])) ∧
  (∀ (s : State) (inst ns : Nat),
    exec (.d2dFlitRetry inst ns) s = .next (((s.addO Od.linkRetries 1).retryCount 6 inst).interrupted ns)) ∧
  (∀ (s : State) (inst module lane spare ns : Nat), 0 < tGet spare s.parts.lanes (inst * 16 + module) →
    Runs (.linkLaneRepair inst module lane spare ns) s fun u =>
      tGet spare u.parts.lanes (inst * 16 + module) = tGet spare s.parts.lanes (inst * 16 + module) - 1 ∧
        u.parts.modules = s.parts.modules ∧ u.parts.failedLinks = s.parts.failedLinks ∧
        u.o Od.singleFaults = (s.o Od.singleFaults + 1) % 2 ^ 32)

/-- R578, R580, R581: the clocks and the throttle. -/
def Obligations.ClocksAndThrottle : Prop :=
  (∀ (s : State) (d : Fin 4),
    Runs (.aclkChange d) s fun u => u.o (Od.aclkMhz d.val) = s.effClk d.val % 2 ^ 16 ∧ u.power.capClk = s.power.capClk) ∧
  (∀ (s : State) (avgW : Nat), 115 * s.o Od.powerLimitW < 100 * avgW →
    exec (.fastPowerComparator avgW) s = .next { s with power := { s.power with capClk := s.o Od.throttleMhz } }) ∧
  (∀ (s : State), s.pinWith 5 = true → s.power.mainOn = true → s.power.throttle = false →
    exec .throttleAssert s =
      .next ((({ s with power := { s.power with throttle := true } } : State).setO Od.throttleActive 1).addO
        Od.throttleEvents 1)) ∧
  (∀ (s : State), s.power.throttle = true →
    exec .throttleDeassert s =
      .next (({ s with power := { s.power with throttle := false } } : State).setO Od.throttleActive 0))

/-- R582, R656, R583: the coolant interlock, the inlet, thermal trips and the Ethernet links. -/
def Obligations.CoolantTripsAndLinks : Prop :=
  (∀ (s : State) (flow : Nat), flow < s.o Od.flowMin → s.o Od.coolantInterlock ≠ 0 →
    Runs (.coolantInterlockOpen flow) s fun u =>
      u.o Od.coolantInterlock = 0 ∧ u.o Od.interlockOpens = (s.o Od.interlockOpens + 1) % 2 ^ 32 ∧
        u.o Od.coolantFlow = flow % 2 ^ 16) ∧
  (∀ (s : State) (flow : Nat), s.o Od.flowMin ≤ flow → s.o Od.coolantInterlock = 0 → s.power.stbyOn = true →
    Runs (.coolantInterlockClose flow) s fun u =>
      u.o Od.coolantInterlock = 1 ∧ u.o Od.interlockOpens = s.o Od.interlockOpens ∧ u.o Od.coolantFlow = flow % 2 ^ 16) ∧
  (∀ (s : State), s.coolHeld = true → Runs .interlockOpenTimeout s fun u => u.power.downBy582 = true) ∧
  (∀ (s : State) (temp : Int), i16 (s.o Od.inletMax) < temp → s.power.inletHot = false →
    Runs (.inletOverMax temp) s fun u =>
      u.power.inletHot = true ∧ u.o Od.inletTemp = ofI16 temp % 2 ^ 16 ∧
        u.o Od.interlockOpens = (s.o Od.interlockOpens + 1) % 2 ^ 32) ∧
  (∀ (s : State) (temp : Int), temp ≤ i16 (s.o Od.inletMax) → s.power.inletHot = true →
    Runs (.inletTempRecovered temp) s fun u => u.power.inletHot = false ∧ u.o Od.inletTemp = ofI16 temp % 2 ^ 16) ∧
  (∀ (s : State) (d : Fin 4) (temp : Int), 1050 ≤ temp → d.val ∉ s.power.tripped →
    Runs (.thermalTripDie d temp) s fun u => d.val ∈ u.power.tripped ∧ u.pins.alertPulse = true) ∧
  (∀ (s : State) (d : Fin 4) (temp : Int), temp < 950 →
    Runs (.thermalTripClear d temp) s fun u =>
      d.val ∉ u.power.tripped ∧ u.o (Od.dieTemp d.val) = ofI16 temp % 2 ^ 16 ∧
        ∀ e, e ≠ d.val → (e ∈ u.power.tripped ↔ e ∈ s.power.tripped)) ∧
  (∀ (s : State) (d : Fin 6) (temp : Int), 1150 ≤ temp → s.power.mainOn = true → s.power.moduleTrip = false →
    Runs (.thermalTripModule d temp) s fun u =>
      u.power.moduleTrip = true ∧ u.boot.awaitMain = true ∧ u.o Od.bootStep = 4 ∧ u.reqs = [] ∧ u.arrs = []) ∧
  (∀ (s : State) (port : Fin 2),
    Runs (.ethernetLinkDown port) s fun u => bitAt u.power.ethUp port.val = false ∧ u.od = s.od ∧ u.rx = s.rx) ∧
  (∀ (s : State) (port : Fin 2), s.pdState 89 = pdON →
    Runs (.ethernetLinkUp port) s fun u => bitAt u.power.ethUp port.val = true ∧ u.od = s.od ∧ u.rx = s.rx)

/-! ## 21_boot_measurement_update.md, 22_module_package_pins.md, 20_faults_ageing_record.md R616 -/

namespace Sys2Proof.Machine

/-- Start-up is at step n with standby power on. -/
abbrev AtStep (s : State) (n : Nat) : Prop := s.power.stbyOn = true ∧ s.o Od.bootStep = n

abbrev ReadyStep4 (s : State) : Prop :=
  AtStep s 4 ∧ s.coolHeld = false ∧ i16 (s.o Od.inletTemp) ≤ i16 (s.o Od.inletMax) ∧ s.warmEnough = true ∧ s.boot.awaitMain = false

abbrev ReadyStep6 (s : State) : Prop :=
  AtStep s 6 ∧ (s.bootDomains.all fun p => s.pdOn p || s.pdState p == pdFAILED) = true ∧ s.pdState 84 ≠ pdFAILED ∧
    s.pdState 91 ≠ pdFAILED

/-- An attempt of image i is under way, before step 11. -/
abbrev AttemptRuns (s : State) (i : Nat) : Prop :=
  s.boot.attempt = some i ∧ 8 ≤ s.o Od.bootStep ∧ s.o Od.bootStep ≤ 10

/-- The module after the restart that ends a drain, before step 8 (R632). -/
def State.restarted (s : State) : State := { s.restart with boot := { s.restart.boot with draining := false, tried := [] } }

end Sys2Proof.Machine

/-- R618, R619: each start-up step ends when its condition holds, and the next begins. -/
def Obligations.StartUpStepsAdvance : Prop :=
  (∀ (s : State) bad lost mv badStacks, AtStep s 1 →
    Runs (.startUpStepAdvance bad lost mv badStacks) s fun u => u.o Od.bootStep = 2) ∧
  (∀ (s : State) bad lost mv badStacks, AtStep s 2 →
    Runs (.startUpStepAdvance bad lost mv badStacks) s fun u => u.o Od.bootStep = 3 ∧ u.boot.pinsLive = true) ∧
  (∀ (s : State) bad lost mv badStacks, AtStep s 3 → (s.beatState = bsLOCKED ∨ s.beatState = bsSTANDALONE) →
    Runs (.startUpStepAdvance bad lost mv badStacks) s fun u => u.o Od.bootStep = 4) ∧
  (∀ (s : State) bad lost mv badStacks, ReadyStep4 s →
    Runs (.startUpStepAdvance bad lost mv badStacks) s fun u => u.o Od.bootStep = 5 ∧ u.power.mainSw = true) ∧
  (∀ (s : State) bad lost (mv : Fin 65536) badStacks, AtStep s 5 → 50000 ≤ mv.val → mv.val ≤ 58000 →
    Runs (.startUpStepAdvance bad lost mv badStacks) s fun u => u.power.mainOn = true ∧ u.o Od.mainInputMv = mv.val) ∧
  (∀ (s : State) bad lost mv badStacks, ReadyStep6 s →
    Runs (.startUpStepAdvance bad lost mv badStacks) s fun u => u.o Od.bootStep = 7) ∧
  (∀ (s : State) bad lost mv, AtStep s 7 → s.twoStacks = true →
    exec (.startUpStepAdvance bad lost mv []) s = .next s.beginStep8) ∧
  (∀ (s : State) bad lost mv badStacks i, AtStep s 8 → s.boot.attempt = some i →
    Runs (.startUpStepAdvance bad lost mv badStacks) s fun u => u.o Od.bootStep = 9) ∧
  (∀ (s : State) bad lost mv badStacks, AtStep s 9 → s.o Od.indexState ∈ [0, 3, 4, 5] →
    Runs (.startUpStepAdvance bad lost mv badStacks) s fun u => u.o Od.bootStep = 10) ∧
  (∀ (s : State) bad lost mv badStacks, AtStep s 10 →
    Runs (.startUpStepAdvance bad lost mv badStacks) s fun u => u.o Od.bootStep = 11 ∧ u.boot.attempt = none)

/-- R588, R616, R621, R651: power applied and lost. -/
def Obligations.PowerAppliedAndLost : Prop :=
  (∀ (s : State), s.power.stbyOn = false →
    Runs .standbyPowerApplied s fun u =>
      u.power.stbyOn = true ∧ u.o Od.bootStep = 1 ∧ u.mboxes = [] ∧ u.keepers = [] ∧ u.store = s.store ∧ u.dict.rwp = s.dict.rwp) ∧
  (∀ (s : State), s.power.mainOn = true →
    Runs .mainPowerLoss s fun u => u.power.mainOn = false ∧ u.power.mainSw = false ∧ u.reqs = [] ∧ u.steps = []) ∧
  (∀ (s : State), s.power.mainOn = true →
    Runs .mainOvervoltage s fun u => u.power.mainOn = false ∧ u.power.mainSw = false ∧ u.reqs = [] ∧ u.steps = []) ∧
  (∀ (s : State), s.power.stbyOn = true →
    Runs .standbyPowerLoss s fun u => u.power.stbyOn = false ∧ u.boot.pinsLive = false) ∧
  (∀ (s : State), s.power.stbyOn = true → s.o Od.mirrorState ≤ 1 → 16 ≤ s.o Od.mirrorLag → s.o Od.mirrorLag < 32 →
    Runs (.mirrorCopy 0) s fun u => u.o Od.mirrorLag = s.o Od.mirrorLag - 16 ∧ u.o Od.mirrorState = 0) ∧
  (∀ (s : State), s.power.stbyOn = true → s.o Od.mirrorState ≤ 1 →
    exec (.mirrorCopy 1) s = .next (s.setO Od.mirrorState 2) ∧ exec (.mirrorCopy 2) s = .next (s.setO Od.mirrorState 3))

/-- R623, R630 to R633: image attempts, updates and the drain. -/
def Obligations.ImagesUpdatesAndDrain : Prop :=
  (∀ (s : State) (i : Nat), AttemptRuns s i → exec .imageAttemptTimeout s = .next (tryImages 4 (s.attemptOver i))) ∧
  (∀ (s : State) (i : Nat), AttemptRuns s i → exec .bootCoreException s = .next (tryImages 4 (s.attemptOver i))) ∧
  (∀ (s : State), s.o Od.updateCommand = 1 → s.o Od.updateState = 2 → s.boot.draining = false → s.o Od.bootStep = 11 →
    exec .updateActivate s = .next ((s.updateTook 1).beginDrain (some s.updateTarget))) ∧
  (∀ (s : State), s.o Od.updateCommand = 2 → s.o Od.updateState = 4 →
    Runs .updateConfirm s fun u => u.o Od.updateState = 0 ∧ u.o Od.preferredImage = s.o Od.bootImage % 2 ^ 8) ∧
  (∀ (s : State), s.o Od.updateCommand = 3 → s.o Od.updateState = 2 → s.boot.draining = false →
    exec .updateCancel s = .next ((s.updateTook 3).setUpdate 0 s.updateTarget)) ∧
  (∀ (s : State), s.o Od.updateCommand = 3 → s.o Od.updateState = 4 →
    exec .updateCancel s = .next ((((s.updateTook 3).setUpdate 0 (s.o Od.bootImage)).addO Od.rollbacks 1).beginDrain none)) ∧
  (∀ (s : State), s.boot.draining = true → (s.reqs.any fun e => e.2.state == 2) = false →
    (s.index.lists.all fun e => e.2.merge.isNone) = true → s.mounted = false →
    exec .drainEnd s = .next (match s.restart.boot.drainTo with
      | some i => (s.restarted.setUpdate 4 i).beginStep8
      | none => s.restarted.beginStep8))

/-- R641, R645, R646, R648: pins, the UART tap and the TAP. -/
def Obligations.PinsAndTap : Prop :=
  (∀ (s : State) (n : Fin 12),
    Runs (.pinHoldEnd n) s fun u => tHas u.pins.holds n.val = false ∧ u.od = s.od ∧
      ∀ m, m ≠ n.val → tHas u.pins.holds m = tHas s.pins.holds m) ∧
  (∀ (s : State), exec (.faultPulseEnd false) s = .next { s with pins := { s.pins with faultPulse := false } } ∧
    exec (.faultPulseEnd true) s = .next { s with pins := { s.pins with alertPulse := false } }) ∧
  (∀ (s : State), exec .syncMarkFall s = .next { s with pins := { s.pins with syncHigh := false } }) ∧
  (∀ (s : State) (frame : List Byte), s.power.stbyOn = true → s.pinWith 8 = true → s.pinWith 7 = true → frame.length = 10 →
    beAt frame 0 2 = 0xA55A →
    Runs (.uartTapRestart frame) s fun u => u.od = s.od ∧ u.recs = s.recs ∧
      ∀ r, r ∈ u.pins.uartOut ↔ r ∈ s.recs.ring ∧ max (leAt frame 2 8) (s.recs.next - 65536) ≤ r.number) ∧
  (∀ (s : State),
    exec .tapReset s = .next { s with pins := { s.pins with jtag := 1, tdo := 0xB8384001 } } ∧
    exec .bypass s = .next { s with pins := { s.pins with jtag := 0, tdo := 0 } } ∧
    exec .idcode s = .next { s with pins := { s.pins with jtag := 1, tdo := 0xB8384001 } }) ∧
  (∀ (s : State) (outside preload : BitVec 17),
    exec (.samplePreload outside preload) s =
      .next { s with pins := { s.pins with jtag := 2, tdo := s.scan outside.toNat, bsr := preload.toNat } }) ∧
  (∀ (s : State), s.power.mainSw = false → s.o Od.bootStep ≤ 4 →
    exec .extest s = .next { s with pins := { s.pins with jtag := 3, tdo := s.pins.bsr } } ∧
    exec .clamp s = .next { s with pins := { s.pins with jtag := 4, tdo := 0 } } ∧
    exec .highz s = .next { s with pins := { s.pins with jtag := 5, tdo := 0 } }) ∧
  (∀ (s : State), ¬ (s.power.mainSw = false ∧ s.o Od.bootStep ≤ 4) →
    exec .extest s = exec .bypass s ∧ exec .clamp s = exec .bypass s ∧ exec .highz s = exec .bypass s)

/-! ## 05_reed_cores_and_spine.md -/

namespace Sys2Proof.Machine

/-- Core c may make an access now: its domain is ON and it holds none. -/
abbrev CoreFree (s : State) (c : Nat) : Prop := s.pdOn (pdCore c) = true ∧ (s.core c).held = none

end Sys2Proof.Machine

/-- R147, R149, R151: a core's owner, its held access, its mailboxes and its posts. -/
def Obligations.CoresAndMailboxes : Prop :=
  (∀ (s : State) (c : Fin 144) (v : Nat), s.pdOn (pdCore c.val) = true → (s.core c.val).held = none →
    exec (.spineOwnerWrite c v) s = .next (s.setCore c.val { s.core c.val with owner := v % 65536 })) ∧
  (∀ (s : State) (c : Fin 144), (s.core c.val).held ≠ none →
    exec (.coreHoldLimit c) s = .next (s.setCore c.val { s.core c.val with held := none, exc := 7 })) ∧
  (∀ (s : State) (c : Fin 146) (n : Fin 8) (e : Nat × Nat) (rest : List (Nat × Nat)),
    (s.mbox c.val n.val).entries = e :: rest →
    Runs (.mboxPop c n) s fun u => (u.mbox c.val n.val).entries = rest ∧ (u.mbox c.val n.val).irqEn = (s.mbox c.val n.val).irqEn ∧
      (u.mbox c.val n.val).overrun = (s.mbox c.val n.val).overrun ∧ u.od = s.od) ∧
  (∀ (s : State) (c : Fin 146) (n : Fin 8) (v : Nat), (s.mbox c.val n.val).overrun = false →
    exec (.mboxStatusWrite c n v) s =
      .next (s.setMbox c.val n.val { s.mbox c.val n.val with irqEn := bitAt v 17, overrun := false })) ∧
  (∀ (s : State) (c : Fin 146) (n : Fin 8) (v : Nat), (s.mbox c.val n.val).overrun = true → bitAt v 16 = false →
    exec (.mboxStatusWrite c n v) s = .next (s.setMbox c.val n.val { s.mbox c.val n.val with irqEn := bitAt v 17, overrun := true })) ∧
  (∀ (s : State) (c t : Fin 144) (m w : Nat), CoreFree s c.val → s.mayGo c.val (.post t.val (16 * m) 16 (w % 2 ^ 128)) = true →
    m < 8 → s.pdOn (pdCore t.val) = true → (s.mbox t.val m).entries.length < 32 →
    Runs (.postWindowWrite c t (16 * m) 16 w) s fun u =>
      (u.mbox t.val m).entries = (s.mbox t.val m).entries ++ [(3, w % 2 ^ 128)] ∧ u.od = s.od) ∧
  (∀ (s : State) (c t : Fin 144) (off bytes w : Nat), CoreFree s c.val → s.mayGo c.val (.post t.val off bytes (w % 2 ^ 128)) = true →
    ¬ (bytes = 16 ∧ off % 16 = 0 ∧ off / 16 < 8) →
    exec (.postWindowWrite c t off bytes w) s = .next (s.addO Od.bundlePortBadWriteCount 1))

/-- R153, R169: keepers and slot tables. -/
def Obligations.KeepersAndSlotTables : Prop :=
  (∀ (s : State) (k : Fin 2) (w : Nat), s.power.stbyOn = true →
    Runs (.keeperHeartbeat k w) s fun u =>
      u.keeper (1 - k.val) = { window := w % 2 ^ 32, tookOver := false } ∧ u.keeper k.val = s.keeper k.val) ∧
  (∀ (s : State) (k : Fin 2), s.power.stbyOn = true →
    Runs (.keeperHeartbeatMiss k) s fun u =>
      (u.keeper k.val).tookOver = true ∧ (u.keeper (1 - k.val)).window = 0 ∧ u.pins.faultPulse = true) ∧
  (∀ (s : State), s.power.stbyOn = true →
    Runs .keeperDualTimeout s fun u => u.keeper 0 = {} ∧ u.keeper 1 = {} ∧ ∀ n < 16, tGet {} u.mboxes (144 * 8 + n) = {}) ∧
  (∀ (s : State) (kind inst : Nat) (slot : Fin 256), (kind * 65536 + inst) ∉ s.slots.idled →
    Runs (.liveTableError kind inst slot) s fun u => (kind * 65536 + inst) ∈ u.slots.idled) ∧
  (∀ (s : State) (kind inst ns : Nat), (kind * 65536 + inst) ∈ s.slots.idled →
    Runs (.liveTableReloadDone kind inst ns) s fun u => (kind * 65536 + inst) ∉ u.slots.idled ∧ u.slots.ledger = s.slots.ledger) ∧
  (∀ (s : State) (addr : Nat), s.slots.ledgerBad = false →
    Runs (.slotLedgerError addr) s fun u =>
      u.slots.ledgerBad = true ∧ u.o Od.eccUncorrectable = (s.o Od.eccUncorrectable + 1) % 2 ^ 64 ∧
        u.slots.live = s.slots.live) ∧
  (∀ (s : State), s.slots.ledgerBad = true →
    Runs .slotLedgerRebuilt s fun u => u.slots.ledgerBad = false ∧ u.slots.ledger = s.slots.live ∧ u.slots.live = s.slots.live)

/-! ## 03_matrix_arrays.md, 04_array_instructions.md -/

namespace Sys2Proof.Machine

/-- The array after the head of its load queue has left it for its engine, its counter taken (R115). -/
def Arr.loadTaken (x : Arr) (q : QWord) (rest : List QWord) : Arr :=
  let x := match loadCtr q.word with
    | some c => x.setCtr q.res c (x.ctr q.res c - 1)
    | none => x
  { x with loadQ := rest }

/-- The head q of the load queue of array a may start as a load of opcode op. -/
abbrev ReadyLoad (s : State) (a op : Nat) (q : QWord) (rest : List QWord) : Prop :=
  (s.arr a).loadQ = q :: rest ∧ wOp q.word = op ∧ (s.arr a).fetch = none ∧ s.mayIssue a q = true ∧ (s.arr a).targetFree q = true ∧
    ((loadCtr q.word).all fun c => decide (1 ≤ (s.arr a).ctr q.res c)) = true ∧
    ((s.loadPieces a (s.res a q.res) q).any fun p => s.pageGone p.1) = false

/-- The values that armed PORT jobs of an array still take. -/
def Arr.portRoom (x : Arr) : Nat := (x.armed.map fun j => j.2.count - j.2.vals.length).sum

/-- The stream half an MMA reads, and its skein half. -/
def Arr.halfOf (x : Arr) (q : QWord) : SHalf := if mHalf q.word then x.half1 else x.half0
def Arr.skOf (x : Arr) (q : QWord) : SkHalf := if mSkh q.word then x.sk1 else x.sk0

/-- The head q of the compute queue is an MMA in order, whose stream half, units and skein tiles are ready; its tile stands active or
in the shadow. -/
abbrev ReadyMma (s : State) (a : Nat) (q : QWord) : Prop :=
  let xd := q.descs.getD 0 0
  let us := unitsOf ((s.res a q.res).accBase + mAccBase q.word) (dRows xd)
  s.headOf a 0x10 = some q ∧
  (mRoute q.word = 1 ∨ mFirst q.word = true ∨ (s.arr a).unitsFollow q us (dBlock xd) = true) ∧
  (mFirst q.word = true → dBlock xd = 0) ∧
  (mRoute q.word = 2 → dRows xd * dN (q.descs.getD 2 0) ≤ (s.arr a).portRoom) ∧
  ((s.arr a).halfOf q).desc = some xd ∧ ((s.arr a).halfOf q).res = q.res ∧ ((s.arr a).halfOf q).epoch = q.epoch ∧
  (mRoute q.word ≠ 1 → mFirst q.word = true → (s.arr a).unitsFree us = true) ∧
  (mSken q.word = true → skeinsReady ((s.arr a).halfOf q) ((s.arr a).skOf q) q (dRows xd) = true) ∧
  (mFinal q.word = true → (s.die_ (a / 4)).hasKey = false →
    ((List.range (dRows xd)).any fun m => atSr (tGet 0 ((s.arr a).halfOf q).attrs m)) = false)

/-- The tile is that of the MMA q. -/
abbrev Tile.isFor (t : Tile) (q : QWord) : Prop := t.desc = q.descs.getD 2 0 ∧ t.res = q.res

abbrev ReadyImport (s : State) (a : Nat) (q : QWord) : Prop :=
  let g := q.descs.getD 0 0
  let us := unitsOf ((s.res a q.res).accBase + mAccBase q.word) (dRows g)
  s.headOf a 0x11 = some q ∧
  (mFirst q.word = true ∨ (s.arr a).unitsFollow q us (dBlock g) = true) ∧
  (mFirst q.word = true → dBlock g = 0) ∧
  (mRoute q.word = 2 → dRows g * dN (q.descs.getD 1 0) ≤ (s.arr a).portRoom) ∧
  dRows g ≤ (s.arr a).ctr q.res (dSctr g) ∧
  (mFirst q.word = true → (s.arr a).unitsFree us = true)

abbrev ReadyNorm (s : State) (a : Nat) (q : QWord) : Prop :=
  s.headOf a 0x22 = some q ∧ (s.arr a).issued = [] ∧
  ((s.die_ (a / 4)).hasKey = false → ((List.range (dRows (q.descs.getD 0 0))).any fun m =>
    (tGet {} (s.arr a).rows (q.res * 512 + m) : RowState).sr) = false)

/-- The n-th issued instruction of array a is i, no TKSUB, and when it exports, its rows have arrived (R136). -/
abbrev ReadyComplete (s : State) (a n : Nat) (i : Issued) : Prop :=
  (s.arr a).issued[n]? = some i ∧ i.op ≠ 0x30 ∧
  (i.op = 0x10 → mRoute i.q.word = 1 → (s.incrs.any fun e => e.staged.isSome && e.target == dOwner (i.q.descs.getD 1 0) &&
    e.ctr == dSctr (i.q.descs.getD 1 0) && e.epoch == i.q.epoch) = false)

abbrev ReadyTksub (s : State) (a : Nat) (q : QWord) : Prop :=
  s.headOf a 0x30 = some q ∧ tGet none (s.arr a).topk (bits q.word 76 75) = none ∧
    (bitAt q.word 74 = true → (s.arr a).issued = [])

/-- The head q has left the compute queue and is among the issued instructions. -/
abbrev IssuedNow (s u : State) (a : Nat) (q : QWord) (op : Nat) : Prop :=
  (u.arr a).compQ = (s.arr a).compQ.drop 1 ∧ ∃ i ∈ (u.arr a).issued, i.q = q ∧ i.op = op

end Sys2Proof.Machine

/-- R105 to R107, R109, R146: what reaches a bundle port, and what ends a bundle there. -/
def Obligations.BundlePortsTakeWords : Prop :=
  (∀ (s : State) (a : Fin 32) (c : Fin 144) (w : Nat) (ds kv : List (Nat × Nat)) (fill : List (Nat × List Byte)),
    CoreFree (s.prepare a.val (hRes w) ds kv fill) c.val →
    (s.prepare a.val (hRes w) ds kv fill).mayGo c.val (.header a.val (w % 2 ^ 128)) = true →
    (s.prepare a.val (hRes w) ds kv fill).pdOn (pdArray a.val) = true →
    ((s.prepare a.val (hRes w) ds kv fill).arr a.val).port = none → wOp (w % 2 ^ 128) = 0xF0 → hCount (w % 2 ^ 128) ≠ 0 →
    Runs (.bundle a c w ds kv fill) s fun u => (u.arr a.val).port = some { core := c.val, header := w % 2 ^ 128 }) ∧
  (∀ (s : State) (a : Fin 32) (c : Fin 144) (w : Nat) (l : PortLock), CoreFree s c.val →
    s.mayGo c.val (.word a.val 16 (w % 2 ^ 128)) = true → s.pdOn (pdArray a.val) = true → (s.arr a.val).port = some l →
    l.core = c.val → l.words.length + 1 < hCount l.header →
    Runs (.bundleWordWrite a c 16 w) s fun u =>
      (u.arr a.val).port = some { l with words := l.words ++ [w % 2 ^ 128] } ∧ u.od = s.od) ∧
  (∀ (s : State) (a : Fin 32) (c : Fin 144) (w : Nat) (l : PortLock), CoreFree s c.val →
    s.mayGo c.val (.word a.val 16 (w % 2 ^ 128)) = true → s.pdOn (pdArray a.val) = true → (s.arr a.val).port = some l →
    l.core = c.val → hCount l.header ≤ l.words.length + 1 →
    exec (.bundleWordWrite a c 16 w) s =
      .next ((s.setArr a.val { s.arr a.val with port := none }).acceptBundle a.val l.header (l.words ++ [w % 2 ^ 128]))) ∧
  (∀ (s : State) (a : Fin 32) (c : Fin 144) (bytes w : Nat), CoreFree s c.val →
    s.mayGo c.val (.word a.val bytes (w % 2 ^ 128)) = true → bytes ≠ 16 →
    exec (.bundleWordWrite a c bytes w) s = .next (s.addO Od.bundlePortBadWriteCount 1)) ∧
  (∀ (s : State) (a : Fin 32) (l : PortLock), (s.arr a.val).port = some l →
    Runs (.bundlePortTimeout a) s fun u => (u.arr a.val).port = none ∧ (u.arr a.val).bundles = (s.arr a.val).bundles) ∧
  (∀ (s : State) (a : Fin 32) (key : Nat) (b : Bundle),
    (s.arr a.val).bundles.find? (fun b => b.key == key && b.left == 0) = some b →
    Runs (.bundleComplete a key) s fun u => ∀ c ∈ (u.arr a.val).bundles, c.key ≠ key)

/-- R115 to R118, R191: the three loads start, or wait for an on-demand fetch, which completes. -/
def Obligations.LoadsStart : Prop :=
  (∀ (s : State) (a : Fin 32) (q : QWord) (rest : List QWord), ReadyLoad s a.val 1 q rest → s.missBytes a.val (s.res a.val q.res) q = 0 →
    Runs (.tload a) s fun u => ∃ t, (u.arr a.val).shadow = some t ∧ t.desc = q.descs.getD 0 0 ∧ t.res = q.res ∧ t.epoch = q.epoch) ∧
  (∀ (s : State) (a : Fin 32) (q : QWord) (rest : List QWord), ReadyLoad s a.val 2 q rest → s.missBytes a.val (s.res a.val q.res) q = 0 →
    exec (.feed a) s = .next ((s.setArr a.val ((s.arr a.val).loadTaken q rest)).finishLoad a.val q)) ∧
  (∀ (s : State) (a : Fin 32) (q : QWord) (rest : List QWord), ReadyLoad s a.val 3 q rest → s.missBytes a.val (s.res a.val q.res) q = 0 →
    Runs (.skld a) s fun u => tHas (if bitAt q.word 99 then (u.arr a.val).sk1 else (u.arr a.val).sk0).tiles (bits q.word 98 95) = true) ∧
  (∀ (s : State) (a : Fin 32) (op : Fin 3) (q : QWord) (rest : List QWord), ReadyLoad s a.val (op.val + 1) q rest →
    s.missBytes a.val (s.res a.val q.res) q ≠ 0 →
    Runs ([Instr.tload a, .feed a, .skld a].getD op.val (.tload a)) s fun u =>
      (u.arr a.val).fetch = some { q := q, bytes := s.missBytes a.val (s.res a.val q.res) q } ∧ (u.arr a.val).loadQ = rest ∧
        u.o Od.ondemandFetches = (s.o Od.ondemandFetches + 1) % 2 ^ 64) ∧
  (∀ (s : State) (a : Fin 32) (f : Fetch), (s.arr a.val).fetch = some f → 0x10 ≤ wOp f.q.word →
    exec (.fetchComplete a) s =
      .next (s.setArr a.val { s.arr a.val with fetch := none, vecs := some (f.q.bundle, f.q.idx) })) ∧
  (∀ (s : State) (a : Fin 32) (f : Fetch), (s.arr a.val).fetch = some f → wOp f.q.word < 0x10 → s.pdOn (pdSlice a.val) = true →
    ((s.loadPieces a.val (s.res a.val f.q.res) f.q).any fun p => s.pageGone p.1) = false →
    exec (.fetchComplete a) s = .next ((s.setArr a.val { s.arr a.val with fetch := none }).finishLoad a.val f.q))

/-- R119 to R132: the compute instructions issue. -/
def Obligations.ComputeInstructionsIssue : Prop :=
  (∀ (s : State) (a : Fin 32) (q : QWord) (t : Tile) (upsets : List (Nat × Nat)), ReadyMma s a.val q →
    (s.arr a.val).active = some t → t.isFor q → s.vecsIn a.val q = true →
    exec (.mma a upsets) s = .next (((s.readVecs a.val q).setArr a.val ((s.arr a.val).issue q (mDsig q.word))).mmaRows a.val q
      ((s.arr a.val).halfOf q) t ((s.arr a.val).skOf q) upsets)) ∧
  (∀ (s : State) (a : Fin 32) (q : QWord) (t : Tile) (upsets : List (Nat × Nat)), ReadyMma s a.val q →
    (∀ u, (s.arr a.val).active = some u → ¬ u.isFor q) → (s.arr a.val).shadow = some t → t.isFor q → s.vecsIn a.val q = true →
    exec (.mma a upsets) s = .next (((s.readVecs a.val q).setArr a.val
      { (s.arr a.val).issue q (mDsig q.word) with active := some t, shadow := none }).mmaRows a.val q
      ((s.arr a.val).halfOf q) t ((s.arr a.val).skOf q) upsets)) ∧
  (∀ (s : State) (a : Fin 32) (q : QWord), ReadyImport s a.val q → s.vecsIn a.val q = true →
    exec (.importBlk a) s = .next ((s.readVecs a.val q).importRows a.val q)) ∧
  (∀ (s : State) (a : Fin 32) (q : QWord), ReadyNorm s a.val q ∨ ReadyImport s a.val q → s.vecsIn a.val q = false →
    (s.arr a.val).fetch = none → ((s.vecPieces a.val q).any fun p => s.pageGone p.1) = false →
    Runs (if wOp q.word = 0x22 then .norm a else .importBlk a) s fun u => (u.arr a.val).compQ = (s.arr a.val).compQ ∧
      (u.arr a.val).fetch = some { q := q, bytes := s.missRuns a.val (s.res a.val q.res) q.vecRuns } ∧
      u.o Od.ondemandFetches = (s.o Od.ondemandFetches + 1) % 2 ^ 64) ∧
  (∀ (s : State) (a : Fin 32) (q : QWord), s.headOf a.val 0x20 = some q →
    Runs (.estate a) s fun u => IssuedNow s u a.val q (wOp q.word) ∧ u.od = s.od ∧ u.mem = s.mem) ∧
  (∀ (s : State) (a : Fin 32) (q : QWord), s.headOf a.val 0x21 = some q →
    Runs (.smres a) s fun u => IssuedNow s u a.val q (wOp q.word) ∧ u.od = s.od ∧ u.mem = s.mem) ∧
  (∀ (s : State) (a : Fin 32) (q : QWord), ReadyNorm s a.val q → s.vecsIn a.val q = true →
    Runs (.norm a) s fun u => IssuedNow s u a.val q (wOp q.word)) ∧
  (∀ (s : State) (a : Fin 32) (q : QWord), ReadyTksub s a.val q →
    Runs (.tksub a) s fun u => IssuedNow s u a.val q (wOp q.word) ∧
      ∃ j, tGet none (u.arr a.val).topk (bits q.word 76 75) = some j ∧ j.q = q ∧ j.k = bits q.word 87 77 ∧ j.count = bits q.word 73 55) ∧
  (∀ (s : State) (a : Fin 32) (c : Fin 4) (j : TkJob), tGet none (s.arr a.val).topk c.val = some j → j.count ≤ j.vals.length →
    Runs (.topkJobComplete a c) s fun u => tGet none (u.arr a.val).topk c.val = none ∧
      ∀ i ∈ (u.arr a.val).issued, ¬ (i.op = 0x30 ∧ i.q = j.q))

/-- R134 to R136, R138, R141: synchronization, completion, the abandon command and faults. -/
def Obligations.SyncAndEndsOfWords : Prop :=
  (∀ (s : State) (a : Fin 32) (q : QWord), s.headOf a.val 0x40 = some q →
    bits q.word 107 92 ≤ (s.arr a.val).ctr q.res (bits q.word 111 108) →
    Runs (.wait a) s fun u =>
      (u.arr a.val).ctr q.res (bits q.word 111 108) = (s.arr a.val).ctr q.res (bits q.word 111 108) - bits q.word 107 92 ∧
        (u.arr a.val).compQ = (s.arr a.val).compQ.drop 1 ∧ u.od = s.od) ∧
  (∀ (s : State) (a : Fin 32) (q : QWord), s.headOf a.val 0x41 = some q → (bitAt q.word 86 = true → (s.arr a.val).issued = []) →
    Runs (.signal a) s fun u => (u.arr a.val).compQ = (s.arr a.val).compQ.drop 1 ∧
      ∃ i ∈ u.incrs, i.target = bits q.word 111 107 ∧ i.ctr = bits q.word 106 103 ∧ i.value = bits q.word 102 87 ∧ i.epoch = q.epoch) ∧
  (∀ (s : State) (a : Fin 32) (q : QWord), s.headOf a.val 0x42 = some q → (s.arr a.val).issued = [] → bitAt q.word 111 = false →
    exec (.fence a) s = .next (s.setArr a.val ((s.arr a.val).issueDone q))) ∧
  (∀ (s : State) (a : Fin 32) (q : QWord), s.headOf a.val 0x42 = some q → (s.arr a.val).issued = [] → bitAt q.word 111 = true →
    exec (.fence a) s = .next ((s.setArr a.val ((s.arr a.val).issueDone q)).post (bits q.word 110 103) (bits q.word 102 100) 0x02
      (packFields [(16, q.epoch), (5, a.val), (2, q.res), (41, 0), (64, bits q.word 63 0)]))) ∧
  (∀ (s : State) (a : Fin 32) (n : Nat) (i : Issued), ReadyComplete s a.val n i → i.dsig = none →
    exec (.instructionComplete a n) s = .next (s.setArr a.val
      ({ s.arr a.val with issued := (s.arr a.val).issued.take n ++ (s.arr a.val).issued.drop (n + 1) }.wordDone i.q.bundle))) ∧
  (∀ (s : State) (a : Fin 32) (n : Nat) (i : Issued) (c : Nat), ReadyComplete s a.val n i → i.dsig = some c →
    exec (.instructionComplete a n) s = .next ((s.setArr a.val
      ({ s.arr a.val with issued := (s.arr a.val).issued.take n ++ (s.arr a.val).issued.drop (n + 1) }.wordDone i.q.bundle)).increment
        a.val { target := a.val, res := i.q.res, ctr := c, value := 1, epoch := i.q.epoch })) ∧
  (∀ (s : State) (n : Nat) (i : Incr), s.incrs[n]? = some i → s.pdOn (pdArray i.target) = true →
    tGet none (s.arr i.target).actEp i.res = some i.epoch → i.staged = none →
    Runs (.syncIncrementArrival n) s fun u => u.incrs.length + 1 = s.incrs.length ∧
      tGet 0 (u.arr i.target).sync (i.res * 16 + i.ctr) = min 65535 (tGet 0 (s.arr i.target).sync (i.res * 16 + i.ctr) + i.value)) ∧
  (∀ (s : State) (n : Nat) (i : Incr), s.incrs[n]? = some i → s.pdOn (pdArray i.target) = false →
    Runs (.syncIncrementArrival n) s fun u => u.arrs = s.arrs ∧ u.o Od.epochDrops = (s.o Od.epochDrops + 1) % 2 ^ 64) ∧
  (∀ (s : State) (a : Fin 32) (r : Fin 4) (epoch : Nat), s.pdOn (pdArray a.val) = true →
    exec (.abandon a r epoch) s = .next (s.abandonArr a.val r.val (epoch % 65536))) ∧
  (∀ (s : State) (a : Fin 32) (beats : Nat) (q : QWord) (rest : List QWord), (s.arr a.val).compQ = q :: rest →
    s.o Od.arrayWaitLimit ≤ beats → s.mayIssue a.val q = true →
    ((s.endBundle a.val q.bundle stWAIT q.idx).faultRec 0x2B 0 a.val 0 0 1 [(16, a.val), (16, q.res), (32, q.epoch)]).stepOfWord
      a.val q.res q.epoch = none →
    exec (.waitLimit a beats) s = .next ((s.endBundle a.val q.bundle stWAIT q.idx).faultRec 0x2B 0 a.val 0 0 1
      [(16, a.val), (16, q.res), (32, q.epoch)])) ∧
  (∀ (s : State) (a : Fin 32) (mem : Fin 3) (key addr : Nat), s.pdState (pdArray a.val) = pdON →
    Runs (.eccFault a mem key addr) s fun u => u.pins.faultPulse = true)

/-! ## 06_memory_tiers.md, 20_faults_ageing_record.md R603 to R608 -/

namespace Sys2Proof.Machine

/-- The slice's oldest migration m may end as a copy (R187, R189). -/
abbrev ReadyMigration (s : State) (sl : Nat) (m : Migr) (rest : List Migr) : Prop :=
  tGet [] s.mem.queues sl = m :: rest ∧ (s.gran m.gran).state = gMIGRATING ∧ pieceMoves (s.page m.page) m.piece = true ∧
    s.o (Od.nearUsed (s.gran m.gran).owner) ≤ s.o (Od.nearQuota (s.gran m.gran).owner)

/-- Pseudo-channel n of stack h is due for retirement by its trigger (R605). -/
abbrev ChannelDue (s : State) (h n trigger : Nat) : Prop :=
  (trigger = 0 → 2 ≤ (((tGet [] s.mem.pcErr (64 * h + n)).filter fun e => decide (s.beat < e.2 + 1024)).map (·.1)).eraseDups.length) ∧
  (trigger = 1 → 64 ≤ tGet 0 s.mem.scrub (64 * h + n))

end Sys2Proof.Machine

/-- R184 to R189: heat, tiering and migrations. -/
def Obligations.TiersMovePieces : Prop :=
  (∀ (s : State), s.beat % 1024 = 0 → exec .tierDecision s = .next s.tierDecision) ∧
  (∀ (s : State), s.beat % 16384 = 0 →
    Runs .heatHalving s fun u => u.mem = s.halveTiers.mem ∧ u.od = s.halveTiers.od ∧
      u.index.lists = tMap {} s.halveTiers.index.lists (fun _ x => { x with heat := x.heat / 2 })) ∧
  (∀ (s : State) (sl : Fin 32) (m : Migr) (rest : List Migr), ReadyMigration s sl.val m rest →
    Runs (.migrationComplete sl) s fun u => tGet [] u.mem.queues sl.val = rest ∧ (u.gran m.gran).state = gTIERED ∧
      (u.gran m.gran).heat = (s.page m.page).heat ∧ (u.page m.page).present = setBitTo (s.page m.page).present m.piece true)

/-- R205, R206, R596, R605 to R608: errors of granules, pages, pseudo-channels and stacks. -/
def Obligations.TierErrorsRetire : Prop :=
  (∀ (s : State) (g : Fin 16384) (off : Fin 65536) (tag : Bool), (s.gran g.val).state ≠ gRETIRED → granHome (s.gran g.val) = false →
    Runs (.granuleEccError g off tag) s fun u => (u.gran g.val).state = gRETIRED ∧ u.pins.faultPulse = true ∧
      u.o Od.eccUncorrectable = (s.o Od.eccUncorrectable + 1) % 2 ^ 64) ∧
  (∀ (s : State) (g : Fin 16384) (off : Fin 65536) (tag : Bool), (s.gran g.val).state ≠ gRETIRED →
    Runs (.granuleEccError g off tag) s fun u => u.pins.faultPulse = true) ∧
  (∀ (s : State) (p : Fin 196608) (pc : Fin 64) (dir both index : Bool), (s.page p.val).cls ≠ cRETIRED →
    (s.page p.val).cls ≠ cFIRMWARE →
    Runs (.stackPageEccError p pc dir both index) s fun u => (u.page p.val).cls = cRETIRED ∧ u.pins.faultPulse = true) ∧
  (∀ (s : State) (p : Fin 196608) (pc : Fin 64) (dir both index : Bool), (s.page p.val).cls = cFIRMWARE →
    Runs (.stackPageEccError p pc dir both index) s fun u => u.pins.faultPulse = true) ∧
  (∀ (s : State) (p : Fin 196608) (bytes : List Byte) (x : Page), s.mem.refetch.find? (fun e => e.1 == p.val) = some (p.val, x) →
    s.stillUsed p.val x.use = false →
    Runs (.pageRefetchComplete p bytes) s fun u => ∀ e ∈ u.mem.refetch, e.1 ≠ p.val) ∧
  (∀ (s : State) (p : Fin 196608) (bytes : List Byte) (x : Page) (t : State) (q : Nat),
    s.mem.refetch.find? (fun e => e.1 == p.val) = some (p.val, x) → s.stillUsed p.val x.use = true →
    s.pageAgain (p.val / 49152) { x with heat := 0, touch := 0, present := 0 } = some (t, q) →
    Runs (.pageRefetchComplete p bytes) s fun u => ∀ e ∈ u.mem.refetch, e.1 ≠ p.val) ∧
  (∀ (s : State) (h : Fin 8) (n : Fin 64) (trigger : Fin 3), ChannelDue s h.val n.val trigger.val →
    bitAt (tGet 0 s.mem.pcOut h.val) n.val = false → h.val ∉ s.mem.stacksOut →
    Runs (.pseudoChannelRetire h n trigger) s fun u => u.pins.faultPulse = true) ∧
  (∀ (s : State) (h : Fin 8) (channels pages : List (Nat × Nat)), s.stackUp h.val = true →
    exec (.patrolScrubPass h channels pages) s = .next (applyAll (State.scrubPage h.val) (s.scrubCounts h.val channels) pages)) ∧
  (∀ (s : State) (h : Fin 8), h.val ∉ s.mem.stacksOut → s.power.mainOn = true →
    Runs (.stackFailure h) s fun u => h.val ∈ u.mem.stacksOut ∧ u.pins.faultPulse = true)

/-! ## 07_models_stakes_steps.md: models and skeins -/

namespace Sys2Proof.Machine

/-- A LOAD command of model m whose plan p passes checks 1 to 9; t holds what it takes. -/
abbrev ReadyLoadOf (s : State) (m : Nat) (x : PlanX) (p : Plan) (t : State) : Prop :=
  s.o (Od.modelState m) = 1 ∧ s.slots.ledgerBad = false ∧ s.storeValid (s.o (Od.planObject m)) = true ∧
    parsePlan (s.storeObj (s.o (Od.planObject m))).bytes x = some p ∧ p.digestOk = true ∧ s.loadChecks m p = 0 ∧
    s.takeLoad m p = some t

abbrev ReadyTiles (s : State) (m : Nat) (p : Plan) (shs : List Share) : Prop :=
  (s.model m).plan = some p ∧ s.o (Od.modelState m) = 2 ∧ (s.model m).passed = false ∧
    (s.storeObj (s.o (Od.planObject m))).state = 2 ∧ s.loadCheck (s.stakesOf m) p.shares = .inr shs

abbrev ReadyLoadCommit (s : State) (m : Nat) (p : Plan) (t : State) : Prop :=
  (s.model m).plan = some p ∧ (s.model m).passed = true ∧ s.o (Od.modelState m) = 2 ∧ s.slots.ledgerBad = false ∧
    placeAll p ((s.stakesOf m).flatMap fun n => (s.stake n).arrays.map fun a => (n, a)) s = some t

abbrev ReadySkeinCopy (s : State) (m : Nat) (c : SkCmd) (baseId : Nat) (tiles : List (Nat × Nat)) : Prop :=
  (s.model m).sk = some c ∧ c.phase = 3 ∧ s.storeValid c.source = true ∧ c.slot < 512 ∧
    (tiles.all fun t => decide (t.1 ≤ if t.2 = 1 then 5242 else 2621)) = true ∧
    baseId = ((s.model m).plan.map (·.base)).getD 0

end Sys2Proof.Machine

/-- R215 to R221: a model's load, unload, clear and failure. -/
def Obligations.ModelsLoadAndUnload : Prop :=
  (∀ (s : State) (m : Fin 64) (x : PlanX) (p : Plan) (t : State), ReadyLoadOf s m.val x p t →
    Runs (.modelLoad m x) s fun u => u.o (Od.modelState m.val) = 2 ∧ (u.model m.val).plan = some p ∧ u.stakes = t.stakes) ∧
  (∀ (s : State) (m : Fin 64) (p : Plan) (shs : List Share), ReadyTiles s m.val p shs →
    Runs (.tileCopyComplete m true) s fun u => (u.model m.val).passed = true ∧ (u.model m.val).shares = shs) ∧
  (∀ (s : State) (m : Fin 64) (p : Plan) (t : State), ReadyLoadCommit s m.val p t →
    Runs (.modelLoadCommit m) s fun u => u.o (Od.modelState m.val) = 3 ∧ (u.model m.val).passed = false) ∧
  (∀ (s : State) (m : Fin 64), s.o (Od.modelState m.val) = 3 → (s.model m.val).unloadAsked = true →
    Runs (.modelUnload m) s fun u => u.o (Od.modelState m.val) = 4 ∧ (u.model m.val).unloadAsked = false ∧ u.stakes = s.stakes) ∧
  (∀ (s : State) (m : Fin 64), s.o (Od.modelState m.val) = 4 → s.slots.ledgerBad = false →
    (s.reqs.any fun e => e.2.state == 2 && e.2.binds m.val) = false → (s.steps.any fun e => e.2.model == m.val) = false →
    Runs (.modelUnloadCommit m) s fun u => u.o (Od.modelState m.val) = 0 ∧ u.model m.val = {}) ∧
  (∀ (s : State) (m : Fin 64), s.o (Od.modelState m.val) = 5 → s.o (Od.modelCommand m.val) = 3 →
    Runs (.modelClear m) s fun u => u.o (Od.modelState m.val) = 0 ∧ u.model m.val = {} ∧ ∀ e ∈ u.steps, e.2.model ≠ m.val) ∧
  (∀ (s : State) (m : Fin 64), (s.o (Od.modelState m.val) = 3 ∨ s.o (Od.modelState m.val) = 4) →
    s.o Od.modelFailBeats ≤ (s.model m.val).stuck → exec (.modelFail m) s = .next (s.failModel m.val))

/-- R239 to R244: a skein's load, activation and removal. -/
def Obligations.SkeinsLoadAndGo : Prop :=
  (∀ (s : State) (m : Fin 64) (pages : Nat) (c : SkCmd), (s.model m.val).sk = some c → c.op = 1 → c.phase = 0 →
    exec (.skeinLoad m pages) s = .next (s.skeinTry m.val { c with pages := pages })) ∧
  (∀ (s : State) (m : Fin 64) (c : SkCmd), (s.model m.val).sk = some c → (c.phase = 1 ∨ c.phase = 2) → c.started + c.wait ≤ s.beat →
    Runs (.skeinWaitExpiry m) s fun u => (u.model m.val).sk = none) ∧
  (∀ (s : State) (m : Fin 64) (c : SkCmd) (baseId : Nat) (tiles : List (Nat × Nat)), ReadySkeinCopy s m.val c baseId tiles →
    Runs (.skeinCopyComplete m true baseId tiles) s fun u => (u.model m.val).sk = some { c with phase := 4 }) ∧
  (∀ (s : State) (m : Fin 64) (c : SkCmd) (k : Nat), (s.model m.val).sk = some c → c.op = 2 →
    s.skeinOf c.tenant m.val c.id = some k →
    Runs (.skeinRemove m) s fun u => u.o (Od.skeinState k) = 3 ∧ (u.model m.val).sk = none) ∧
  (∀ (s : State) (k : Fin 512), (s.o (Od.skeinState k.val) = 3 ∨ s.o (Od.skeinState k.val) = 4) → s.o (Od.skeinRefs k.val) = 0 →
    Runs (.skeinSlotFree k) s fun u => u.o (Od.skeinState k.val) = 0 ∧ u.o (Od.skeinTenant k.val) = odDefault (Od.skeinTenant k.val))

/-! ## 07 steps, 08_admission_and_deadlines.md, 09_generation.md -/

namespace Sys2Proof.Machine

/-- A course of running step k ends on its stake, led by this module, with every linked segment done. -/
abbrev ReadyCourse (s : State) (k : Nat) : Prop :=
  s.hasStep k = true ∧ (s.step_ k).state = spRUNNING ∧ (s.stake (s.step_ k).stake).step = some k ∧ s.courseQuiet (s.step_ k) = true ∧
    (s.stake (s.step_ k).stake).lead = true ∧ ((s.stake (s.step_ k).stake).links.all fun l => (s.step_ k).done.contains l) = true

/-- Some row of step k still has its request when the course has been charged. -/
abbrev RowsLeft (s : State) (k cycles : Nat) : Prop :=
  ((s.step_ k).rows.all fun z => !(s.chargeCourse (s.step_ k) cycles).hasReq z.req) = false

abbrev ReadyPage (s : State) (a r : Nat) (q : Nat) (draft : Bool) (g pos n k : Nat) (t : State) (p : Nat) : Prop :=
  (s.stake (s.res a r).stake).step = some k ∧ (s.res a r).used = true ∧ tHas s.seqs q = true ∧ s.hasReq (s.seq q).req = true ∧
    ((s.step_ k).rows.any fun z => z.req == (s.seq q).req && z.draft == draft && decide (z.kind ≤ 2 ∧ z.start ≤ pos ∧ pos + n ≤ z.start + z.n)) = true ∧
    ((s.courseOf (s.step_ k)).any (·.kvWrite)) = true ∧ n ≠ 0 ∧ (pos + n - 1) / 256 = pos / 256 ∧
    g < kvGroups (s.planX (s.step_ k).model) ∧
    s.kvPageFor q (b2n draft) (pos / 256) g (s.stake (s.res a r).stake) (s.planX (s.step_ k).model) a = some (t, p) ∧
    bitAt (t.page (kvPageOf p)).pub (p % 8) = false

end Sys2Proof.Machine

namespace Sys2Proof.Machine

/-- The granted request r passes checks 1 to 9 in s; t is s after the releases of R295. -/
abbrev Accepts (s : State) (r : Nat) (t : State) : Prop :=
  (s.boundReq (s.req r)).badEntry = false ∧ s.bodyOk (s.boundReq (s.req r)).tenant (s.boundReq (s.req r)).body = true ∧
    s.gateChecks r (s.boundReq (s.req r)) = (t, none) ∧ t.check9 (s.boundReq (s.req r)) = .accept ∧
    t.boundReq (t.req r) = s.boundReq (s.req r)

/-- The acceptance of request r answered, and the request admitted. -/
def State.admits (t : State) (r : Nat) : State := (t.respond r 1 0 0).admitReq r (t.boundReq (t.req r))

end Sys2Proof.Machine

/-- R252 to R271: the gate's decision, deferrals and deadlines. -/
def Obligations.GateAndDeadlines : Prop :=
  (∀ (s : State) (port : Fin 3) (r : Nat), s.nextGrant port.val = some r →
    ((((s.grant port.val r).decide1 r).hasReq r && (((s.grant port.val r).decide1 r).req r).cancel.isSome) = false) →
    exec (.gateDecision port) s = .next ((s.grant port.val r).decide1 r)) ∧
  (∀ (s : State) (port : Fin 3) (r : Nat) (t : State), s.nextGrant port.val = some r → Accepts (s.grant port.val r) r t →
    (t.admits r).hasReq r = true → ((t.admits r).req r).cancel = none →
    exec (.gateDecision port) s = .next (t.admits r)) ∧
  (∀ (s : State) (port : Fin 3) (r : Nat), s.nextGrant port.val = some r →
    ((s.grant port.val r).decide1 r).hasReq r = true → (((s.grant port.val r).decide1 r).req r).cancel.isSome = true →
    exec (.gateDecision port) s = .next (((s.grant port.val r).decide1 r).failReq r 2)) ∧
  (∀ (s : State) (r : Nat), s.hasReq r = true → (s.req r).state = 1 →
    ((s.req r).heldAt + (s.boundReq (s.req r)).cls.deferLimit ≤ s.beat ∨ s.meets r (s.boundReq (s.req r)) false = false) →
    exec (.deferLimitExpiry r) s = .next (s.refuse r 2 0x04 s.heldRetry)) ∧
  (∀ (s : State) (r : Nat), s.hasReq r = true → (s.req r).state = 2 → (s.req r).final = none → (s.req r).cls.e2e ≠ 0 →
    (s.req r).beat + (s.req r).cls.e2e ≤ s.beat → exec (.deadlineExpiry r) s = .next (s.failReq r 0x0A))

/-- R228 to R233, R279 to R282, R295, R298: a step's course ends, its rows are copied, its text is streamed. -/
def Obligations.StepsRunAndCommit : Prop :=
  (∀ (s : State) (k cycles : Nat) (outs : List StepOut), ReadyCourse s k → ((s.courseOf (s.step_ k)).any (·.last)) = false →
    (s.step_ k).suspend = false → RowsLeft s k cycles →
    Runs (.courseEnd k cycles outs) s fun u => u.step_ k = { s.step_ k with done := [], course := (s.step_ k).course + 1 }) ∧
  (∀ (s : State) (k cycles : Nat) (outs : List StepOut), ReadyCourse s k → ((s.courseOf (s.step_ k)).any (·.last)) = false →
    (s.step_ k).suspend = true → RowsLeft s k cycles →
    Runs (.courseEnd k cycles outs) s fun u => (u.step_ k).state = spSUSPENDED ∧ (u.step_ k).course = (s.step_ k).course + 1) ∧
  (∀ (s : State) (k cycles : Nat) (outs : List StepOut), ReadyCourse s k → ((s.courseOf (s.step_ k)).any (·.last)) = true →
    s.stepReady (s.step_ k) = true → RowsLeft s k cycles →
    exec (.courseEnd k cycles outs) s = .next ((s.chargeCourse (s.step_ k) cycles).commitStep k outs)) ∧
  (∀ (s : State) (k ns : Nat) (c : CourseRec), s.courseOf (s.step_ k) = some c → s.hasStep k = true → (s.step_ k).state = spRUNNING →
    c.remote = true → c.remoteNs + s.o Od.remoteGraceNs < ns →
    exec (.remoteWaitLimit k ns) s = .next ((s.abandonStep k true).tidySteps)) ∧
  (∀ (s : State) (a : Fin 32) (r : Fin 4) (q : Fin 4096) (draft : Bool) (g pos n keyA keyS valA : Nat) (sr : Bool) (k : Nat) (t : State)
      (p : Nat), ReadyPage s a.val r.val q.val draft g pos n k t p →
    exec (.pageWriteComplete a r q draft g pos n keyA keyS valA sr) s =
      .next (t.writeKvRows a.val (s.res a.val r.val) p (s.planX (s.step_ k).model) g pos n keyA keyS valA sr)) ∧
  (∀ (s : State) (p : Nat), tHas s.prefixes p = true → (tGet {} s.prefixes p : Prefix).refs = 0 →
    ((tGet {} s.prefixes p : Prefix).pages.all fun k => (s.page (kvPageOf k)).heat == 0) = true →
    exec (.prefixRelease p) s = .next (s.releasePrefix p)) ∧
  (∀ (s : State) (q : Fin 4096) (c : Nat × Nat × Nat) (rest : List (Nat × Nat × Nat)), (s.seq q.val).commits = c :: rest →
    s.hasReq (s.seq q.val).req = true → s.seenUpTo c.2.1 = true → (rest ≠ [] ∨ (s.seq q.val).ended = false) →
    exec (.detokenizeStream q) s = .next (s.streamCommit q.val)) ∧
  (∀ (s : State) (q : Fin 4096) (c : Nat × Nat × Nat), (s.seq q.val).commits = [c] → s.hasReq (s.seq q.val).req = true →
    s.seenUpTo c.2.1 = true → (s.seq q.val).ended = true → (s.seq q.val).dead = false →
    exec (.detokenizeStream q) s = .next ((s.streamAll q.val).finishReq (s.seq q.val).req).tidySteps) ∧
  (∀ (s : State) (q : Fin 4096) (c : Nat × Nat × Nat), (s.seq q.val).commits = [c] → s.hasReq (s.seq q.val).req = true →
    s.seenUpTo c.2.1 = true → (s.seq q.val).ended = true → (s.seq q.val).dead = true →
    exec (.detokenizeStream q) s = .next ((s.streamAll q.val).complete (s.seq q.val).req 0x0C 0 0 true).tidySteps)

/-- R663, R655, R579: a beat boundary takes the average input power and the power limit of the beat just ended. -/
def Obligations.BoundaryTakesPowerAndLimit : Prop :=
  ∀ (s : State) (waits : List Nat) (smp : List (Nat × Nat)) (inlet : Int) (watts : Nat), s.power.stbyOn = true →
    Runs (.beatBoundary waits smp inlet watts) s fun u => u.o Od.mainInputW = watts % 2 ^ 16 ∧
      u.o Od.powerLimitW = 1800 - 10 * (if 400 < inlet then (min inlet 450 - 400).toNat else 0)

/-! ## 10_sampling_topk_random.md, 11_tokenizer_and_grammar.md -/

namespace Sys2Proof.Machine

/-- The job waiting first on array a, whose positions have their frames when it has a grammar, is j, and its unit has a key. -/
abbrev ReadyDice (s : State) (a : Nat) (ws : List Nat) (i : Nat) (j : DiceJob) : Prop :=
  s.pdOn (pdSpine (a / 8)) = true ∧
    (let q := s.diceQ a ++ (ws.take (64 - (s.diceQ a).length)).map fun w => ({ word := w % 2 ^ 256 } : DiceJob)
     i = (q.takeWhile fun j => j.result.isSome).length ∧ q[i]? = some j) ∧
    (s.die_ (a / 4)).hasKey = true ∧ djOk (a / 4) j.word = true ∧ djArray j.word = a ∧
    (djGram j.word = none ∨ ((List.range (djPos j.word)).all fun p => s.maskReady a (djSeq j.word) p (djEpoch j.word)) = true)

abbrev ReadyVocabLoad (s : State) (v : Nat) (w : Vocab) (t : State) : Prop :=
  (s.o (Od.vocabState v) = 1 ∨ s.o (Od.vocabState v) = 3) ∧ (s.vslot v).next = none ∧ s.storeValid (s.o (Od.vocabSource v)) = true ∧
    parseVocab (s.storeObj (s.o (Od.vocabSource v))).bytes = .inr w ∧
    s.pinImage (s.o (Od.vocabOwner v)) (s.o (Od.vocabTargetSlice v)) 3 (slotObj v ((s.vslot v).gen + 1)) w.image = some t

abbrev ReadyGrammarLoad (s : State) (g : Nat) (w : Grammar) (t : State) : Prop :=
  (s.o (Od.grammarSlotState g) = 1 ∨ s.o (Od.grammarSlotState g) = 3) ∧ (s.gslot g).next = none ∧
    s.storeValid (s.o (Od.grammarSource g)) = true ∧
    parseGrammar (s.storeObj (s.o (Od.grammarSource g))).bytes (fun id n =>
      s.o (Od.vocabState (s.o (Od.grammarVocabSlot g))) == 2 && s.o (Od.vocabId (s.o (Od.grammarVocabSlot g))) == id &&
        s.o (Od.vocabEntries (s.o (Od.grammarVocabSlot g))) == n) = .inr w ∧
    s.pinImage (s.o (Od.grammarOwner g)) (s.o (Od.grammarTargetSlice g)) 4 (slotObj g ((s.gslot g).gen + 1)) w.image = some t

/-- Job j is next on a die, with a loaded vocabulary v in its slot and unit u for it. -/
abbrev ReadyTokenize (s : State) (die : Fin 2) (busy : List Nat) (j : TrieJob) (slot maxOut u : Nat) (v : Vocab) : Prop :=
  s.nextJob die.val = some j ∧ s.jobBounds j = (slot, maxOut) ∧ (s.vslot slot).cur = some v ∧
    s.pickTrie die.val slot (s.vslot slot).gen busy = some u ∧ s.pdOn (if die.val = 0 then 84 else 91) = true

end Sys2Proof.Machine

/-- R310 to R323, R349: dice jobs, mask frames and generator keys. -/
def Obligations.DiceMasksAndKeys : Prop :=
  (∀ (s : State) (a : Fin 32) (ws : List Nat) (i : Nat) (j : DiceJob), ReadyDice s a.val ws i j →
    Runs (.diceJob a ws) s fun u => ∃ d, (u.diceQ a.val)[i]? = some d ∧ d.word = j.word ∧ d.result.isSome = true) ∧
  (∀ (s : State) (a : Fin 32) (j : DiceJob) (rest : List DiceJob) (v : Nat), s.diceQ a.val = j :: rest → j.result = some v →
    Runs (.diceJobComplete a) s fun u => u.diceQ a.val = rest ∧ (u.seq (djSeq j.word)).drawn = j.drawn ∧
      u.incrs.length = s.incrs.length + b2n (djLast j.word)) ∧
  (∀ (s : State) (a : Fin 32) (f : Mask),
    ((s.masks.filter fun f => 4 * f.dice + f.eng == a.val).take 32).find? (fun f => !f.full) = some f →
    s.pdOn (pdSpine (a.val / 8)) = true →
    Runs (.maskFrameComplete a) s fun u => u.masks = s.masks.map fun m => if m == f then { m with full := true } else m) ∧
  (∀ (s : State) (u : Fin 8), (s.die_ u.val).hasKey = true → 2 ^ 20 ≤ (s.die_ u.val).blocks →
    Runs (.rngKeyReplace u) s fun t => (t.die_ u.val).epoch = ((s.die_ u.val).epoch + 1) % 2 ^ 32 ∧ (t.die_ u.val).blocks = 0 ∧
      (t.die_ u.val).lanes = [] ∧ (t.die_ u.val).ready = none) ∧
  (∀ (s : State) (u : Fin 8) (raw : Nat), s.pdOn (pdSpine (u.val / 2)) = true → s.o (Od.rngSourceState u.val) ≠ 2 →
    healthy ((List.range 1536).map fun i => bitAt raw i) = true → (s.die_ u.val).hasKey = false →
    Runs (.rngConditionedKey u raw) s fun t => (t.die_ u.val).hasKey = true ∧ (t.die_ u.val).key = sha384 (leBytes 192 raw) / 2 ^ 128) ∧
  (∀ (s : State) (u : Fin 8) (raw : Nat), s.pdOn (pdSpine (u.val / 2)) = true → s.o (Od.rngSourceState u.val) ≠ 2 →
    healthy ((List.range 1536).map fun i => bitAt raw i) = true → (s.die_ u.val).hasKey = true →
    Runs (.rngConditionedKey u raw) s fun t => (t.die_ u.val).key = (s.die_ u.val).key ∧
      (t.die_ u.val).ready = some (sha384 (leBytes 192 raw) / 2 ^ 128)) ∧
  (∀ (s : State) (u : Fin 8) (raw : Nat), s.pdOn (pdSpine (u.val / 2)) = true → s.o (Od.rngSourceState u.val) ≠ 2 →
    healthy ((List.range 1536).map fun i => bitAt raw i) = false → (s.die_ u.val).fails < 63 →
    Runs (.rngConditionedKey u raw) s fun t => (t.die_ u.val).fails = (s.die_ u.val).fails + 1 ∧
      (t.die_ u.val).hasKey = (s.die_ u.val).hasKey ∧ t.o (Od.rngSourceState u.val) = s.o (Od.rngSourceState u.val))

/-- R331 to R353: vocabulary and grammar slots, certification and tokenization. -/
def Obligations.VocabulariesAndGrammars : Prop :=
  (∀ (s : State) (v : Fin 16) (w : Vocab) (t : State), ReadyVocabLoad s v.val w t →
    Runs (.vocabLoad v true) s fun u => (u.vslot v.val).next = some { w with src := s.o (Od.vocabSource v.val) } ∧
      (u.vslot v.val).cur = (s.vslot v.val).cur) ∧
  (∀ (s : State) (v : Fin 16) (w : Vocab), (s.vslot v.val).next = some w →
    (s.o (Od.vocabState v.val) = 1 ∨ (s.o (Od.vocabState v.val) = 3 ∧ s.o (Od.vocabRefs v.val) = 0)) →
    Runs (.vocabLoadDone v) s fun u => u.o (Od.vocabState v.val) = 2 ∧ (u.vslot v.val).cur = some w ∧ (u.vslot v.val).next = none) ∧
  (∀ (s : State) (v : Fin 16), s.o (Od.vocabState v.val) = 2 → s.o (Od.vocabCommand v.val) = 2 →
    exec (.vocabClose v) s = .next (s.setO (Od.vocabState v.val) 4)) ∧
  (∀ (s : State) (v : Fin 16), s.o (Od.vocabState v.val) = 4 → s.o (Od.vocabRefs v.val) = 0 →
    Runs (.vocabCloseDone v) s fun u => u.o (Od.vocabState v.val) = 0 ∧ (u.vslot v.val).cur = none) ∧
  (∀ (s : State) (g : Fin 64) (w : Grammar) (t : State), ReadyGrammarLoad s g.val w t →
    Runs (.grammarLoad g true) s fun u => (u.gslot g.val).next = some { w with src := s.o (Od.grammarSource g.val) } ∧
      (u.gslot g.val).cur = (s.gslot g.val).cur) ∧
  (∀ (s : State) (g : Fin 64) (w : Grammar), (s.gslot g.val).next = some w →
    (s.o (Od.grammarSlotState g.val) = 1 ∨ (s.o (Od.grammarSlotState g.val) = 3 ∧ s.o (Od.grammarRefs g.val) = 0)) →
    Runs (.grammarLoadDone g) s fun u => u.o (Od.grammarSlotState g.val) = 2 ∧ (u.gslot g.val).cur = some w ∧
      (u.gslot g.val).next = none) ∧
  (∀ (s : State) (g : Fin 64), s.o (Od.grammarSlotState g.val) = 2 → s.o (Od.grammarCommand g.val) = 2 →
    exec (.grammarClose g) s = .next (s.setO (Od.grammarSlotState g.val) 4)) ∧
  (∀ (s : State) (g : Fin 64), s.o (Od.grammarSlotState g.val) = 4 → s.o (Od.grammarRefs g.val) = 0 →
    Runs (.grammarCloseDone g) s fun u => u.o (Od.grammarSlotState g.val) = 0 ∧ (u.gslot g.val).cur = none) ∧
  (∀ (s : State) (g : Nat) (x : GSlot), s.grammars = [(g, x)] → x.cur.isSome = true →
    exec .certificationRecompute s = .next (s.setO (Od.grammarCertNs g)
      ((List.range 64).foldl (fun v c => octSet v 256 4 c (s.certOf g c)) (s.o (Od.grammarCertNs g))))) ∧
  (∀ (s : State), exec .certificationRecompute s = .next (applyAll State.recertify s s.grammars)) ∧
  (∀ (s : State) (die : Fin 2) (busy : List Nat) (j : TrieJob) (slot maxOut u : Nat) (v : Vocab),
    ReadyTokenize s die busy j slot maxOut u v → s.hasReq j.req = false →
    exec (.tokenizeJob die busy) s = .next (s.trieEnds j slot u v [] (s.trieRun j slot maxOut u v))) ∧
  (∀ (s : State) (die : Fin 2) (busy : List Nat) (j : TrieJob) (slot maxOut u : Nat) (v : Vocab) (t : State) (bs : List Nat),
    ReadyTokenize s die busy j slot maxOut u v → s.hasReq j.req = true →
    takeBufs die.val (s.req j.req).tenant j.req (cdiv (4 * ((s.trieRun j slot maxOut u v).1.length + 1)) 4096) s = some (t, bs) →
    exec (.tokenizeJob die busy) s = .next (t.trieEnds j slot u v bs (s.trieRun j slot maxOut u v)))

/-! ## 12_flash_index_and_spokes.md, 13_search_insert_merge.md -/

namespace Sys2Proof.Machine

/-- The index may be mounted: formatted sizes stand, its power groups are ON, and the index stake's shares are free. -/
abbrev ReadyMount (s : State) (led : Tbl Nat) : Prop :=
  s.o Od.indexState = 2 ∧ ([85, 86, 87, 88, 92, 93, 94, 95].any fun p => s.pdState p == pdFAILED) = false ∧
    ([85, 86, 87, 88, 92, 93, 94, 95].any fun p => !s.pdOn p) = false ∧ (s.stake 511).used = false ∧
    claimGroups s s.indexGroups 0 s.slots.ledger = .inr led

/-- Nothing of the index is in use and an UNMOUNT waits. -/
abbrev ReadyUnmount (s : State) : Prop :=
  s.mounted = true ∧ s.index.unmount = true ∧ (s.reqs.any fun e => e.2.state == 2 && decide (2 ≤ e.2.head.kind)) = false ∧
    s.index.staged = [] ∧ s.index.formed = [] ∧ s.index.windows = [] ∧ (s.index.lists.all fun e => e.2.merge.isNone) = true

/-- A LOAD command of text dictionary slot k, its source object VALID. -/
abbrev ReadyDict (s : State) (k : Nat) : Prop :=
  s.index.dictPend.contains k = true ∧ s.o (Od.textDictCommand k) = 1 ∧ s.storeValid (s.o (Od.textDictSource k)) = true

/-- Page n of list l's current version is there. -/
abbrev ReadyMain (s : State) (l page : Nat) : Prop :=
  (s.index.list l).vers ≠ [] ∧ page < s.index.mainPages (s.index.list l).cur.ents.length ∧
    (s.index.list l).cur.lost.contains page = false

/-- Window w, started, holds request r's context, which spoke sp has not finished. -/
abbrev ReadyContext (s : State) (sp r : Nat) (w : Window) : Prop :=
  (s.index.windows.find? fun w => w.started && w.queries.any fun q => q.req == r) = some w ∧ w.done.contains (sp, r) = false ∧
    s.index.deadCh.contains sp = false ∧ s.pdOn (pdSpoke sp) = true

/-- Every spoke has finished request r's context q in window w. -/
abbrev ReadyRimMerge (s : State) (r : Nat) (w : Window) (q : WQuery) : Prop :=
  (s.index.windows.find? fun w => w.started && (w.queries.any fun q => q.req == r) && !w.merged.contains r) = some w ∧
    (s.index.spokes.all fun sp => w.done.contains (sp, r)) = true ∧ w.queries.find? (fun q => q.req == r) = some q ∧ s.hasReq r = true

end Sys2Proof.Machine

/-- R362 to R365, R394, R414: the index is formatted, mounted and unmounted. -/
def Obligations.IndexFormatsMountsUnmounts : Prop :=
  (∀ s : State, s.o Od.indexState = 1 →
    Runs .indexFormat s fun u => u.o Od.indexState = 6 ∧ u.o Od.nextEntryNumber = 0 ∧ u.index.lists = [] ∧ u.index.text = [] ∧
      u.index.fmtLists = s.o Od.lists ∧ u.index.fmtWidth = s.o Od.codeWidth) ∧
  (∀ (s : State) (led : Tbl Nat), ReadyMount s led →
    Runs .indexMount s fun u => u.o Od.indexState = (if s.index.deadDies.isEmpty && s.index.deadCh.isEmpty then 3 else 4) ∧
      (u.stake 511).used = true ∧ u.slots.ledger = led ∧ u.index.stripe = none) ∧
  (∀ s : State, s.o Od.indexState = 2 →
    ([85, 86, 87, 88, 92, 93, 94, 95].any fun p => s.pdState p == pdFAILED) = true →
    exec .indexMount s = .next (s.setO Od.indexState 5)) ∧
  (∀ s : State, ReadyUnmount s →
    Runs .indexUnmount s fun u => u.o Od.indexState = 6 ∧ (u.stake 511).used = false ∧ u.o Od.listsCached = 0) ∧
  (∀ s : State, s.mounted = true → s.index.ckpt + s.o Od.checkpointBeats ≤ s.beat →
    exec .checkpoint s = .next (s.setIndex { s.index with ckpt := s.beat })) ∧
  (∀ s : State, s.index.dirLost = true → s.o Od.indexState = 4 → s.index.deadDies = [] → s.index.deadCh = [] →
    Runs .indexDirectoryRebuilt s fun u => u.o Od.indexState = 3 ∧ u.index.dirLost = false ∧ u.index.ckpt = s.beat)

/-- R371, R372, R374, R378, R379, R381: appends become side pages, texts become log pages, segments are compacted. -/
def Obligations.AppendsAndTextsAreWritten : Prop :=
  (∀ s : State, s.mounted = true → (s.index.staged.any fun a => decide (a.at_ + s.o Od.sideFlushBeats ≤ s.beat)) = true →
    exec .sideFlushTimeout s = .next (s.formSide s.index.fitCount)) ∧
  (∀ (s : State) (n core mb : Nat) (p : SidePage), (s.index.formed.find? fun p => p.num == n) = some p →
    exec (.sidePageProgramDone n core mb) s =
      .next (applyAll State.pumpOutcomes (s.sideDone p core mb) (reqsOf p.apps)).pumpStaging) ∧
  (∀ (s : State) (t : Nat), s.index.stripe = some t → s.index.stripeAt + s.o Od.sideStripeCloseBeats ≤ s.beat →
    (s.index.formed.any fun p => p.stripe == t) = false → exec .stripeCloseTimeout s = .next (s.closeStripe t).pumpStaging) ∧
  (∀ (s : State) (b : Nat), s.index.textAt = some b → b + s.o Od.sideFlushBeats ≤ s.beat →
    Runs .textFlushTimeout s fun u => u.index.inflight = s.index.inflight ++ [s.index.textHead / 1024] ∧ u.index.textAt = none) ∧
  (∀ (s : State) (g : Nat), s.index.inflight.contains g = true →
    exec (.textPageProgramDone g) s =
      .next (applyAll State.pumpOutcomes (s.textDone g) (((s.index.framesOn g).map fun e => e.2.req).eraseDups))) ∧
  (∀ (s : State) (g : Nat) (gs : List Nat) (y : Index), s.mounted = true →
    100 * (12 * s.index.fmtText - s.index.usedSegs.length) < 2 * (12 * s.index.fmtText) → s.compactable = g :: gs →
    moveFrames s.beat (s.index.liveFrames g) s.index = some y →
    Runs .compaction s fun u => g ∉ u.index.usedSegs ∧ ∀ e ∈ u.index.text, e.1 / 1024 / 47616 ≠ g) ∧
  (∀ (s : State) (k : Fin 64), ReadyDict s k.val →
    leAt (s.storeObj (s.o (Od.textDictSource k.val))).bytes 0 4 = 0xEC30A437 →
    (s.storeObj (s.o (Od.textDictSource k.val))).bytes.length ≤ 131072 →
    Runs (.textDictLoad k) s fun u => u.o (Od.textDictState k.val) = 1 ∧
      tGet [] u.index.dicts k.val = (s.storeObj (s.o (Od.textDictSource k.val))).bytes) ∧
  (∀ (s : State) (k : Fin 64), s.index.dictPend.contains k.val = true → s.o (Od.textDictCommand k.val) = 2 →
    Runs (.textDictRemove k) s fun u => u.o (Od.textDictState k.val) = 0 ∧ tHas u.index.dicts k.val = false)

/-- R361, R383 to R386: failed programs, unreadable pages, failed dies and channels, and the rebuilds they queue. -/
def Obligations.FlashFailuresAreContained : Prop :=
  (∀ (s : State) (n core mb t : Nat) (p : SidePage), (s.index.formed.find? fun p => p.num == n) = some p → s.index.stripe = some t →
    exec (.programFailure 0 n core mb) s =
      .next ((s.setIndex (s.index.moveSide n t)).programFails (s.index.stripeChan p.per p.stripe p.at_)
        (s.index.stripeDie p.stripe) (s.index.stripeBlock p.stripe) (p.per * (p.stripe % 512) + p.at_) core mb)) ∧
  (∀ (s : State) (n core mb g : Nat), s.index.inflight.contains n = true → s.index.textAfter s.index.textLast = some g →
    exec (.programFailure 1 n core mb) s =
      .next ((s.setIndex (s.index.moveText n g)).programFails (s.index.textChan n) (s.index.textDie n) (s.index.textBlock n)
        (n % 47616) core mb)) ∧
  (∀ (s : State) (n core mb : Nat) (m : Merge), (s.index.list n).merge = some m → m.ready = false → m.nothing = false →
    exec (.programFailure 2 n core mb) s =
      .next (s.programFails (s.index.stripeChan m.per m.first 0) (s.index.stripeDie m.first) (s.index.stripeBlock m.first)
        (m.per * (m.first % 512)) core mb)) ∧
  (∀ (s : State) (n page cw core mb : Nat) (c : Fin 32), ReadyMain s n page →
    let v := (s.index.list n).cur
    let t := v.first + page / v.per
    exec (.readReconstruct 0 n page c cw true core mb) s =
      .next (s.readBack (s.index.stripeChan v.per t (page % v.per)) (s.index.stripeDie t) (s.index.stripeBlock t)
        (v.per * (t % 512) + page % v.per) cw core mb)) ∧
  (∀ (s : State) (n page cw core mb : Nat) (c : Fin 32), ReadyMain s n page →
    Runs (.readReconstruct 0 n page c cw false core mb) s fun u => (u.index.list n).damaged = true ∧
      (u.index.list n).cur.lost = page :: (s.index.list n).cur.lost) ∧
  (∀ (s : State) (n page cw core mb : Nat) (c : Fin 32) (ok : Bool) (p : SidePage),
    (s.index.sidePages.find? fun p => p.num == n && !p.lost) = some p → s.index.stripe = some p.stripe →
    exec (.readReconstruct 1 n page c cw ok core mb) s =
      .next (s.addO (Od.unreadable (s.index.stripeChan p.per p.stripe p.at_)) cw)) ∧
  (∀ (s : State) (n page cw core mb : Nat) (c : Fin 32), (s.index.text.any fun e => e.1 / 1024 == n && e.2.done) = true →
    Runs (.readReconstruct 2 n page c cw false core mb) s fun u => ∀ e ∈ u.index.text, e.1 / 1024 = n → e.2.lost = true) ∧
  (∀ (s : State) (n page cw core mb : Nat) (c : Fin 32), (s.storeObj n).state = 2 →
    Runs (.readReconstruct 3 n page c cw false core mb) s fun u => (u.storeObj n).bad = true) ∧
  (∀ (s : State) (c : Fin 32) (d : Fin 12) (ms core mb : Nat), s.index.deadDies.contains (12 * c.val + d.val) = false →
    s.index.deadCh.contains c.val = false →
    Runs (.dieFailure c d ms core mb) s fun u => 12 * c.val + d.val ∈ u.index.deadDies ∧ u.o Od.indexState ≠ 3) ∧
  (∀ (s : State) (c : Fin 32) (core mb : Nat), s.index.deadCh.contains c.val = false →
    Runs (.channelFailure c core mb) s fun u => c.val ∈ u.index.deadCh ∧ u.o Od.indexState ≠ 3 ∧ u.o (Od.spokeState c.val) = 3) ∧
  (∀ (s : State) (k : Nat) (rest : List Nat), s.index.rebuild = k :: rest →
    Runs .rebuildBlockDone s fun u => u.index.rebuild = rest ∧ (rest = [] → u.o Od.rebuildState = 0))

/-- R400 to R414: windows close and start, contexts are scanned and merged, lists are cached. -/
def Obligations.SearchWindowsRun : Prop :=
  (∀ s : State, s.beat % max 1 (s.o Od.searchWindowBeats) = 0 → s.index.lastClose ≠ s.beat → s.mounted = true →
    Runs .windowClose s fun u => u.index.lastClose = s.beat ∧ u.reqs = s.reqs) ∧
  (∀ (s : State) (w : Window), (s.index.windows.find? fun w => w.b != 0 && !w.started) = some w → s.windowFits w = true →
    exec .windowStart s = .next (s.beginWindow w)) ∧
  (∀ (s : State) (sp : Fin 32) (r core mb : Nat) (w : Window), ReadyContext s sp.val r w →
    exec (.contextDone sp r core mb) s = .next (s.contextScanned w sp.val r core mb)) ∧
  (∀ (s : State) (r : Nat) (w : Window) (q : WQuery), ReadyRimMerge s r w q →
    ((s.mergeCounted r w q).req r).head.kind = 2 →
    exec (.rimMerge r) s = .next ((s.mergeCounted r w q).searchEnds r ((s.index.mergeOut q w.b).map candOf))) ∧
  (∀ (s : State) (r : Nat) (w : Window) (q : WQuery), ReadyRimMerge s r w q →
    ((s.mergeCounted r w q).req r).head.kind ≠ 2 →
    exec (.rimMerge r) s = .next ((s.mergeCounted r w q).startTexts r ((s.index.mergeOut q w.b).map candOf))) ∧
  (∀ s : State, s.beat % 1024 = 0 → s.mounted = true → s.cacheUsable = true →
    exec .listCacheDecision s = .next (applyAll State.admitOne s s.hotLists)) ∧
  (∀ (s : State) (l : Nat) (c : CacheCopy), ((s.index.list l).copies.find? fun c => c.marked && !c.full) = some c →
    (s.index.windows.any fun w => w.started && w.lists.contains l &&
      ((s.index.list l).versionAt w.b).any fun v => v.num == c.version) = true →
    Runs (.listCacheFillDone l) s fun u => (∀ d ∈ (u.index.list l).copies, d.version = c.version → d.full = true) ∧
      u.o Od.listCacheFills = (s.o Od.listCacheFills + 1) % 2 ^ 64)

/-- R416 to R423: merges are programmed and flip, the sweep raises floors and retires tombstones, old versions go. -/
def Obligations.MergesFlipAndRetire : Prop :=
  (∀ (s : State) (l : Nat) (m : Merge), (s.index.list l).merge = some m → m.ready = false → m.nothing = false →
    Runs (.mergeProgrammed l) s fun u => (u.index.list l).merge = some { m with ready := true, ready_ := s.beat }) ∧
  (∀ (s : State) (l : Nat) (m : Merge), (s.index.list l).merge = some m → m.ready = true → m.nothing = false → m.ready_ < s.beat →
    exec (.listFlip l) s = .next ((s.flipList l m).sweepStep l).pumpStaging) ∧
  (∀ (s : State) (l : Nat) (m : Merge), (s.index.list l).merge = some m → m.nothing = true →
    Runs (.sideFloorRaise l) s fun u => (u.index.list l).merge = none ∧ (u.index.list l).cur.floor = m.cut) ∧
  (∀ (s : State) (cut flip : Nat) (rest : List (Nat × Nat)), s.index.retire = (cut, flip) :: rest →
    (s.index.windows.any fun w => w.b != 0 && decide (w.b < flip)) = false →
    exec .tombstoneRetire s = .next (s.retireTombs cut rest).pumpStaging) ∧
  (∀ (s : State) (l : Nat), 2 ≤ (s.index.list l).vers.length →
    (s.index.windows.any fun w => w.b != 0 &&
      decide (w.b < ((s.index.list l).vers.getD ((s.index.list l).vers.length - 2) {}).flip)) = false →
    exec (.versionRelease l) s = .next (s.dropVersion l).tidySidePages.pumpStaging) ∧
  (∀ (s : State) (l : Nat), (s.index.list l).vers.length < 2 →
    (s.index.windows.any fun w => w.b != 0 && decide (w.b < (s.index.list l).cur.flip)) = false →
    exec (.versionRelease l) s = .next (s.dropMerged l).tidySidePages.pumpStaging)

/-! ## 14_features_rerank_packing.md, 16_host_pool_and_peer_links.md: the pool port, tables, gathers, packing -/

namespace Sys2Proof.Machine

/-- A LOAD of table t that passes every check, its fixed parts in page p. -/
abbrev ReadyTable (s : State) (t : Nat) (hdr l1 : List Byte) (u : State) (p : Nat) : Prop :=
  (s.o (Od.tableState t) = 1 ∨ s.o (Od.tableState t) = 3) ∧ (s.tslot t).next = none ∧ s.pool.up = true ∧
    s.decoded (s.o (Od.poolBase t)) 256 = true ∧ (s.tableReads hdr).tableDecodes (s.o (Od.poolBase t)) hdr = true ∧
    (s.tableReads hdr).takeRowPage t (2 ^ 30) = some (u, p) ∧ hdrOk hdr = true ∧
    ((l1Entries hdr l1).any fun e => e != l1None && !(s.tableReads hdr).decoded (s.o (Od.poolBase t) + e) 32768) = false

/-- Tag n is outstanding, not quarantined. -/
abbrev ReadyTag (s : State) (n : Nat) (g : PoolTag) : Prop :=
  tHas s.pool.tags n = true ∧ tGet {} s.pool.tags n = g ∧ g.quar = false

/-- Feature f of candidate c may be pooled. -/
abbrev ReadyBag (s : State) (r c f : Nat) : Prop :=
  s.hasReq r = true ∧ (s.req r).stage12 = true ∧ c < (s.req r).cands.length ∧ f < (s.req r).fset.feats.length ∧
    ((s.req r).cands.getD c {}).live = true ∧ tHas ((s.req r).cands.getD c {}).feats f = false

/-- Candidate i awaits its text. -/
abbrev ReadyText (s : State) (r i : Nat) : Prop :=
  s.hasReq r = true ∧ (s.req r).stage = 10 ∧ i < (s.req r).cands.length ∧ ((s.req r).cands.getD i {}).live = true ∧
    ((s.req r).cands.getD i {}).text = none ∧
    (((s.req r).cands.getD i {}).tlen = 0 ∨ s.pdOn (pdSpoke (s.textSpoke ((s.req r).cands.getD i {}))) = true)

/-- Every tokenization of stage 15 is done. -/
abbrev ReadyPack (s : State) (r q : Nat) (qt : List Nat) : Prop :=
  s.hasReq r = true ∧ (s.req r).stage = 15 ∧ (s.req r).gtoks = some qt ∧ (s.req r).seqE = some q ∧
    ((s.req r).order.any fun i => ((s.req r).cands.getD i {}).gtoks.isNone) = false

end Sys2Proof.Machine

/-- R427 to R431, R443, R503: tables are loaded, take over and close; chunks are cached. -/
def Obligations.TablesAndRowCache : Prop :=
  (∀ (s : State) (t : Fin 64) (hdr l1 dflt : List Byte) (counts : List Nat) (u : State) (p : Nat),
    ReadyTable s t.val hdr l1 u p →
    Runs (.tableLoad t hdr l1 dflt counts true) s fun v =>
      (v.tslot t.val).next = some (tableImage (s.o (Od.poolBase t.val)) p hdr l1 dflt counts)) ∧
  (∀ (s : State) (t : Fin 64) (hdr l1 dflt : List Byte) (counts : List Nat) (ok : Bool),
    (s.o (Od.tableState t.val) = 1 ∨ s.o (Od.tableState t.val) = 3) → (s.tslot t.val).next = none → s.pool.up = false →
    exec (.tableLoad t hdr l1 dflt counts ok) s = .next (s.tableFails t.val 1)) ∧
  (∀ (s : State) (t : Fin 64) (w : Table), (s.tslot t.val).next = some w →
    (s.o (Od.tableState t.val) = 1 ∨ s.o (Od.tableState t.val) = 3 ∧ s.o (Od.tableRefs t.val) = 0) →
    Runs (.tableLoadDone t) s fun u => u.o (Od.tableState t.val) = 2 ∧ (u.tslot t.val).cur = some w ∧
      (u.tslot t.val).next = none ∧ u.o (Od.tableRows t.val) = w.rows % 2 ^ 64) ∧
  (∀ (s : State) (t : Fin 64), s.o (Od.tableState t.val) = 2 → s.o (Od.tableCommand t.val) = 2 →
    exec (.tableClose t) s = .next (s.setO (Od.tableState t.val) 4)) ∧
  (∀ (s : State) (t : Fin 64), s.o (Od.tableState t.val) = 4 → s.o (Od.tableRefs t.val) = 0 →
    Runs (.tableCloseDone t) s fun u => u.o (Od.tableState t.val) = 0 ∧ u.tslot t.val = {} ∧ u.o (Od.chunksCached t.val) = 0) ∧
  (∀ (s : State) (t : Fin 64) (c : Nat) (bytes : List Byte), tHas (s.table t.val).filling c = true → s.pool.up = true →
    Runs (.chunkFillDone t c bytes) s fun u => tGet 0 (u.table t.val).chunks c = tGet 0 (s.table t.val).filling c ∧
      tHas (u.table t.val).filling c = false) ∧
  (∀ s : State, s.beat % 1024 = 0 → exec .rowCacheDecision s = .next (applyAll State.admitHot s s.hotChunks))

/-- R441, R442, R499, R501, R503: reads of the pool end by reply, failure or quarantine, and the link comes and goes. -/
def Obligations.PoolReadsEnd : Prop :=
  (∀ (s : State) (tag : Fin 4096) (data : List Byte) (g : PoolTag), ReadyTag s tag.val g →
    (s.freeTag tag.val).wants g.req g.table g.off = true →
    exec (.poolReadReply tag data) s =
      .next ((((s.freeTag tag.val).setReq g.req { (s.freeTag tag.val).req g.req with
        pool := tIns (lineKey g.table g.off) (sliceB data 0 64) ((s.freeTag tag.val).req g.req).pool }).pumpGather g.req).pumpGathers)) ∧
  (∀ (s : State) (tag : Fin 4096) (data : List Byte), tHas s.pool.tags tag.val = true →
    (tGet {} s.pool.tags tag.val : PoolTag).quar = true → exec (.poolReadReply tag data) s = .next (s.addO Od.poolStale 1)) ∧
  (∀ (s : State) (tag : Fin 4096) (poison : Bool) (g : PoolTag), ReadyTag s tag.val g →
    exec (.poolReadTimeout tag poison) s =
      .next (((s.addO (if poison then Od.poolPoison else Od.poolTimeouts) 1).readFails tag.val).pumpGathers)) ∧
  (∀ (s : State) (tag : Fin 4096), tHas s.pool.tags tag.val = true → (tGet {} s.pool.tags tag.val : PoolTag).quar = true →
    exec (.poolTagQuarantineEnd tag) s = .next (s.freeTag tag.val).pumpGathers) ∧
  (∀ s : State, exec .poolLinkDown s =
    .next (applyAll State.readFails ((s.setPool { s.pool with up := false }).setO Od.poolLink 0)
      (tKeys s.pool.tags fun _ g => !g.quar)).pumpGathers) ∧
  (∀ (s : State) (rate lanes : Nat), s.pdOn 96 = true →
    Runs (.poolLinkUp rate lanes) s fun u => u.pool.up = true ∧
      u.o Od.poolLink = 65536 + 256 * (rate % 256) + lanes % 256)

/-- R380, R434, R438, R439, R447, R453: a candidate's text is read, its features pooled, and the prompt is packed. -/
def Obligations.TextsFeaturesAndPrompts : Prop :=
  (∀ (s : State) (r i core mb : Nat) (t : Nat) (text : List Byte), ReadyText s r i →
    s.readText ((s.req r).cands.getD i {}).taddr ((s.req r).cands.getD i {}).tlen = (t, text) → 2 ≤ t →
    exec (.textReadDone r i core mb) s = .next (s.textDropped r i t core mb)) ∧
  (∀ (s : State) (r i core mb : Nat) (t : Nat) (text : List Byte) (u : State) (bs : List Nat), ReadyText s r i →
    s.readText ((s.req r).cands.getD i {}).taddr ((s.req r).cands.getD i {}).tlen = (t, text) → t < 2 →
    takeBufs (if s.textSpoke ((s.req r).cands.getD i {}) < 16 then 0 else 1) (s.req r).tenant r (cdiv text.length 4096) s =
      some (u, bs) →
    exec (.textReadDone r i core mb) s = .next (u.textTaken r i t text bs core mb)) ∧
  (∀ (s : State) (r c f : Nat), ReadyBag s r c f → exec (.bagPool r c f) s = .next (s.poolFeature r c f)) ∧
  (∀ (s : State) (r q : Nat) (qt : List Nat), ReadyPack s r q qt →
    exec (.promptPack r) s = .next (s.packDone r q (s.packPrompt (s.req r) qt))) ∧
  (∀ (s : State) (x : Req) (qt : List Nat), (s.packPrompt x qt).2.2.length ≤ x.promptBudget)

/-! ## 15_request_port_and_buffers.md, 16_host_pool_and_peer_links.md: the request port and the host port -/

namespace Sys2Proof.Machine

/-- Datagram d stands first at a port, authentic and of a type. -/
abbrev ReadyMsg (s : State) (port typ : Nat) (d : Datagram) : Prop :=
  s.rxHead port = some d ∧ mType (mHead d.bytes) = typ ∧ s.authentic d.bytes = true

/-- A datagram is for the port, whose link is up. -/
abbrev ReadyArrival (s : State) (port : Nat) (net : Net) : Prop :=
  s.pdOn 89 = true ∧ bitAt s.power.ethUp port = true ∧ s.forPort port net = true

/-- The oldest command of function f has a type. -/
abbrev ReadyCmd (s : State) (f typ : Nat) (c : HostCmd) (rest : List HostCmd) : Prop := (s.fn f).cmds = c :: rest ∧ c.typ = typ

/-- Whole, new entries stand at function f's SUB_HEAD, which may accept them. -/
abbrev ReadyTail (s : State) (f tail : Nat) : Prop :=
  s.fnSeen f = true ∧ (tail + 512 - (s.fn f).head) % 512 ≤ 256 ∧ s.o Od.bootStep = 11 ∧ (s.fn f).enable = true ∧
    (s.fn f).ready = true ∧ s.boot.draining = false

/-- A write of FN_CONTROL with ENABLE 1 and a valid configuration. -/
abbrev ReadyEnable (s : State) (f w cplBase outBase : Nat) : Prop :=
  s.fnSeen f = true ∧ (s.fn f).enable = false ∧ bitAt w 31 = true ∧ 6 ≤ bits w 20 16 ∧ bits w 20 16 ≤ 16 ∧
    4 ≤ bits w 12 8 ∧ bits w 12 8 ≤ 16 ∧ cplBase % 4096 = 0 ∧ outBase % 4096 = 0

end Sys2Proof.Machine

/-- R457 to R466, R484: datagrams arrive, fail authentication, join assemblies; a tenant with too many foreign frees is disabled. -/
def Obligations.DatagramsBecomeRequests : Prop :=
  (∀ (s : State) (port : Fin 2) (net : Net) (bytes : List Byte), ReadyArrival s port.val net → net.kind = 0 →
    net.dport = s.o Od.reqUdpPort → s.o Od.bootStep = 11 → readable bytes = true → (tGet [] s.rx port.val).length < 4096 →
    Runs (.datagramArrival port net bytes) s fun u =>
      tGet [] u.rx port.val = tGet [] s.rx port.val ++ [{ net := net, bytes := bytes }] ∧ u.tx = s.tx ∧ u.od = s.od) ∧
  (∀ (s : State) (port : Fin 2) (net : Net) (bytes : List Byte), ReadyArrival s port.val net → 1 ≤ net.kind → net.kind ≤ 3 →
    Runs (.datagramArrival port net bytes) s fun u => u.tx =
      { path := { port := port.val, addr := net.src, v6 := net.v6 }, typ := 0x100 + net.kind } :: s.tx ∧ u.rx = s.rx) ∧
  (∀ (s : State) (port : Fin 2) (d : Datagram), s.rxHead port.val = some d → s.authentic d.bytes = false →
    exec (.datagramAuthFail port) s = .next ((s.rxPop port.val).addO (Od.authFails (mTenant (mHead d.bytes))) 1)) ∧
  (∀ (s : State) (port : Fin 2) (hint : Nat) (d : Datagram) (u : State) (bs : List Nat), ReadyMsg s port.val 1 d →
    ((s.rxPop port.val).idWin (mTenant (mHead d.bytes))).look (mId (mHead d.bytes)) = 0 →
    (s.assemblies.find? fun a => a.tenant == mTenant (mHead d.bytes) && a.id == mId (mHead d.bytes)) = none →
    (s.rxPop port.val).takeAssembly (mTenant (mHead d.bytes)) (mCount (mHead d.bytes) * 2 ^ mShift (mHead d.bytes)) = .inr (u, bs) →
    exec (.requestFragment port hint) s = .next (u.joinAssembly
      { tenant := mTenant (mHead d.bytes), id := mId (mHead d.bytes), shift := mShift (mHead d.bytes), count := mCount (mHead d.bytes)
        bufs := bs, start := u.beat, net := d.net, port := port.val, key := mKey (mHead d.bytes) } port.val hint d)) ∧
  (∀ (s : State) (port : Fin 2) (hint : Nat) (d : Datagram) (a : Assembly), ReadyMsg s port.val 1 d →
    ((s.rxPop port.val).idWin (mTenant (mHead d.bytes))).look (mId (mHead d.bytes)) = 0 →
    (s.assemblies.find? fun a => a.tenant == mTenant (mHead d.bytes) && a.id == mId (mHead d.bytes)) = some a →
    a.shift = mShift (mHead d.bytes) → a.count = mCount (mHead d.bytes) → tHas a.frags (mFrag (mHead d.bytes)) = false →
    exec (.requestFragment port hint) s = .next ((s.rxPop port.val).joinAssembly a port.val hint d)) ∧
  (∀ (s : State) (a : Assembly) (port hint : Nat) (d : Datagram),
    (tIns (mFrag (mHead d.bytes)) (mPayload d.bytes) a.frags).length < a.count →
    s.joinAssembly a port hint d = { s with assemblies :=
      (s.assemblies.filter fun b => !(b.tenant == a.tenant && b.id == a.id)) ++
        [{ a with frags := tIns (mFrag (mHead d.bytes)) (mPayload d.bytes) a.frags }] }) ∧
  (∀ (s : State) (t : Fin 256) (id : Nat) (a : Assembly), (s.assemblies.find? fun a => a.tenant == t.val && a.id == id) = some a →
    a.start + s.o Od.reassemblyBeats ≤ s.beat →
    exec (.reassemblyTimeout t id) s = .next ((s.dropAssembly a).notice
      { port := a.port, addr := a.net.src, udp := a.net.sport, v6 := a.net.v6, key := a.key } t.val id 1 0 0 0 0 0 0)) ∧
  (∀ (s : State) (t : Fin 256), t.val ≠ 0 → s.o Od.foreignFreeLimit ≠ 0 → s.o Od.foreignFreeLimit ≤ s.o (Od.foreignFrees t.val) →
    s.o (Od.tenantState t.val) = 1 →
    Runs (.tenantDisable t) s fun u => u.o (Od.tenantState t.val) = 0 ∧ u.o (Od.disableCause t.val) = 1 ∧
      ∀ p ∈ u.preCancels, p.tenant ≠ t.val)

/-- R252, R266 to R268, R476, R477, R481, R482: CANCEL, FREE and FETCH from a port and from a function, and what expires. -/
def Obligations.CancelFreeAndFetch : Prop :=
  (∀ (s : State) (port : Fin 3) (f : Fin 256) (d : Datagram), port.val < 2 → ReadyMsg s port.val 2 d →
    exec (.cancel port f) s = .next ((s.rxPop port.val).ingress.doCancel (mTenant (mHead d.bytes)) (mId (mHead d.bytes))
      (s.rxPop port.val).ingress.beat ((s.rxPop port.val).ingress.o Od.ingressSequence) (srcPath port.val d))) ∧
  (∀ (s : State) (f : Fin 256) (c : HostCmd) (rest : List HostCmd), ReadyCmd s f.val 2 c rest →
    exec (.cancel 2 f) s =
      .next ((s.setFn f.val { s.fn f.val with cmds := rest }).doCancel f.val c.id c.beat c.seq { port := 2 })) ∧
  (∀ (s : State) (t id beat seq : Nat) (p : RetPath) (r : Nat) (x : Req), (s.idWin t).look id = 1 →
    (s.reqs.find? fun e => e.2.tenant == t && e.2.id == id) = some (r, x) → x.cancel = none → x.final = none →
    (x.state = 1 ∨ x.state = 2) →
    s.doCancel t id beat seq p = ((s.setReq r { x with cancel := some (beat, seq) }).endReq r 2).tidySteps) ∧
  (∀ (s : State) (t id beat seq : Nat) (p : RetPath), (s.idWin t).look id = 0 → s.preCancelled t id = false →
    s.doCancel t id beat seq p =
      { s with preCancels := s.preCancels ++ [{ tenant := t, id := id, beat := beat, seq := seq }] }) ∧
  (∀ (s : State) (t : Fin 256) (id : Nat),
    (s.preCancels.any fun p => p.tenant == t.val && p.id == id && decide (p.beat + s.o Od.reassemblyBeats ≤ s.beat)) = true →
    Runs (.preCancelExpiry t id) s fun u => u.preCancelled t.val id = false ∧ u.reqs = s.reqs ∧ u.od = s.od) ∧
  (∀ (s : State) (port : Fin 3) (f : Fin 256) (list : List Byte) (d : Datagram), port.val < 2 → ReadyMsg s port.val 3 d →
    exec (.free port f list) s = .next ((s.rxPop port.val).doFree (mTenant (mHead d.bytes)) (handlesOf (mPayload d.bytes))
      (srcPath port.val d))) ∧
  (∀ (s : State) (f : Fin 256) (list : List Byte) (c : HostCmd) (rest : List HostCmd), ReadyCmd s f.val 3 c rest →
    exec (.free 2 f list) s = .next ((s.setFn f.val { s.fn f.val with cmds := rest }).doFree f.val
      (handlesOf (sliceB list 0 c.len)) { port := 2 })) ∧
  (∀ (s : State) (t h : Nat) (n : FreeSum), s.released t h = true → freeOne t (s, n) h =
    (s.freeBuf (h % 65536), { n with freed := n.freed + 1 })) ∧
  (∀ (s : State) (port : Fin 3) (f : Fin 256) (list : List Byte) (d : Datagram), port.val < 2 → ReadyMsg s port.val 4 d →
    exec (.fetch port f list) s = .next ((s.rxPop port.val).doFetch (mTenant (mHead d.bytes)) (mId (mHead d.bytes))
      (handlesOf (mPayload d.bytes)) (srcPath port.val d))) ∧
  (∀ (s : State) (f : Fin 256) (list : List Byte) (c : HostCmd) (rest : List HostCmd), ReadyCmd s f.val 4 c rest →
    exec (.fetch 2 f list) s = .next ((s.setFn f.val { s.fn f.val with cmds := rest }).doFetch f.val c.id
      (handlesOf (sliceB list 0 c.len)) { port := 2 })) ∧
  (∀ (s : State) (b : Fin 65536), (s.buf b.val).state = 2 → (s.buf b.val).rel + s.o Od.outputRetainBeats ≤ s.beat →
    exec (.outputRetainExpiry b) s = .next ((s.addO (Od.retainExpired (s.buf b.val).owner) 1).freeBuf b.val).pumpOutput)

/-- R488 to R493, R495: submission rings, bodies, function control, completion rings. -/
def Obligations.RingsAndFunctions : Prop :=
  (∀ (s : State) (f : Fin 256) (off : Fin 16384) (bytes : List Byte), s.fnSeen f.val = true →
    Runs (.submissionEntryWrite f off bytes) s fun u => ∀ i : Nat, i < bytes.length → off.val + i < 16384 →
      tGet 0 (u.fn f.val).ring (off.val + i) = bytes.getD i 0 ∧ tGet false (u.fn f.val).written (off.val + i) = true) ∧
  (∀ (s : State) (f : Fin 256) (tail : Fin 512), ReadyTail s f.val tail.val →
    exec (.subTailDoorbell f tail) s = .next (acceptEntries ((tail.val + 512 - (s.fn f.val).head) % 512)
      (s.setFn f.val { s.fn f.val with tail := tail.val }) f.val)) ∧
  (∀ (s : State) (f : Fin 256) (tail : Fin 512), s.fnSeen f.val = true → 256 < (tail.val + 512 - (s.fn f.val).head) % 512 →
    exec (.subTailDoorbell f tail) s = .next (s.addO Od.descriptorsIncomplete 1)) ∧
  (∀ (s : State) (r : Nat) (bytes : List Byte) (hint : Nat), s.hasReq r = true → (s.req r).state = 3 →
    exec (.bodyDmaComplete r true bytes hint) s = .next ((s.bodyRead r bytes).meetGate r hint)) ∧
  (∀ (s : State) (r : Nat) (bytes : List Byte) (hint : Nat), s.hasReq r = true → (s.req r).state = 3 →
    exec (.bodyDmaComplete r false bytes hint) s = .next ((s.addO Od.dmaErrors 1).refuse r 5 0x07 0)) ∧
  (∀ (s : State) (f : Fin 256) (v : BitVec 32) (cb ob : BitVec 64), ReadyEnable s f.val v.toNat cb.toNat ob.toNat →
    exec (.fnControlWrite f v cb ob) s = .next (s.setFn f.val { s.fn f.val with
      cplBase := cb.toNat, outBase := ob.toNat, cplLog := bits v.toNat 20 16, outLog := bits v.toNat 12 8
      coalesce := bits v.toNat 7 0, enable := true, head := 0, cplTail := 0, cfgErr := false }).pumpOutput) ∧
  (∀ (s : State) (f : Fin 256) (v : BitVec 32) (cb ob : BitVec 64), s.fnSeen f.val = true → bitAt v.toNat 31 = false →
    Runs (.fnControlWrite f v cb ob) s fun u => (u.fn f.val).enable = false ∧ (u.fn f.val).waitQ = [] ∧
      (u.fn f.val).cfgErr = false ∧ u.od = s.od) ∧
  (∀ (s : State) (f : Fin 256) (v : Fin 131072) (cycles : Nat), s.fnSeen f.val = true → (s.fn f.val).waitQ.length < 64 →
    exec (.cplHeadWrite f v cycles) s =
      .next (drainWait ((s.fn f.val).waitQ.length + 1) (s.setFn f.val { s.fn f.val with cplHead := v.val }) f.val)) ∧
  (∀ (s : State) (en : Bool) (n : Fin 256), s.pdOn 90 = true →
    Runs (.vfEnableChange en n) s fun u => u.o Od.vfsEnabled = (if en then n.val else 0) ∧ u.pcie.vfEnable = en ∧
      u.pcie.numVfs = n.val)

/-- R489, R498, R514, R534, R544: resets of the host path, a function's readiness, the mailbox's doorbell. -/
def Obligations.HostPathResets : Prop :=
  (∀ s : State, s.pdOn 90 = true → exec .hotReset s = .next (s.hostReset 4)) ∧
  (∀ s : State, s.o Od.pcieLink ≠ 0 → Runs .pcieLinkDown s fun u => u.o Od.pcieLink = 0 ∧ u.dict.mbStatus = 0 ∧
    u.dict.mbReq = [] ∧ u.pcie.vfEnable = false) ∧
  (∀ (s : State) (f : Fin 256), s.fnSeen f.val = true → f.val ≠ 0 → exec (.flr f) s = .next (s.resetOne f.val)) ∧
  (∀ s : State, s.fnSeen 0 = true →
    exec (.flr 0) s = .next (((s.resetOne 0).clearVfs).endSession 1 4).resetMailbox) ∧
  (∀ (s : State) (f rate lanes : Fin 256), s.pdOn 90 = true → (s.fn f.val).ready = false → f.val ≠ 0 →
    Runs (.functionReady f rate lanes) s fun u => (u.fn f.val).ready = true ∧ (u.fn f.val).msix1 = (s.fn f.val).msix1 + 1 ∧
      u.od = s.od) ∧
  (∀ (s : State) (rate lanes : Fin 256), s.pdOn 90 = true → s.o Od.pcieLink = 0 →
    Runs (.functionReady 0 rate lanes) s fun u => u.o Od.pcieLink = 65536 + 256 * rate.val + lanes.val ∧ (u.fn 0).ready = true) ∧
  (∀ (s : State) (bytes : List Byte), s.pdOn 90 = true → bitAt s.dict.mbStatus 31 = false →
    Runs (.mbGo bytes) s fun u => u.dict.mbReq = bytes ∧ bitAt u.dict.mbStatus 31 = true ∧ u.od = s.od)

/-! ## 16_host_pool_and_peer_links.md: peer links -/

namespace Sys2Proof.Machine

/-- A flit of a kind arrives on peer link l, which is UP. -/
abbrev ReadyFlit (s : State) (l kind h : Nat) : Prop := s.o (Od.peerState l) = 2 ∧ fKind h = kind

/-- The flit's epoch is the current one of its stake, which is placed here. -/
abbrev ReadyEpoch (s : State) (h : Nat) : Prop := (s.stake (fStake h)).used = true ∧ (s.stake (fStake h)).epoch = fEpoch h

/-- A STEP_START for a segment that is free, before its start beat. -/
abbrev ReadyStart (s : State) (l h start : Nat) : Prop :=
  ReadyFlit s l 1 h ∧ (s.stake (fStake h)).used = true ∧ (s.stake (fStake h)).lead = false ∧ (s.stake (fStake h)).step = none ∧
    (s.stake (fStake h)).stopped = false ∧ s.beat < start

/-- The planner's domain i is ON and its sample is due. -/
abbrev ReadySample (s : State) (i : Nat) : Prop :=
  s.pdOn (pdMonitored i) = true ∧ ((s.aged_ i).due = true ∨ s.beat % max 1 (s.o Od.ageingPeriodBeats) = 0)

end Sys2Proof.Machine

/-- R224, R228, R234, R504, R505, R507 to R509, R597, R598: flits start steps, carry data and increments, end courses and acknowledge;
a peer link replays, loses lanes, retrains, fails and is trained. -/
def Obligations.PeerFlitsActAndLinksRetrain : Prop :=
  (∀ (s : State) (l : Fin 8) (hdr : BitVec 128) (start fold : Nat), ReadyStart s l.val hdr.toNat start →
    Runs (.peerStepStart l hdr start fold) s fun u => (u.stake (fStake hdr.toNat)).step = some s.nextStep ∧
      (u.stake (fStake hdr.toNat)).epoch = fEpoch hdr.toNat ∧ (u.step_ s.nextStep).state = spRUNNING ∧
      (u.step_ s.nextStep).fold = fold ∧ u.nextStep = s.nextStep + 1) ∧
  (∀ (s : State) (l : Fin 8) (hdr : BitVec 128) (payload : List Byte) (ref mag : BitVec 32) (sk : List (BitVec 32)) (reply : Bool)
      (r : Nat), ReadyFlit s l.val 2 hdr.toNat → ReadyEpoch s hdr.toNat → s.residentOf (fStake hdr.toNat) (fArray hdr.toNat) = some r →
    exec (.peerData l hdr payload ref mag sk reply) s =
      .next (((s.addO (Od.peerFlitsRx l.val) 1).stageFlit (fArray hdr.toNat) r hdr.toNat payload ref mag sk).increment
        (fArray hdr.toNat) { target := fArray hdr.toNat, res := r, ctr := fCtr hdr.toNat, value := 1
                             epoch := fEpoch hdr.toNat % 65536 })) ∧
  (∀ (s : State) (l : Fin 8) (hdr : BitVec 128) (payload : List Byte) (ref mag : BitVec 32) (sk : List (BitVec 32)),
    ReadyFlit s l.val 2 hdr.toNat → ¬ ReadyEpoch s hdr.toNat →
    exec (.peerData l hdr payload ref mag sk false) s =
      .next ((s.addO (Od.peerFlitsRx l.val) 1).addO (Od.peerStale l.val) 1)) ∧
  (∀ (s : State) (l : Fin 8) (hdr : BitVec 128) (r : Nat), ReadyFlit s l.val 3 hdr.toNat → ReadyEpoch s hdr.toNat →
    s.residentOf (fStake hdr.toNat) (fArray hdr.toNat) = some r →
    exec (.peerIncrement l hdr) s = .next ((s.addO (Od.peerFlitsRx l.val) 1).increment (fArray hdr.toNat)
      { target := fArray hdr.toNat, res := r, ctr := fCtr hdr.toNat, value := 1, epoch := fEpoch hdr.toNat % 65536 })) ∧
  (∀ (s : State) (l : Fin 8) (hdr : BitVec 128) (k : Nat), ReadyFlit s l.val 4 hdr.toNat → ReadyEpoch s hdr.toNat →
    (s.stake (fStake hdr.toNat)).step = some k →
    Runs (.peerCourseEnd l hdr) s fun u => l.val ∈ (u.step_ k).done ∧ (u.step_ k).rows = (s.step_ k).rows ∧ u.stakes = s.stakes) ∧
  (∀ (s : State) (l : Fin 8) (hdr : BitVec 128) (ack : Fin 65536), ReadyFlit s l.val 5 hdr.toNat →
    Runs (.peerLinkControl l hdr ack) s fun u => (u.peer l.val).held =
      ((s.peer l.val).held.filter fun g => decide ((bits g 127 112 + 65536 - ack.val) % 65536 < 32768))) ∧
  (∀ (s : State) (l : Fin 8), s.o (Od.peerState l.val) = 2 →
    exec (.peerFlitCrcFail l) s = .next (s.addO (Od.peerReplays l.val) 1)) ∧
  (∀ (s : State) (l : Fin 8) (bad good : Fin 9), s.o (Od.peerState l.val) = 2 →
    Runs (.peerLaneFault l bad good) s fun u => u.o (Od.peerState l.val) = 3 ∧ u.o (Od.peerLanes l.val) = laneWidth good.val ∧
      u.o (Od.peerRetrains l.val) = (s.o (Od.peerRetrains l.val) + 1) % 2 ^ 32) ∧
  (∀ (s : State) (l lane : Fin 8) (ns : Nat), s.o (Od.peerState l.val) = 3 → s.o (Od.peerLanes l.val) ≠ 0 →
    Runs (.peerRetrainDone l lane ns) s fun u => u.o (Od.peerState l.val) = 2 ∧
      u.o (Od.peerFlitsTx l.val) = (s.o (Od.peerFlitsTx l.val) + (s.peer l.val).held.length) % 2 ^ 64) ∧
  (∀ (s : State) (l : Fin 8), (s.o (Od.peerState l.val) = 1 ∨ s.o (Od.peerState l.val) = 3) →
    exec (.peerLinkFail l) s = .next (s.peerFails l.val (s.o (Od.peerEnable l.val) == 0))) ∧
  (∀ (s : State) (l : Fin 8) (good : Fin 9) (addr num : Fin 256), s.pdOn 97 = true → s.o (Od.peerEnable l.val) = 1 →
    s.o (Od.peerState l.val) ≤ 1 → good.val ≠ 0 →
    Runs (.peerLinkTrained l good addr num) s fun u => u.o (Od.peerState l.val) = 2 ∧
      u.o (Od.peerLanes l.val) = laneWidth good.val ∧ u.o (Od.peerRemote l.val) = 256 * addr.val + num.val)

/-- R609 to R612: a monitored domain is sampled, and the planner acts on its margin. -/
def Obligations.AgeingSamplesPlanMargins : Prop :=
  (∀ (s : State) (d : Fin 38) (vmin vmin50 supply : Fin 65536), ReadySample s d.val →
    exec (.ageingSample d vmin vmin50 supply) s =
      .next (((s.supplyKnown d.val supply.val).ageSampled d.val vmin.val).marginPlan d.val vmin50.val
        ((s.supplyKnown d.val supply.val).marginOf d.val vmin.val))) ∧
  (∀ (s : State) (i vmin : Nat), i < 38 → (s.ageSampled i vmin).o (Od.marginMv i) = ofI16 (s.marginOf i vmin)) ∧
  (∀ (s : State) (i vmin50 : Nat) (margin : Int), margin < (s.o Od.marginFloorMv : Int) + 10 → s.o (Od.supplyMv i) < supplyMax →
    ((s.marginPlan i vmin50 margin).aged_ i).pending = some (raisedSupply (s.o Od.marginFloorMv) (s.o (Od.supplyMv i)) margin)) ∧
  (∀ (f mv : Nat) (margin : Int), raisedSupply f mv margin ≤ supplyMax)

/-! ## 17_chain_beat_dictionary.md: the chain and the beat -/

namespace Sys2Proof.Machine

/-- Standby power is there and the upstream (0) or downstream (1) link is up. -/
abbrev ReadyLink (s : State) (bit : Nat) : Prop := s.power.stbyOn = true ∧ s.linkUp bit = true

/-- A beat word reaches the beat input. -/
abbrev ReadyBeat (s : State) : Prop := s.power.stbyOn = true ∧ (s.o Od.beatSource ≠ 1 ∨ s.pinWith 1 = true)

/-- An offset is within 1 % of the period. -/
abbrev NearPrediction (s : State) (off : Int) : Prop :=
  -((s.periodUs * 10000 : Nat) : Int) ≤ off ∧ off ≤ ((s.periodUs * 10000 : Nat) : Int)

end Sys2Proof.Machine

/-- R518 to R525: the repeater, enumeration, the delay measurement and the links of the chain. -/
def Obligations.ChainForwardsAndEnumerates : Prop :=
  (∀ (s : State) (up fcs : Bool) (hdr : BitVec 128) (payload : List Byte), ReadyLink s (if up then 1 else 0) →
    (fcs && frameOk hdr.toNat payload) = true → fType hdr.toNat ≠ 1 → fType hdr.toNat ≠ 7 → s.forwards hdr.toNat = true →
    exec (.frameRepeat up hdr payload fcs) s = .next (s.repeatFrame up { header := hdr.toNat, payload := payload })) ∧
  (∀ (s : State) (up : Bool) (hdr : BitVec 128) (payload : List Byte), ReadyLink s (if up then 1 else 0) →
    s.forwards hdr.toNat = true →
    exec (.frameRepeat up hdr payload false) s = .next ((s.addO Od.framesDiscarded 1).repeatFrame up
      { header := hdr.toNat, payload := payload, corrupt := true })) ∧
  (∀ (s : State) (hop : Fin 256) (acc : Fin 4294967296), ReadyLink s 0 → s.chain.measured = true → hop.val + 1 ≤ 126 →
    Runs (.enumerate hop acc) s fun u => u.o Od.chainAddress = hop.val + 1 ∧ u.o Od.chainState = 1 ∧
      u.o Od.beatDelay = (acc.val + s.o Od.upstreamDelay) % 2 ^ 32) ∧
  (∀ (s : State) (hop : Fin 256) (acc : Fin 4294967296), ReadyLink s 0 → s.chain.measured = false →
    Runs (.enumerate hop acc) s fun u => u.chain.enumWait = some (hop.val, acc.val) ∧ u.od = s.od) ∧
  (∀ (s : State) (src : Fin 128), ReadyLink s 1 → exec (.probe src) s = .next (s.ownFrame 4 src.val false 0 0 0 [])) ∧
  (∀ (s : State) (delay : Fin 4294967296) (src : Fin 128), ReadyLink s 0 → s.chain.measured = false → s.chain.enumWait = none →
    s.o Od.chainState ≠ 2 →
    Runs (.echo delay src) s fun u => u.o Od.upstreamDelay = delay.val ∧ u.chain.measured = true ∧
      u.o Od.chainAddress = s.o Od.chainAddress) ∧
  (∀ (s : State) (src : Fin 128), ReadyLink s 0 →
    exec (.pathDown src) s = .next ((s.breakPath 0 2).repeatFrame false { header := frameHead 7 127 src.val false 0 0 0 0 })) ∧
  (∀ s : State, s.power.stbyOn = true → s.linkUp 0 = false →
    Runs .upstreamLinkUp s fun u => u.linkUp 0 = true ∧ u.chain.measured = false ∧ u.chain.enumWait = none) ∧
  (∀ (s : State) (cutUp cutDown : Bool), ReadyLink s 0 →
    Runs (.upstreamLinkDown cutUp cutDown) s fun u => u.linkUp 0 = false ∧ u.o Od.chainAddress = s.o Od.chainAddress ∧
      (s.o Od.chainAddress ≠ 0 → u.o Od.chainState = 2) ∧ u.o Od.lockState ≠ 1) ∧
  (∀ s : State, s.o Od.chainState = 2 → s.linkUp 0 = false → s.chain.hold + s.o Od.addressHoldBeats ≤ s.beat →
    Runs .addressHoldExpiry s fun u => u.o Od.chainAddress = 0 ∧ u.o Od.chainState = 0) ∧
  (∀ s : State, s.power.stbyOn = true → s.linkUp 1 = false → Runs .downstreamLinkUp s fun u => u.linkUp 1 = true) ∧
  (∀ (s : State) (cutUp cutDown : Bool), ReadyLink s 1 →
    Runs (.downstreamLinkDown cutUp cutDown) s fun u => u.linkUp 1 = false ∧ u.linkUp 0 = s.linkUp 0)

/-- R526 to R531: beat words lock and keep the beat, missing markers bring HOLDOVER, and HOLDOVER has a limit. -/
def Obligations.BeatWordsLockAndHold : Prop :=
  (∀ (s : State) (word : BitVec 64) (off : Int) (gap : Nat), ReadyBeat s → s.o Od.beatState = 0 → wordOk word.toNat = true →
    Runs (.beatWord word off gap) s fun u => u.o Od.beatState = 1 ∧ u.chain.runLast = bwCount word.toNat ∧
      u.chain.beatOut = word.toNat) ∧
  (∀ (s : State) (word : BitVec 64) (off : Int) (gap : Nat), ReadyBeat s → s.o Od.beatState = 2 → wordOk word.toNat = true →
    bwCount word.toNat = s.beat + 1 → NearPrediction s off → bwHoldover word.toNat = false →
    Runs (.beatWord word off gap) s fun u => u.o Od.beatState = 2 ∧ u.o Od.beatOffset = ofI32 off % 2 ^ 32 ∧ u.chain.invalid = 0 ∧
      u.o Od.beatWordErrors = s.o Od.beatWordErrors) ∧
  (∀ (s : State) (word : BitVec 64) (off : Int) (gap : Nat), ReadyBeat s → s.o Od.beatState = 2 → wordOk word.toNat = false →
    2 ≤ s.chain.invalid →
    Runs (.beatWord word off gap) s fun u => u.o Od.beatState = 3 ∧ u.o Od.holdoverBeats = 0 ∧
      u.o Od.beatWordErrors = (s.o Od.beatWordErrors + 1) % 2 ^ 64) ∧
  (∀ s : State, s.o Od.beatState = 2 → Runs .beatMarkerMissing s fun u => u.o Od.beatState = 3 ∧
    u.o Od.beatLosses = (s.o Od.beatLosses + 1) % 2 ^ 32 ∧ u.o Od.holdoverBeats = 0) ∧
  (∀ s : State, s.o Od.beatState = 3 → s.o Od.holdoverExpired = 0 → s.o Od.holdoverLimit ≤ s.o Od.holdoverBeats →
    Runs .holdoverLimit s fun u => u.o Od.holdoverExpired = 1 ∧
      ∀ n : Nat, (u.stake n).used = true → 1 < (u.stake n).segs → (u.stake n).stopped = true)

/-! ## 17_chain_beat_dictionary.md, 18_dictionary_map.md: the dictionary's messages and the session lock -/

namespace Sys2Proof.Machine

/-- Message m of a path is a row's own: well formed, not behind 16 others, not answered before. -/
abbrev ReadyDMsg (s : State) (row p : Nat) (hdr : BitVec 128) (payload : List Byte) (full : Nat) (m : DMsg) : Prop :=
  s.findMsg p hdr payload = some m ∧ m.row = row ∧ m.bad = false ∧ (m.p = 0 → full < 16) ∧
    ((s.addO Od.dictRequests 1).newSession m).keptFor m = none ∧ ((s.addO Od.dictRequests 1).newSession m).committing m = false

/-- The lock's holder sends it with the right. -/
abbrev ReadyHolder (s : State) (m : DMsg) : Prop := (s.opened m).hasRight m.p 4 = true ∧ (s.opened m).lockedBy m = true

/-- The state with an open transfer on a path. -/
def State.withSeg (s : State) (p : Nat) (g : Seg) : State := s.setPath p { s.path p with seg := some g }

/-- The set that a COMMIT message fixes. -/
abbrev fixedBy (s : State) (m : DMsg) : FixedSet :=
  { writes := s.dict.staged, handle := m.handle, path := m.p, session := m.session, tag := m.tag, word := m.word }

/-- A row takes a message, answers `a` and leaves u with the reply sent. -/
abbrev DictRuns (c : Instr) (s : State) (m : DMsg) (u : State) (a : Ans) : Prop :=
  exec c s = .next (u.answer m.p m.session m.tag m.word true a)

end Sys2Proof.Machine

/-- R536 to R541, R548, R665: an object is read, written or staged. -/
def Obligations.ObjectsAreReadAndWritten : Prop :=
  (∀ (s : State) (path : Fin 2) (hdr : BitVec 128) (payload : List Byte) (full : Nat) (m : DMsg) (r : ObjRow),
    ReadyDMsg s 1 path.val hdr payload full m → (s.opened m).lookup m = .inr r → r.ty ≠ .blob → r.acc ≠ .wo →
    (s.opened m).hasRight m.p 1 = true → m.key % 256 ≠ 0 →
    DictRuns (.dictRead path hdr payload full) s m ((s.opened m).readObj m.p m.key).1
      { data := encodeVal r ((s.opened m).readObj m.p m.key).2 }) ∧
  (∀ (s : State) (path : Fin 2) (hdr : BitVec 128) (payload : List Byte) (full : Nat) (m : DMsg) (st : Nat),
    ReadyDMsg s 1 path.val hdr payload full m → (s.opened m).lookup m = .inl st →
    DictRuns (.dictRead path hdr payload full) s m (s.opened m) { status := st }) ∧
  (∀ (s : State) (path : Fin 2) (hdr : BitVec 128) (payload : List Byte) (full : Nat) (m : DMsg) (r : ObjRow) (u : State) (a : Ans),
    ReadyDMsg s 2 path.val hdr payload full m → (s.opened m).lookup m = .inr r → r.ty ≠ .blob →
    (s.opened m).writeGate m m.key r = none → (s.opened m).writeVal m m.key r m.data = (u, a) → a.status ≤ 1 →
    DictRuns (.dictWrite path hdr payload full) s m u a) ∧
  (∀ (s : State) (path : Fin 2) (hdr : BitVec 128) (payload : List Byte) (full : Nat) (m : DMsg) (r : ObjRow),
    ReadyDMsg s 2 path.val hdr payload full m → (s.opened m).lookup m = .inr r → r.ty ≠ .blob → r.acc = .ro →
    DictRuns (.dictWrite path hdr payload full) s m (s.opened m) { status := 4 }) ∧
  (∀ (s : State) (m : DMsg) (k : Nat) (r : ObjRow) (bs : List Byte), r.ty ≠ .blob → bs.length ≠ r.ty.bytes →
    s.writeVal m k r bs = (s, { status := 7 })) ∧
  (∀ (s : State) (m : DMsg) (k : Nat) (r : ObjRow), (r.acc = .rwl ∨ r.acc = .rwp) → m.bcast = false → (m.p = 0 ∨ k ≠ Od.mailboxRights) →
    s.hasRight m.p (writeRights k r) = true → k ≠ Od.taLevel → s.lockedBy m = false → s.writeGate m k r = some 5)

/-- R540, R563, R382: segmented transfers begin, carry segments, end and are discarded. -/
def Obligations.SegmentsTransferObjects : Prop :=
  (∀ (s : State) (path : Fin 2) (hdr : BitVec 128) (payload : List Byte) (full : Nat) (m : DMsg) (r : ObjRow),
    ReadyDMsg s 3 path.val hdr payload full m → ((s.opened m).dropSeg m.p).lookup m = .inr r → r.ty = .blob → r.acc ≠ .wo →
    ((s.opened m).dropSeg m.p).hasRight m.p 1 = true →
    let t := (s.opened m).dropSeg m.p
    let bs := t.readBlob m.p m.key
    DictRuns (.segReadInit path hdr payload full) s m
      (t.withSeg m.p { key := m.key, total := bs.length, data := bs })
      { data := beBytes 8 bs.length }) ∧
  (∀ (s : State) (path : Fin 2) (hdr : BitVec 128) (payload : List Byte) (full : Nat) (m : DMsg) (g : Seg),
    ReadyDMsg s 4 path.val hdr payload full m → ((s.opened m).path m.p).seg = some g → g.isWrite = false →
    m.param < cdiv g.total segBytes →
    DictRuns (.segRead path hdr payload full) s m
      ((s.opened m).withSeg m.p { g with idle := 0 })
      { data := (g.data.drop (segBytes * m.param)).take segBytes }) ∧
  (∀ (s : State) (path : Fin 2) (hdr : BitVec 128) (payload : List Byte) (full : Nat) (m : DMsg) (r : ObjRow),
    ReadyDMsg s 5 path.val hdr payload full m → ((s.opened m).dropSeg m.p).lookup m = .inr r →
    ((s.opened m).dropSeg m.p).writeGate m m.key r = none → m.data.length = 8 → m.key ≠ Od.storeData → m.key ≠ Od.updateImage →
    beNat m.data ≠ 0 →
    let t := (s.opened m).dropSeg m.p
    DictRuns (.segWriteInit path hdr payload full) s m
      (t.withSeg m.p { isWrite := true, key := m.key, sel := t.sel m.p (selKey m.key), total := beNat m.data }) {}) ∧
  (∀ (s : State) (path : Fin 2) (hdr : BitVec 128) (payload : List Byte) (full : Nat) (m : DMsg) (g : Seg),
    ReadyDMsg s 6 path.val hdr payload full m → ((s.opened m).path m.p).seg = some g → g.isWrite = true → m.param = g.next →
    m.data.length = segBytes → g.next + 1 < cdiv g.total segBytes → g.key ≠ Od.updateImage →
    DictRuns (.segWrite path hdr payload full) s m
      ((s.opened m).withSeg m.p { g with data := g.data ++ m.data, next := g.next + 1, idle := 0 }) {}) ∧
  (∀ (s : State) (path : Fin 2) (hdr : BitVec 128) (payload : List Byte) (full : Nat) (m : DMsg) (g : Seg),
    ReadyDMsg s 6 path.val hdr payload full m → ((s.opened m).path m.p).seg = some g → g.isWrite = true →
    m.param < cdiv g.total segBytes → m.param ≠ g.next →
    DictRuns (.segWrite path hdr payload full) s m (s.opened m) { status := 10, param := some g.next }) ∧
  (∀ (s : State) (path : Fin 2) (hdr : BitVec 128) (payload : List Byte) (full : Nat) (m : DMsg),
    ReadyDMsg s 7 path.val hdr payload full m → ((s.opened m).path m.p).cut ≠ some m.key →
    DictRuns (.segAbort path hdr payload full) s m ((s.opened m).dropSeg m.p) {}) ∧
  (∀ (s : State) (path : Fin 2) (hdr : BitVec 128) (payload : List Byte) (full : Nat) (m : DMsg),
    ReadyDMsg s 4 path.val hdr payload full m → ((s.opened m).path m.p).seg = none → ((s.opened m).path m.p).cut = some m.key →
    DictRuns (.segRead path hdr payload full) s m ((s.opened m).dropSeg m.p) { status := 13 }) ∧
  (∀ (s : State) (path : Fin 2) (g : Seg), (s.path path.val).seg = some g → s.o Od.segTimeoutBeats ≤ g.idle →
    exec (.segTimeout path) s = .next (s.dropSeg path.val))

/-- R541 to R544: the session lock is taken, renewed, released and broken; its staged set is committed or discarded. -/
def Obligations.LockSubOperations : Prop :=
  (∀ (s : State) (path : Fin 2) (hdr : BitVec 128) (payload : List Byte) (full : Nat) (m : DMsg),
    ReadyDMsg s 81 path.val hdr payload full m → (s.opened m).hasRight m.p 4 = true → (s.opened m).o Od.lockState = 0 →
    ∃ t : State, DictRuns (.lockAcquire path hdr payload full) s m t
      { data := lockData (t.o Od.lockHandle) t.dict.lease ((s.opened m).o Od.prevBroken) } ∧
      t.o Od.lockState = m.p + 1 ∧ t.dict.lockSession = m.session ∧ t.o Od.lockHandle ≠ 0 ∧ t.o Od.prevBroken = 0 ∧
      t.o Od.lockRemaining = (s.opened m).o Od.lockLeaseBeats) ∧
  (∀ (s : State) (path : Fin 2) (hdr : BitVec 128) (payload : List Byte) (full : Nat) (m : DMsg),
    ReadyDMsg s 81 path.val hdr payload full m → (s.opened m).hasRight m.p 4 = true → (s.opened m).o Od.lockState ≠ 0 →
    ((s.opened m).holdsLock m.p && (s.opened m).dict.lockSession == m.session) = false →
    DictRuns (.lockAcquire path hdr payload full) s m (s.opened m) { status := 9 }) ∧
  (∀ (s : State) (path : Fin 2) (hdr : BitVec 128) (payload : List Byte) (full : Nat) (m : DMsg),
    ReadyDMsg s 82 path.val hdr payload full m → ReadyHolder s m →
    DictRuns (.lockRenew path hdr payload full) s m ((s.opened m).setO Od.lockRemaining (s.opened m).dict.lease)
      ((s.opened m).setO Od.lockRemaining (s.opened m).dict.lease).lockAns) ∧
  (∀ (s : State) (path : Fin 2) (hdr : BitVec 128) (payload : List Byte) (full : Nat) (m : DMsg),
    ReadyDMsg s 83 path.val hdr payload full m → ReadyHolder s m →
    Runs (.lockCommit path hdr payload full) s fun u => u.dict.staged = [] ∧ u.o Od.lockStaged = 0 ∧
      u.dict.fixed = (s.opened m).dict.fixed ++ [fixedBy (s.opened m) m]) ∧
  (∀ (s : State) (path : Fin 2) (hdr : BitVec 128) (payload : List Byte) (full : Nat) (m : DMsg),
    ReadyDMsg s 84 path.val hdr payload full m → ReadyHolder s m →
    DictRuns (.lockAbort path hdr payload full) s m ((s.opened m).setStaged []) ((s.opened m).setStaged []).lockAns) ∧
  (∀ (s : State) (path : Fin 2) (hdr : BitVec 128) (payload : List Byte) (full : Nat) (m : DMsg),
    ReadyDMsg s 85 path.val hdr payload full m → ReadyHolder s m →
    ∃ a : Ans, a.status = 0 ∧ DictRuns (.lockRelease path hdr payload full) s m (s.opened m).freeLock a ∧
      (s.opened m).freeLock.o Od.lockState = 0 ∧ (s.opened m).freeLock.dict.staged = []) ∧
  (∀ (s : State) (path : Fin 2) (hdr : BitVec 128) (payload : List Byte) (full : Nat) (m : DMsg),
    ReadyDMsg s 86 path.val hdr payload full m → m.p = 0 →
    DictRuns (.lockBreak path hdr payload full) s m ((s.opened m).breakLock 6) ((s.opened m).breakLock 6).lockAns) ∧
  (∀ s : State, s.o Od.lockState ≠ 0 → s.o Od.lockRemaining = 0 →
    Runs .lockLeaseExpiry s fun u => u.o Od.lockState = 0 ∧ u.o Od.lockHandle = 0 ∧ u.dict.staged = [] ∧ u.o Od.prevBroken = 1 ∧
      u.dict.fixed = s.dict.fixed)

/-- R542: a fixed set applies whole, or not at all. -/
def Obligations.CommitIsAllOrNothing : Prop :=
  (∀ (s : State) (x : FixedSet) (r : List FixedSet) (t : State), s.dict.fixed = x :: r →
    trySet x.writes { s with dict := { s.dict with fixed := r } } = .inr t → exec .commitApply s = .next (t.committed x)) ∧
  (∀ (s : State) (x : FixedSet) (r : List FixedSet) (i : Nat), s.dict.fixed = x :: r →
    trySet x.writes { s with dict := { s.dict with fixed := r } } = .inl i →
    exec .commitApply s = .next (({ s with dict := { s.dict with fixed := r } } : State).commitRefused x i) ∧
      ∀ k : Nat, k ≠ Od.lockStaged → k ≠ Od.lastCommit → k ≠ Od.dictErrors →
        (({ s with dict := { s.dict with fixed := r } } : State).commitRefused x i).o k = s.o k)

/-! ## The queue, reset, invariants, frames, encodings -/

namespace Sys2Proof.Machine

/-- What the module works on is the same in both states: arrays, residents, memory tiers, slots, models, stakes, steps, sequences,
requests, buffers, index, tables, vocabularies and grammars. -/
structure SameWork (s t : State) : Prop where
  arrs : t.arrs = s.arrs
  residents : t.residents = s.residents
  mem : t.mem = s.mem
  slots : t.slots = s.slots
  models : t.models = s.models
  stakes : t.stakes = s.stakes
  steps : t.steps = s.steps
  seqs : t.seqs = s.seqs
  reqs : t.reqs = s.reqs
  bufs : t.bufs = s.bufs
  index : t.index = s.index
  tables : t.tables = s.tables
  vocabs : t.vocabs = s.vocabs
  grammars : t.grammars = s.grammars

/-- A command leaves the module's work as it was. -/
abbrev LeavesWork (c : Instr) : Prop := ∀ s t : State, exec c s = .next t → SameWork s t

/-- A compute instruction, issued from array a, changes no other array, no byte of memory, no stake, step or request. -/
structure OnlyArray (s t : State) (a : Nat) : Prop where
  others : ∀ b : Nat, b ≠ a → t.arr b = s.arr b
  mem : t.mem = s.mem
  stakes : t.stakes = s.stakes
  steps : t.steps = s.steps
  reqs : t.reqs = s.reqs
  residents : t.residents = s.residents

/-- A migration of slice sl that copies piece m.piece of page m.page into granule m.gran. -/
abbrev ReadyCopy (s : State) (sl : Nat) (m : Migr) (rest : List Migr) : Prop :=
  tGet [] s.mem.queues sl = m :: rest ∧ (s.gran m.gran).state = gMIGRATING ∧ pieceMoves (s.page m.page) m.piece = true ∧
    s.o (Od.nearUsed (s.gran m.gran).owner) ≤ s.o (Od.nearQuota (s.gran m.gran).owner) ∧ s.mem.wf = true ∧
    m.gran < 16384 ∧ m.page < 196608 ∧ m.piece < 32

end Sys2Proof.Machine

/-- The block's own rule: a step carries out the command at the front of the queue with the queue's rest; an empty queue idles (log
entry 6); no row of the table gives bits, so no word spells a command. -/
def Obligations.StepTakesTheFrontCommand : Prop :=
  (∀ (s : State) (c : Instr) (rest : List Instr), s.pending = c :: rest → step s = exec c { s with pending := rest }) ∧
  (∀ s : State, s.pending = [] → step s = .next s) ∧
  (∀ nbits w : Nat, decodeTableWord nbits w = none) ∧ (∀ (s : State) (nbits w : Nat), s.withFetchWord nbits w = s)

/-- Whatever command stands at the front, in whatever state, the step answers a next state, whose queue is the rest: no command
stops the module and none enters or leaves the queue. -/
def Obligations.EveryStepTakesExactlyOneCommand : Prop :=
  ∀ (s : State) (c : Instr) (rest : List Instr), s.pending = c :: rest → ∃ t : State, step s = .next t ∧ t.pending = rest

/-- The module right after reset: every object at its Default (R15), the named ones among them; memory lists nothing; the queue is
empty; the invariants hold. -/
def Obligations.ResetLeavesDefaults : Prop :=
  (∀ k : Nat, State.reset.o k = odDefault k) ∧
  State.reset.o Od.indexState = 0 ∧ State.reset.o Od.codeWidth = 1024 ∧ State.reset.o Od.lists = 262144 ∧
  State.reset.o Od.modelStoreBlocks = 160 ∧ State.reset.o Od.indexBlocks = 1560 ∧ State.reset.o Od.spareBlocks = 480 ∧
  State.reset.o Od.textBlocks = 3261 ∧ State.reset.o Od.entriesPerPage = 97 ∧ State.reset.o Od.ratedEntries = 20122978636 ∧
  State.reset.o Od.sideFlushBeats = 400 ∧ State.reset.o Od.sideStripeCloseBeats = 2000 ∧ State.reset.o Od.appendFillLimit = 900 ∧
  State.reset.o Od.sideRunsMax = 4096 ∧ State.reset.o Od.checkpointBeats = 100000 ∧ State.reset.o Od.dieFailBlocks = 64 ∧
  State.reset.o Od.channelsInService = 0xFFFFFFFF ∧ State.reset.o Od.beatState = 0 ∧ State.reset.o Od.chainAddress = 0 ∧
  State.reset.o Od.lockState = 0 ∧ (∀ p < 98, State.reset.pdState p = pdOFF) ∧
  State.reset.pending = [] ∧ State.reset.objWf = true ∧ State.reset.mem.wf = true ∧
  (∀ a : Nat, tGet 0 State.reset.mem.stack a = 0 ∧ tGet 0 State.reset.mem.near a = 0)

/-- R15 to R17: an object holds what was written to it last, within its width; a write of one object changes no other, and nothing but
objects. -/
def Obligations.ObjectsHoldWhatIsWritten : Prop :=
  (∀ (s : State) (k v : Nat), (s.setO k v).o k = v % 2 ^ odWidth k ∧ (∀ j : Nat, j ≠ k → (s.setO k v).o j = s.o j) ∧
    SameWork s (s.setO k v)) ∧
  (∀ (s : State) (k v w : Nat), s.objWf = true → ((s.setO k v).setO k w) = s.setO k w) ∧
  (∀ (s : State) (j k v w : Nat), s.objWf = true → j ≠ k → ((s.setO j v).setO k w) = ((s.setO k w).setO j v))

/-- The object table keeps its canonical form over every step, whatever the command. -/
def Obligations.ObjectTableStaysCanonical : Prop :=
  ∀ s t : State, s.objWf = true → step s = .next t → t.objWf = true

/-- The bytes of the near store and of the stack store keep their canonical form over every step, whatever the command. -/
def Obligations.MemoryTiersStayCanonical : Prop :=
  ∀ s t : State, s.mem.wf = true → step s = .next t → t.mem.wf = true

/-- R152: a post to a full mailbox is dropped, OVERFLOW is set and the drop counted; the poster goes on. -/
def Obligations.PostToFullMailboxIsDropped : Prop :=
  ∀ (s : State) (c n tag payload : Nat), 32 ≤ (s.mbox c n).entries.length →
    ((s.post c n tag payload).mbox c n).entries = (s.mbox c n).entries ∧ ((s.post c n tag payload).mbox c n).overrun = true ∧
    (s.post c n tag payload).o Od.mailboxOverflowCount = (s.o Od.mailboxOverflowCount + 1) % 2 ^ 32 ∧
    SameWork s (s.post c n tag payload) ∧ (s.post c n tag payload).cores = s.cores ∧
    ∀ d m : Nat, d * 8 + m ≠ c * 8 + n → (s.post c n tag payload).mbox d m = s.mbox d m

/-- R50: bit i of a code, its length, and the distance of two codes, which counts the dimensions in which they differ. -/
def Obligations.CodesAndTheirDistance : Prop :=
  (∀ (ys : List FP32) (prop : Bool) (srs : List (Option Nat)), 8 ∣ ys.length →
    (convRow 10 prop srs ys).1.length = ys.length / 8 ∧
    ∀ i : Nat, i < ys.length → ((convRow 10 prop srs ys).1.getD (i / 8) 0).getLsbD (i % 8) = positive32 (ys.getD i 0)) ∧
  (∀ (bs : List Byte) (i : Nat), i < 8 * bs.length → bitAt (leNat bs) i = (bs.getD (i / 8) 0).getLsbD (i % 8)) ∧
  (∀ w a b : Nat, hamming w a b = ((List.range w).filter fun i => bitAt (Nat.xor a b) i).length ∧
    hamming w a b = ((List.range w).filter fun i => bitAt a i != bitAt b i).length ∧ hamming w a b ≤ w)

/-- R41, R45, R46: what the elements and the scale byte of an MX block read as, and what MXINT8 conversion produces. -/
def Obligations.MxElementsAndScales : Prop :=
  (∀ fmt c e : Nat, 1 ≤ fmt → fmt ≤ 6 → e ≤ 254 → decScaled fmt c e = (decElem fmt c).scale ((e : Int) - 127)) ∧
  (∀ (neg : Bool) (m : Nat) (x k : Int), Val.scale (.fin neg m x) k = .fin neg m (x + k)) ∧
  (∀ fmt c : Nat, 1 ≤ fmt → fmt ≤ 6 → decScaled fmt c 255 = .nan) ∧
  (∀ fmt c : Nat, 1 ≤ fmt → fmt ≤ 6 → c < 2 ^ fmtBits fmt →
    (decElem fmt c = .nan → fmt = 1 ∨ fmt = 2) ∧ (∀ neg : Bool, decElem fmt c = .inf neg → fmt = 2)) ∧
  decElem 1 0x7F = .nan ∧ decElem 2 0x7E = .nan ∧ decElem 2 0x7C = .inf false ∧ decElem 2 0xFC = .inf true ∧
  (∀ fmt c e : Nat, 3 ≤ fmt → fmt ≤ 6 → c < 2 ^ fmtBits fmt → e ≤ 255 → (decScaled fmt c e = .nan ↔ e = 255)) ∧
  decElem 6 0x80 = .fin true 128 (-6) ∧
  (∀ (prop : Bool) (sr : Option Nat) (v : Val) (c : Nat), convInt8 prop sr v = .code c → c < 256 ∧ c ≠ 0x80 ∧ (c ≤ 127 ∨ 129 ≤ c)) ∧
  (∀ (sr : Option Nat) (v : Val), v ≠ .nan → ∃ c : Nat, convInt8 false sr v = .code c) ∧
  (∀ (m : Nat) (e : Int), 128 ≤ rneShift m (e + 6) →
    convInt8 false none (.fin false m e) = .code 127 ∧ convInt8 false none (.fin true m e) = .code 129) ∧
  (∀ (sr : Option Nat), convInt8 false sr (.inf false) = .code 127 ∧ convInt8 false sr (.inf true) = .code 129)

/-- R17: an object with more than one subindex answers a read of subindex 00 with its highest subindex in use, a U8 that is RO. -/
def Obligations.SubindexZeroIsTheHighest : Prop :=
  ∀ (s : State) (m : DMsg) (f : ObjFam), objFam? (m.key / 256) = some f → m.key % 256 = 0 →
    (s.o Od.bootStep = 11 ∨ standbyIndex (m.key / 256) = true) →
    ∃ r : ObjRow, s.lookup m = .inr r ∧ r.ty = .u8 ∧ r.acc = .ro ∧
      (s.hasRight m.p 1 = true → s.doRead m = (s, some { data := [BitVec.ofNat 8 f.sub0] })) ∧ f.sub0 < 256 ∧
      (f.row? f.sub0).isSome = true ∧ ∀ n : Nat, f.sub0 < n → f.row? n = none

/-- R53 to R55, R60: rounding an FP32 value to FP32 gives it back; an exact sum of zero is +0 whatever the signs. -/
def Obligations.FloatRoundingIsExactOnFloats : Prop :=
  (∀ x : FP32, isNan32 x = false → rne32 (val32 x) = x) ∧
  (∀ x : FP32, isNan32 x = true → rne32 (val32 x) = f32nan) ∧
  (∀ a b : FP32, ((val32 a).add (val32 b)).isZero = true → add32 a b = f32zero)

/-- R520, R526: what the module puts into a chain frame's header and into a beat word is what a module reads from it. -/
def Obligations.HeadersAndBeatWordsReadBack : Prop :=
  (∀ (ft dst src session handle tag len : Nat) (up : Bool), ft < 2 ^ 4 → dst < 2 ^ 7 → src < 2 ^ 7 → session < 2 ^ 16 →
    handle < 2 ^ 16 → tag < 2 ^ 16 → len < 2 ^ 11 →
    let h := frameHead ft dst src up session handle tag len
    h < 2 ^ 128 ∧ fVersion h = 1 ∧ fType h = ft ∧ fDst h = dst ∧ fSrc h = src ∧ bitAt h 105 = up ∧ fSession h = session ∧
      fHandle h = handle ∧ fTag h = tag ∧ fLen h = len ∧ bits h 45 0 = 0) ∧
  (∀ (ft dst src session handle tag : Nat) (up : Bool) (payload : List Byte), 1 ≤ ft → ft ≤ 8 → payload.length ≤ 1032 →
    frameOk (frameHead ft dst src up session handle tag payload.length) payload = true) ∧
  (∀ (count period : Nat) (holdover : Bool), count < 2 ^ 48 → period < 2 ^ 7 →
    let w := beatWord count period holdover
    w < 2 ^ 64 ∧ bwCount w = count ∧ bwPeriod w = period ∧ bwHoldover w = holdover ∧
      wordOk w = decide (2 ≤ period ∧ period ≤ 100))

/-- R591: a domain that leaves ON or RETAINED for another state takes the next epoch, wrapping; any other change keeps it; no other
domain's epoch or state changes. -/
def Obligations.DomainEpochsAdvance : Prop :=
  ∀ (s : State) (p st : Nat), p < 98 → st < 8 →
    (s.setPdState p st).pdState p = st ∧
    (s.setPdState p st).o (Od.pdEpoch p) =
      (if (s.pdState p = pdON ∨ s.pdState p = pdRETAINED) ∧ st ≠ s.pdState p then (s.o (Od.pdEpoch p) + 1) % 2 ^ 16
        else s.o (Od.pdEpoch p)) ∧
    (∀ q < 98, q ≠ p → (s.setPdState p st).pdState q = s.pdState q ∧ (s.setPdState p st).o (Od.pdEpoch q) = s.o (Od.pdEpoch q)) ∧
    SameWork s (s.setPdState p st)

/-- R189, R190: a migration that completes copies the bytes of its piece, stores to no other byte of the near store, and leaves the
stack store as it was. -/
def Obligations.MigrationCopiesItsPiece : Prop :=
  ∀ (s : State) (sl : Fin 32) (m : Migr) (rest : List Migr), ReadyCopy s sl.val m rest →
    Runs (.migrationComplete sl) s fun u =>
      (∀ o < 2 ^ 16, tGet 0 u.mem.near (m.gran * 2 ^ 16 + o) = s.stackB m.page (m.piece * 2 ^ 16 + o)) ∧
      (∀ a : Nat, a / 2 ^ 16 ≠ m.gran → tGet 0 u.mem.near a = tGet 0 s.mem.near a) ∧
      u.mem.stack = s.mem.stack ∧ u.arrs = s.arrs ∧ u.reqs = s.reqs ∧ u.steps = s.steps

/-- Frame of the chain's and the beat's commands (R518 to R529), the session lock's and the segments' (R540 to R544), and
of the commands of pins, TAP and links that count or signal (R504, R508, R597, R641 to R648): they leave the module's work as it was. -/
def Obligations.CommandsThatLeaveWork : Prop :=
  (∀ (up fcs : Bool) (hdr : BitVec 128) (payload : List Byte), LeavesWork (.frameRepeat up hdr payload fcs)) ∧
  (∀ (hop : Fin 256) (acc : Fin 4294967296), LeavesWork (.enumerate hop acc)) ∧
  (∀ src : Fin 128, LeavesWork (.probe src)) ∧ (∀ (d : Fin 4294967296) (src : Fin 128), LeavesWork (.echo d src)) ∧
  (∀ src : Fin 128, LeavesWork (.pathDown src)) ∧ LeavesWork .upstreamLinkUp ∧
  (∀ a b : Bool, LeavesWork (.upstreamLinkDown a b)) ∧ LeavesWork .addressHoldExpiry ∧ LeavesWork .downstreamLinkUp ∧
  (∀ a b : Bool, LeavesWork (.downstreamLinkDown a b)) ∧
  (∀ (word : BitVec 64) (off : Int) (gap : Nat), LeavesWork (.beatWord word off gap)) ∧ LeavesWork .beatMarkerMissing ∧
  (∀ (path : Fin 2) (hdr : BitVec 128) (payload : List Byte) (full : Nat),
    LeavesWork (.segRead path hdr payload full) ∧ LeavesWork (.segAbort path hdr payload full) ∧
    LeavesWork (.lockAcquire path hdr payload full) ∧ LeavesWork (.lockRenew path hdr payload full) ∧
    LeavesWork (.lockCommit path hdr payload full) ∧ LeavesWork (.lockAbort path hdr payload full) ∧
    LeavesWork (.lockRelease path hdr payload full) ∧ LeavesWork (.lockBreak path hdr payload full)) ∧
  (∀ path : Fin 2, LeavesWork (.segTimeout path)) ∧ LeavesWork .lockLeaseExpiry ∧
  LeavesWork .syncMarkFall ∧ (∀ n : Fin 12, LeavesWork (.pinHoldEnd n)) ∧ (∀ b : Bool, LeavesWork (.faultPulseEnd b)) ∧
  (∀ f : List Byte, LeavesWork (.uartTapRestart f)) ∧ LeavesWork .tapReset ∧ LeavesWork .bypass ∧ LeavesWork .idcode ∧
  (∀ a b : BitVec 17, LeavesWork (.samplePreload a b)) ∧ LeavesWork .extest ∧ LeavesWork .clamp ∧ LeavesWork .highz ∧
  (∀ inst ns : Nat, LeavesWork (.spineFlitResend inst ns) ∧ LeavesWork (.d2dFlitRetry inst ns)) ∧
  (∀ l : Fin 8, LeavesWork (.peerFlitCrcFail l)) ∧ (∀ (l : Fin 8) (b g : Fin 9), LeavesWork (.peerLaneFault l b g)) ∧
  (∀ (l lane : Fin 8) (ns : Nat), LeavesWork (.peerRetrainDone l lane ns)) ∧
  (∀ (f : Fin 256) (off : Fin 16384) (bytes : List Byte), LeavesWork (.submissionEntryWrite f off bytes)) ∧
  (∀ f rate lanes : Fin 256, LeavesWork (.functionReady f rate lanes)) ∧ (∀ bytes : List Byte, LeavesWork (.mbGo bytes))

/-- Frame of compute instructions (R127, R129, R132, R134 to R136): ESTATE, SMRES, TKSUB, WAIT, SIGNAL and a FENCE without a post change
their own array alone. -/
def Obligations.IssuedInstructionsStayInTheirArray : Prop :=
  ∀ (s t : State) (a : Fin 32),
    (exec (.estate a) s = .next t → OnlyArray s t a.val) ∧ (exec (.smres a) s = .next t → OnlyArray s t a.val) ∧
    (exec (.tksub a) s = .next t → OnlyArray s t a.val) ∧ (exec (.wait a) s = .next t → OnlyArray s t a.val) ∧
    (exec (.signal a) s = .next t → OnlyArray s t a.val) ∧
    ((∀ q : QWord, s.headOf a.val 0x42 = some q → bitAt q.word 111 = false) → exec (.fence a) s = .next t → OnlyArray s t a.val)
end

