-- ==== Sys2Proof/Laws/Tables.lean ====
section
/-!
SUPPORT. What the operations on sparse tables do: reading after writing, and that each keeps the canonical form.
-/
set_option Elab.async false
namespace Sys2Proof.Machine

section
variable {α : Type}

@[simp] theorem tGet_nil (d : α) (k : Nat) : tGet d ([] : Tbl α) k = d := rfl

theorem tGet_cons (d : α) (e : Nat × α) (t : Tbl α) (k : Nat) :
    tGet d (e :: t) k = if e.1 = k then e.2 else tGet d t k := rfl

/-! ## Reading -/

@[simp] theorem tGet_tIns_same (d : α) (t : Tbl α) (k : Nat) (v : α) : tGet d (tIns k v t) k = v := by
  induction t with
  | nil => simp [tIns, tGet]
  | cons e t ih =>
    obtain ⟨j, w⟩ := e
    simp only [tIns]
    split
    · simp [tGet]
    · split
      · simp [tGet]
      · rename_i h
        simp only [tGet, if_neg (Ne.symm h)]
        exact ih

theorem tGet_tIns_ne (d : α) (t : Tbl α) {k k' : Nat} (v : α) (h : k' ≠ k) :
    tGet d (tIns k v t) k' = tGet d t k' := by
  induction t with
  | nil => simp [tIns, tGet, Ne.symm h]
  | cons e t ih =>
    obtain ⟨j, w⟩ := e
    simp only [tIns]
    split
    · simp [tGet, Ne.symm h]
    · split
      · rename_i hk
        subst hk
        simp [tGet, Ne.symm h]
      · simp only [tGet]
        rw [ih]

@[simp] theorem tGet_tDel_same (d : α) (t : Tbl α) (k : Nat) : tGet d (tDel k t) k = d := by
  induction t with
  | nil => rfl
  | cons e t ih =>
    obtain ⟨j, w⟩ := e
    simp only [tDel]
    split
    · exact ih
    · rename_i h
      simp only [tGet, if_neg h]
      exact ih

theorem tGet_tDel_ne (d : α) (t : Tbl α) {k k' : Nat} (h : k' ≠ k) : tGet d (tDel k t) k' = tGet d t k' := by
  induction t with
  | nil => rfl
  | cons e t ih =>
    obtain ⟨j, w⟩ := e
    simp only [tDel]
    split
    · rename_i hj
      subst hj
      simp only [tGet, if_neg (Ne.symm h)]
      exact ih
    · simp only [tGet]
      rw [ih]

@[simp] theorem tGet_tSet_same [DecidableEq α] (d : α) (t : Tbl α) (k : Nat) (v : α) :
    tGet d (tSet d t k v) k = v := by
  unfold tSet
  split
  · rename_i h
    rw [tGet_tDel_same, h]
  · exact tGet_tIns_same d t k v

theorem tGet_tSet_ne [DecidableEq α] (d d' : α) (t : Tbl α) {k k' : Nat} (v : α) (h : k' ≠ k) :
    tGet d' (tSet d t k v) k' = tGet d' t k' := by
  unfold tSet
  split
  · exact tGet_tDel_ne d' t h
  · exact tGet_tIns_ne d' t v h

theorem tGet_tSet [DecidableEq α] (d : α) (t : Tbl α) (k k' : Nat) (v : α) :
    tGet d (tSet d t k v) k' = if k' = k then v else tGet d t k' := by
  split
  · rename_i h
    rw [h, tGet_tSet_same]
  · rename_i h
    exact tGet_tSet_ne d d t v h

theorem tGet_tIns (d : α) (t : Tbl α) (k k' : Nat) (v : α) :
    tGet d (tIns k v t) k' = if k' = k then v else tGet d t k' := by
  split
  · rename_i h
    rw [h, tGet_tIns_same]
  · rename_i h
    exact tGet_tIns_ne d t v h

/-! ## The canonical form -/

theorem risingFrom_mono {t : Tbl α} {n m : Nat} (h : m ≤ n) : risingFrom n t = true → risingFrom m t = true := by
  cases t with
  | nil => simp [risingFrom]
  | cons e t =>
    obtain ⟨j, w⟩ := e
    simp only [risingFrom, Bool.and_eq_true, decide_eq_true_eq]
    exact fun ⟨a, b⟩ => ⟨Nat.le_trans h a, b⟩

theorem risingFrom_tDel {t : Tbl α} {k : Nat} : ∀ {n : Nat}, risingFrom n t = true → risingFrom n (tDel k t) = true := by
  induction t with
  | nil => exact fun h => h
  | cons e t ih =>
    obtain ⟨j, w⟩ := e
    intro n
    simp only [risingFrom, tDel, Bool.and_eq_true, decide_eq_true_eq]
    intro ⟨a, b⟩
    split
    · exact risingFrom_mono (by omega) (ih b)
    · simp only [risingFrom, Bool.and_eq_true, decide_eq_true_eq]
      exact ⟨a, ih b⟩

theorem risingFrom_tIns {t : Tbl α} {k : Nat} {v : α} :
    ∀ {n : Nat}, n ≤ k → risingFrom n t = true → risingFrom n (tIns k v t) = true := by
  induction t with
  | nil =>
    intro n hn _
    simp [tIns, risingFrom, hn]
  | cons e t ih =>
    obtain ⟨j, w⟩ := e
    intro n hn
    simp only [risingFrom, tIns, Bool.and_eq_true, decide_eq_true_eq]
    intro ⟨a, b⟩
    split
    · rename_i h
      simp only [risingFrom, Bool.and_eq_true, decide_eq_true_eq]
      exact ⟨hn, h, b⟩
    · split
      · rename_i h
        subst h
        simp only [risingFrom, Bool.and_eq_true, decide_eq_true_eq]
        exact ⟨hn, b⟩
      · simp only [risingFrom, Bool.and_eq_true, decide_eq_true_eq]
        exact ⟨a, ih (by omega) b⟩

theorem risingFrom_filter {t : Tbl α} {p : Nat × α → Bool} :
    ∀ {n : Nat}, risingFrom n t = true → risingFrom n (t.filter p) = true := by
  induction t with
  | nil => exact fun h => h
  | cons e t ih =>
    obtain ⟨j, w⟩ := e
    intro n
    simp only [risingFrom, Bool.and_eq_true, decide_eq_true_eq]
    intro ⟨a, b⟩
    simp only [List.filter]
    split
    · simp only [risingFrom, Bool.and_eq_true, decide_eq_true_eq]
      exact ⟨a, ih b⟩
    · exact risingFrom_mono (by omega) (ih b)

theorem mem_tDel {t : Tbl α} {k : Nat} {e : Nat × α} : e ∈ tDel k t → e ∈ t := by
  induction t with
  | nil => exact fun h => h
  | cons f t ih =>
    obtain ⟨j, w⟩ := f
    simp only [tDel]
    split
    · exact fun h => List.mem_cons_of_mem _ (ih h)
    · intro h
      rcases List.mem_cons.1 h with h | h
      · exact h ▸ List.mem_cons_self
      · exact List.mem_cons_of_mem _ (ih h)

theorem mem_tIns {t : Tbl α} {k : Nat} {v : α} {e : Nat × α} : e ∈ tIns k v t → e = (k, v) ∨ e ∈ t := by
  induction t with
  | nil => simp [tIns]
  | cons f t ih =>
    obtain ⟨j, w⟩ := f
    simp only [tIns]
    split
    · intro h
      rcases List.mem_cons.1 h with h | h
      · exact .inl h
      · exact .inr h
    · split
      · intro h
        rcases List.mem_cons.1 h with h | h
        · exact .inl h
        · exact .inr (List.mem_cons_of_mem _ h)
      · intro h
        rcases List.mem_cons.1 h with h | h
        · exact .inr (h ▸ List.mem_cons_self)
        · rcases ih h with h | h
          · exact .inl h
          · exact .inr (List.mem_cons_of_mem _ h)

/-- What the canonical form says, entry by entry. -/
theorem tWf_iff [DecidableEq α] (d : Nat → α) (t : Tbl α) :
    tWf d t = true ↔ risingFrom 0 t = true ∧ ∀ e ∈ t, e.2 ≠ d e.1 := by
  simp [tWf, List.all_eq_true]

theorem tWf_nil [DecidableEq α] (d : Nat → α) : tWf d ([] : Tbl α) = true := rfl

theorem tWf_tDel [DecidableEq α] {d : Nat → α} {t : Tbl α} (k : Nat) (h : tWf d t = true) : tWf d (tDel k t) = true := by
  rw [tWf_iff] at *
  exact ⟨risingFrom_tDel h.1, fun e he => h.2 e (mem_tDel he)⟩

/-- Writing an entry keeps the canonical form. -/
theorem tWf_tSet [DecidableEq α] {d : Nat → α} {t : Tbl α} (k : Nat) (v : α) (h : tWf d t = true) :
    tWf d (tSet (d k) t k v) = true := by
  unfold tSet
  split
  · exact tWf_tDel k h
  · rename_i hv
    rw [tWf_iff] at *
    refine ⟨risingFrom_tIns (Nat.zero_le _) h.1, fun e he => ?_⟩
    rcases mem_tIns he with he | he
    · subst he
      exact hv
    · exact h.2 e he

/-- Writing an entry of a table whose unlisted keys all read as one value keeps the canonical form. -/
theorem tWf_tSet_const [DecidableEq α] {d : α} {t : Tbl α} (k : Nat) (v : α) (h : tWf (fun _ => d) t = true) :
    tWf (fun _ => d) (tSet d t k v) = true := tWf_tSet k v h

theorem tWf_filter [DecidableEq α] {d : Nat → α} {t : Tbl α} (p : Nat × α → Bool) (h : tWf d t = true) :
    tWf d (t.filter p) = true := by
  rw [tWf_iff] at *
  exact ⟨risingFrom_filter h.1, fun e he => h.2 e (List.mem_filter.1 he).1⟩

theorem tWf_tDrop [DecidableEq α] {d : Nat → α} {t : Tbl α} (p : Nat → Bool) (h : tWf d t = true) :
    tWf d (tDrop p t) = true := tWf_filter _ h

end

/-! ## Folds -/

/-- What every step of a fold keeps, the fold keeps. -/
theorem applyAll_keeps {σ β : Type} (P : σ → Prop) {f : σ → β → σ} (hf : ∀ s x, P s → P (f s x)) {s : σ} (xs : List β)
    (hs : P s) : P (applyAll f s xs) := by
  unfold applyAll
  induction xs generalizing s with
  | nil => exact hs
  | cons x xs ih => exact ih (hf s x hs)

/-- What no step of a fold changes, the fold does not change. -/
theorem applyAll_frame {σ β τ : Type} (g : σ → τ) {f : σ → β → σ} (hf : ∀ s x, g (f s x) = g s) (s : σ) (xs : List β) :
    g (applyAll f s xs) = g s :=
  applyAll_keeps (fun t => g t = g s) (fun t x h => (hf t x).trans h) xs rfl

/-! ## Numbers -/

@[simp] theorem b2n_true : b2n true = 1 := rfl
@[simp] theorem b2n_false : b2n false = 0 := rfl

end Sys2Proof.Machine
end

