-- ==== Sys2Proof/Laws/State.lean ====
section
/-!
SUPPORT. What each update of the state leaves alone, field by field, and what it writes: every fact holds by rfl, so that no
later proof unfolds a record update.
-/
set_option Elab.async false
namespace Sys2Proof.Machine

@[simp] theorem State.setO_frame (s : State) (k) (v) :
    (s.setO k v).blobs = s.blobs ∧ (s.setO k v).freeCtr = s.freeCtr ∧ (s.setO k v).arrs = s.arrs ∧ (s.setO k v).residents
    = s.residents ∧ (s.setO k v).incrs = s.incrs ∧ (s.setO k v).cores = s.cores ∧ (s.setO k v).keepers = s.keepers ∧
    (s.setO k v).mboxes = s.mboxes ∧ (s.setO k v).mem = s.mem ∧ (s.setO k v).slots = s.slots ∧ (s.setO k v).power =
    s.power ∧ (s.setO k v).recs = s.recs ∧ (s.setO k v).aged = s.aged ∧ (s.setO k v).parts = s.parts ∧ (s.setO k v).boot =
    s.boot ∧ (s.setO k v).pins = s.pins ∧ (s.setO k v).chain = s.chain ∧ (s.setO k v).dict = s.dict ∧ (s.setO k v).models
    = s.models ∧ (s.setO k v).stakes = s.stakes ∧ (s.setO k v).steps = s.steps ∧ (s.setO k v).nextStep = s.nextStep ∧
    (s.setO k v).store = s.store ∧ (s.setO k v).seqs = s.seqs ∧ (s.setO k v).prefixes = s.prefixes ∧ (s.setO k
    v).nextPrefix = s.nextPrefix ∧ (s.setO k v).rx = s.rx ∧ (s.setO k v).assemblies = s.assemblies ∧ (s.setO k
    v).preCancels = s.preCancels ∧ (s.setO k v).idWins = s.idWins ∧ (s.setO k v).bufs = s.bufs ∧ (s.setO k v).reqs =
    s.reqs ∧ (s.setO k v).nextReq = s.nextReq ∧ (s.setO k v).gate = s.gate ∧ (s.setO k v).arb = s.arb ∧ (s.setO k v).tx =
    s.tx ∧ (s.setO k v).pcie = s.pcie ∧ (s.setO k v).pool = s.pool ∧ (s.setO k v).tables = s.tables ∧ (s.setO k v).peers =
    s.peers ∧ (s.setO k v).vocabs = s.vocabs ∧ (s.setO k v).grammars = s.grammars ∧ (s.setO k v).trieQ = s.trieQ ∧ (s.setO
    k v).tries = s.tries ∧ (s.setO k v).masks = s.masks ∧ (s.setO k v).dice = s.dice ∧ (s.setO k v).index = s.index ∧
    (s.setO k v).pending = s.pending := by
  and_intros <;> first | rfl | exact fun _ => rfl

@[simp] theorem State.addO_frame (s : State) (k) (n) :
    (s.addO k n).blobs = s.blobs ∧ (s.addO k n).freeCtr = s.freeCtr ∧ (s.addO k n).arrs = s.arrs ∧ (s.addO k n).residents
    = s.residents ∧ (s.addO k n).incrs = s.incrs ∧ (s.addO k n).cores = s.cores ∧ (s.addO k n).keepers = s.keepers ∧
    (s.addO k n).mboxes = s.mboxes ∧ (s.addO k n).mem = s.mem ∧ (s.addO k n).slots = s.slots ∧ (s.addO k n).power =
    s.power ∧ (s.addO k n).recs = s.recs ∧ (s.addO k n).aged = s.aged ∧ (s.addO k n).parts = s.parts ∧ (s.addO k n).boot =
    s.boot ∧ (s.addO k n).pins = s.pins ∧ (s.addO k n).chain = s.chain ∧ (s.addO k n).dict = s.dict ∧ (s.addO k n).models
    = s.models ∧ (s.addO k n).stakes = s.stakes ∧ (s.addO k n).steps = s.steps ∧ (s.addO k n).nextStep = s.nextStep ∧
    (s.addO k n).store = s.store ∧ (s.addO k n).seqs = s.seqs ∧ (s.addO k n).prefixes = s.prefixes ∧ (s.addO k
    n).nextPrefix = s.nextPrefix ∧ (s.addO k n).rx = s.rx ∧ (s.addO k n).assemblies = s.assemblies ∧ (s.addO k
    n).preCancels = s.preCancels ∧ (s.addO k n).idWins = s.idWins ∧ (s.addO k n).bufs = s.bufs ∧ (s.addO k n).reqs =
    s.reqs ∧ (s.addO k n).nextReq = s.nextReq ∧ (s.addO k n).gate = s.gate ∧ (s.addO k n).arb = s.arb ∧ (s.addO k n).tx =
    s.tx ∧ (s.addO k n).pcie = s.pcie ∧ (s.addO k n).pool = s.pool ∧ (s.addO k n).tables = s.tables ∧ (s.addO k n).peers =
    s.peers ∧ (s.addO k n).vocabs = s.vocabs ∧ (s.addO k n).grammars = s.grammars ∧ (s.addO k n).trieQ = s.trieQ ∧ (s.addO
    k n).tries = s.tries ∧ (s.addO k n).masks = s.masks ∧ (s.addO k n).dice = s.dice ∧ (s.addO k n).index = s.index ∧
    (s.addO k n).pending = s.pending := by
  and_intros <;> first | rfl | exact fun _ => rfl

@[simp] theorem State.subO_frame (s : State) (k) (n) :
    (s.subO k n).blobs = s.blobs ∧ (s.subO k n).freeCtr = s.freeCtr ∧ (s.subO k n).arrs = s.arrs ∧ (s.subO k n).residents
    = s.residents ∧ (s.subO k n).incrs = s.incrs ∧ (s.subO k n).cores = s.cores ∧ (s.subO k n).keepers = s.keepers ∧
    (s.subO k n).mboxes = s.mboxes ∧ (s.subO k n).mem = s.mem ∧ (s.subO k n).slots = s.slots ∧ (s.subO k n).power =
    s.power ∧ (s.subO k n).recs = s.recs ∧ (s.subO k n).aged = s.aged ∧ (s.subO k n).parts = s.parts ∧ (s.subO k n).boot =
    s.boot ∧ (s.subO k n).pins = s.pins ∧ (s.subO k n).chain = s.chain ∧ (s.subO k n).dict = s.dict ∧ (s.subO k n).models
    = s.models ∧ (s.subO k n).stakes = s.stakes ∧ (s.subO k n).steps = s.steps ∧ (s.subO k n).nextStep = s.nextStep ∧
    (s.subO k n).store = s.store ∧ (s.subO k n).seqs = s.seqs ∧ (s.subO k n).prefixes = s.prefixes ∧ (s.subO k
    n).nextPrefix = s.nextPrefix ∧ (s.subO k n).rx = s.rx ∧ (s.subO k n).assemblies = s.assemblies ∧ (s.subO k
    n).preCancels = s.preCancels ∧ (s.subO k n).idWins = s.idWins ∧ (s.subO k n).bufs = s.bufs ∧ (s.subO k n).reqs =
    s.reqs ∧ (s.subO k n).nextReq = s.nextReq ∧ (s.subO k n).gate = s.gate ∧ (s.subO k n).arb = s.arb ∧ (s.subO k n).tx =
    s.tx ∧ (s.subO k n).pcie = s.pcie ∧ (s.subO k n).pool = s.pool ∧ (s.subO k n).tables = s.tables ∧ (s.subO k n).peers =
    s.peers ∧ (s.subO k n).vocabs = s.vocabs ∧ (s.subO k n).grammars = s.grammars ∧ (s.subO k n).trieQ = s.trieQ ∧ (s.subO
    k n).tries = s.tries ∧ (s.subO k n).masks = s.masks ∧ (s.subO k n).dice = s.dice ∧ (s.subO k n).index = s.index ∧
    (s.subO k n).pending = s.pending := by
  and_intros <;> first | rfl | exact fun _ => rfl

@[simp] theorem State.resetO_frame (s : State) (k) :
    (s.resetO k).blobs = s.blobs ∧ (s.resetO k).freeCtr = s.freeCtr ∧ (s.resetO k).arrs = s.arrs ∧ (s.resetO k).residents
    = s.residents ∧ (s.resetO k).incrs = s.incrs ∧ (s.resetO k).cores = s.cores ∧ (s.resetO k).keepers = s.keepers ∧
    (s.resetO k).mboxes = s.mboxes ∧ (s.resetO k).mem = s.mem ∧ (s.resetO k).slots = s.slots ∧ (s.resetO k).power =
    s.power ∧ (s.resetO k).recs = s.recs ∧ (s.resetO k).aged = s.aged ∧ (s.resetO k).parts = s.parts ∧ (s.resetO k).boot =
    s.boot ∧ (s.resetO k).pins = s.pins ∧ (s.resetO k).chain = s.chain ∧ (s.resetO k).dict = s.dict ∧ (s.resetO k).models
    = s.models ∧ (s.resetO k).stakes = s.stakes ∧ (s.resetO k).steps = s.steps ∧ (s.resetO k).nextStep = s.nextStep ∧
    (s.resetO k).store = s.store ∧ (s.resetO k).seqs = s.seqs ∧ (s.resetO k).prefixes = s.prefixes ∧ (s.resetO
    k).nextPrefix = s.nextPrefix ∧ (s.resetO k).rx = s.rx ∧ (s.resetO k).assemblies = s.assemblies ∧ (s.resetO
    k).preCancels = s.preCancels ∧ (s.resetO k).idWins = s.idWins ∧ (s.resetO k).bufs = s.bufs ∧ (s.resetO k).reqs =
    s.reqs ∧ (s.resetO k).nextReq = s.nextReq ∧ (s.resetO k).gate = s.gate ∧ (s.resetO k).arb = s.arb ∧ (s.resetO k).tx =
    s.tx ∧ (s.resetO k).pcie = s.pcie ∧ (s.resetO k).pool = s.pool ∧ (s.resetO k).tables = s.tables ∧ (s.resetO k).peers =
    s.peers ∧ (s.resetO k).vocabs = s.vocabs ∧ (s.resetO k).grammars = s.grammars ∧ (s.resetO k).trieQ = s.trieQ ∧
    (s.resetO k).tries = s.tries ∧ (s.resetO k).masks = s.masks ∧ (s.resetO k).dice = s.dice ∧ (s.resetO k).index =
    s.index ∧ (s.resetO k).pending = s.pending := by
  and_intros <;> first | rfl | exact fun _ => rfl

@[simp] theorem State.took_frame (s : State) :
    (s.took).od = s.od ∧ (s.took).blobs = s.blobs ∧ (s.took).arrs = s.arrs ∧ (s.took).residents = s.residents ∧
    (s.took).incrs = s.incrs ∧ (s.took).cores = s.cores ∧ (s.took).keepers = s.keepers ∧ (s.took).mboxes = s.mboxes ∧
    (s.took).mem = s.mem ∧ (s.took).slots = s.slots ∧ (s.took).power = s.power ∧ (s.took).recs = s.recs ∧ (s.took).aged =
    s.aged ∧ (s.took).parts = s.parts ∧ (s.took).boot = s.boot ∧ (s.took).pins = s.pins ∧ (s.took).chain = s.chain ∧
    (s.took).dict = s.dict ∧ (s.took).models = s.models ∧ (s.took).stakes = s.stakes ∧ (s.took).steps = s.steps ∧
    (s.took).nextStep = s.nextStep ∧ (s.took).store = s.store ∧ (s.took).seqs = s.seqs ∧ (s.took).prefixes = s.prefixes ∧
    (s.took).nextPrefix = s.nextPrefix ∧ (s.took).rx = s.rx ∧ (s.took).assemblies = s.assemblies ∧ (s.took).preCancels =
    s.preCancels ∧ (s.took).idWins = s.idWins ∧ (s.took).bufs = s.bufs ∧ (s.took).reqs = s.reqs ∧ (s.took).nextReq =
    s.nextReq ∧ (s.took).gate = s.gate ∧ (s.took).arb = s.arb ∧ (s.took).tx = s.tx ∧ (s.took).pcie = s.pcie ∧
    (s.took).pool = s.pool ∧ (s.took).tables = s.tables ∧ (s.took).peers = s.peers ∧ (s.took).vocabs = s.vocabs ∧
    (s.took).grammars = s.grammars ∧ (s.took).trieQ = s.trieQ ∧ (s.took).tries = s.tries ∧ (s.took).masks = s.masks ∧
    (s.took).dice = s.dice ∧ (s.took).index = s.index ∧ (s.took).pending = s.pending ∧ ∀ k', (s.took).o k' = s.o k' := by
  and_intros <;> first | rfl | exact fun _ => rfl

@[simp] theorem State.setMbox_frame (s : State) (c) (n) (m) :
    (s.setMbox c n m).od = s.od ∧ (s.setMbox c n m).blobs = s.blobs ∧ (s.setMbox c n m).freeCtr = s.freeCtr ∧ (s.setMbox c
    n m).arrs = s.arrs ∧ (s.setMbox c n m).residents = s.residents ∧ (s.setMbox c n m).incrs = s.incrs ∧ (s.setMbox c n
    m).cores = s.cores ∧ (s.setMbox c n m).keepers = s.keepers ∧ (s.setMbox c n m).mem = s.mem ∧ (s.setMbox c n m).slots =
    s.slots ∧ (s.setMbox c n m).power = s.power ∧ (s.setMbox c n m).recs = s.recs ∧ (s.setMbox c n m).aged = s.aged ∧
    (s.setMbox c n m).parts = s.parts ∧ (s.setMbox c n m).boot = s.boot ∧ (s.setMbox c n m).pins = s.pins ∧ (s.setMbox c n
    m).chain = s.chain ∧ (s.setMbox c n m).dict = s.dict ∧ (s.setMbox c n m).models = s.models ∧ (s.setMbox c n m).stakes
    = s.stakes ∧ (s.setMbox c n m).steps = s.steps ∧ (s.setMbox c n m).nextStep = s.nextStep ∧ (s.setMbox c n m).store =
    s.store ∧ (s.setMbox c n m).seqs = s.seqs ∧ (s.setMbox c n m).prefixes = s.prefixes ∧ (s.setMbox c n m).nextPrefix =
    s.nextPrefix ∧ (s.setMbox c n m).rx = s.rx ∧ (s.setMbox c n m).assemblies = s.assemblies ∧ (s.setMbox c n
    m).preCancels = s.preCancels ∧ (s.setMbox c n m).idWins = s.idWins ∧ (s.setMbox c n m).bufs = s.bufs ∧ (s.setMbox c n
    m).reqs = s.reqs ∧ (s.setMbox c n m).nextReq = s.nextReq ∧ (s.setMbox c n m).gate = s.gate ∧ (s.setMbox c n m).arb =
    s.arb ∧ (s.setMbox c n m).tx = s.tx ∧ (s.setMbox c n m).pcie = s.pcie ∧ (s.setMbox c n m).pool = s.pool ∧ (s.setMbox c
    n m).tables = s.tables ∧ (s.setMbox c n m).peers = s.peers ∧ (s.setMbox c n m).vocabs = s.vocabs ∧ (s.setMbox c n
    m).grammars = s.grammars ∧ (s.setMbox c n m).trieQ = s.trieQ ∧ (s.setMbox c n m).tries = s.tries ∧ (s.setMbox c n
    m).masks = s.masks ∧ (s.setMbox c n m).dice = s.dice ∧ (s.setMbox c n m).index = s.index ∧ (s.setMbox c n m).pending =
    s.pending ∧ ∀ k', (s.setMbox c n m).o k' = s.o k' := by
  and_intros <;> first | rfl | exact fun _ => rfl

@[simp] theorem State.setPd_frame (s : State) (p) (x) :
    (s.setPd p x).od = s.od ∧ (s.setPd p x).blobs = s.blobs ∧ (s.setPd p x).freeCtr = s.freeCtr ∧ (s.setPd p x).arrs =
    s.arrs ∧ (s.setPd p x).residents = s.residents ∧ (s.setPd p x).incrs = s.incrs ∧ (s.setPd p x).cores = s.cores ∧
    (s.setPd p x).keepers = s.keepers ∧ (s.setPd p x).mboxes = s.mboxes ∧ (s.setPd p x).mem = s.mem ∧ (s.setPd p x).slots
    = s.slots ∧ (s.setPd p x).recs = s.recs ∧ (s.setPd p x).aged = s.aged ∧ (s.setPd p x).parts = s.parts ∧ (s.setPd p
    x).boot = s.boot ∧ (s.setPd p x).pins = s.pins ∧ (s.setPd p x).chain = s.chain ∧ (s.setPd p x).dict = s.dict ∧
    (s.setPd p x).models = s.models ∧ (s.setPd p x).stakes = s.stakes ∧ (s.setPd p x).steps = s.steps ∧ (s.setPd p
    x).nextStep = s.nextStep ∧ (s.setPd p x).store = s.store ∧ (s.setPd p x).seqs = s.seqs ∧ (s.setPd p x).prefixes =
    s.prefixes ∧ (s.setPd p x).nextPrefix = s.nextPrefix ∧ (s.setPd p x).rx = s.rx ∧ (s.setPd p x).assemblies =
    s.assemblies ∧ (s.setPd p x).preCancels = s.preCancels ∧ (s.setPd p x).idWins = s.idWins ∧ (s.setPd p x).bufs = s.bufs
    ∧ (s.setPd p x).reqs = s.reqs ∧ (s.setPd p x).nextReq = s.nextReq ∧ (s.setPd p x).gate = s.gate ∧ (s.setPd p x).arb =
    s.arb ∧ (s.setPd p x).tx = s.tx ∧ (s.setPd p x).pcie = s.pcie ∧ (s.setPd p x).pool = s.pool ∧ (s.setPd p x).tables =
    s.tables ∧ (s.setPd p x).peers = s.peers ∧ (s.setPd p x).vocabs = s.vocabs ∧ (s.setPd p x).grammars = s.grammars ∧
    (s.setPd p x).trieQ = s.trieQ ∧ (s.setPd p x).tries = s.tries ∧ (s.setPd p x).masks = s.masks ∧ (s.setPd p x).dice =
    s.dice ∧ (s.setPd p x).index = s.index ∧ (s.setPd p x).pending = s.pending ∧ ∀ k', (s.setPd p x).o k' = s.o k' := by
  and_intros <;> first | rfl | exact fun _ => rfl

@[simp] theorem State.setArr_frame (s : State) (a) (x) :
    (s.setArr a x).od = s.od ∧ (s.setArr a x).blobs = s.blobs ∧ (s.setArr a x).freeCtr = s.freeCtr ∧ (s.setArr a
    x).residents = s.residents ∧ (s.setArr a x).incrs = s.incrs ∧ (s.setArr a x).cores = s.cores ∧ (s.setArr a x).keepers
    = s.keepers ∧ (s.setArr a x).mboxes = s.mboxes ∧ (s.setArr a x).mem = s.mem ∧ (s.setArr a x).slots = s.slots ∧
    (s.setArr a x).power = s.power ∧ (s.setArr a x).recs = s.recs ∧ (s.setArr a x).aged = s.aged ∧ (s.setArr a x).parts =
    s.parts ∧ (s.setArr a x).boot = s.boot ∧ (s.setArr a x).pins = s.pins ∧ (s.setArr a x).chain = s.chain ∧ (s.setArr a
    x).dict = s.dict ∧ (s.setArr a x).models = s.models ∧ (s.setArr a x).stakes = s.stakes ∧ (s.setArr a x).steps =
    s.steps ∧ (s.setArr a x).nextStep = s.nextStep ∧ (s.setArr a x).store = s.store ∧ (s.setArr a x).seqs = s.seqs ∧
    (s.setArr a x).prefixes = s.prefixes ∧ (s.setArr a x).nextPrefix = s.nextPrefix ∧ (s.setArr a x).rx = s.rx ∧ (s.setArr
    a x).assemblies = s.assemblies ∧ (s.setArr a x).preCancels = s.preCancels ∧ (s.setArr a x).idWins = s.idWins ∧
    (s.setArr a x).bufs = s.bufs ∧ (s.setArr a x).reqs = s.reqs ∧ (s.setArr a x).nextReq = s.nextReq ∧ (s.setArr a x).gate
    = s.gate ∧ (s.setArr a x).arb = s.arb ∧ (s.setArr a x).tx = s.tx ∧ (s.setArr a x).pcie = s.pcie ∧ (s.setArr a x).pool
    = s.pool ∧ (s.setArr a x).tables = s.tables ∧ (s.setArr a x).peers = s.peers ∧ (s.setArr a x).vocabs = s.vocabs ∧
    (s.setArr a x).grammars = s.grammars ∧ (s.setArr a x).trieQ = s.trieQ ∧ (s.setArr a x).tries = s.tries ∧ (s.setArr a
    x).masks = s.masks ∧ (s.setArr a x).dice = s.dice ∧ (s.setArr a x).index = s.index ∧ (s.setArr a x).pending =
    s.pending ∧ ∀ k', (s.setArr a x).o k' = s.o k' := by
  and_intros <;> first | rfl | exact fun _ => rfl

@[simp] theorem State.setRes_frame (s : State) (a) (r) (x) :
    (s.setRes a r x).od = s.od ∧ (s.setRes a r x).blobs = s.blobs ∧ (s.setRes a r x).freeCtr = s.freeCtr ∧ (s.setRes a r
    x).arrs = s.arrs ∧ (s.setRes a r x).incrs = s.incrs ∧ (s.setRes a r x).cores = s.cores ∧ (s.setRes a r x).keepers =
    s.keepers ∧ (s.setRes a r x).mboxes = s.mboxes ∧ (s.setRes a r x).mem = s.mem ∧ (s.setRes a r x).slots = s.slots ∧
    (s.setRes a r x).power = s.power ∧ (s.setRes a r x).recs = s.recs ∧ (s.setRes a r x).aged = s.aged ∧ (s.setRes a r
    x).parts = s.parts ∧ (s.setRes a r x).boot = s.boot ∧ (s.setRes a r x).pins = s.pins ∧ (s.setRes a r x).chain =
    s.chain ∧ (s.setRes a r x).dict = s.dict ∧ (s.setRes a r x).models = s.models ∧ (s.setRes a r x).stakes = s.stakes ∧
    (s.setRes a r x).steps = s.steps ∧ (s.setRes a r x).nextStep = s.nextStep ∧ (s.setRes a r x).store = s.store ∧
    (s.setRes a r x).seqs = s.seqs ∧ (s.setRes a r x).prefixes = s.prefixes ∧ (s.setRes a r x).nextPrefix = s.nextPrefix ∧
    (s.setRes a r x).rx = s.rx ∧ (s.setRes a r x).assemblies = s.assemblies ∧ (s.setRes a r x).preCancels = s.preCancels ∧
    (s.setRes a r x).idWins = s.idWins ∧ (s.setRes a r x).bufs = s.bufs ∧ (s.setRes a r x).reqs = s.reqs ∧ (s.setRes a r
    x).nextReq = s.nextReq ∧ (s.setRes a r x).gate = s.gate ∧ (s.setRes a r x).arb = s.arb ∧ (s.setRes a r x).tx = s.tx ∧
    (s.setRes a r x).pcie = s.pcie ∧ (s.setRes a r x).pool = s.pool ∧ (s.setRes a r x).tables = s.tables ∧ (s.setRes a r
    x).peers = s.peers ∧ (s.setRes a r x).vocabs = s.vocabs ∧ (s.setRes a r x).grammars = s.grammars ∧ (s.setRes a r
    x).trieQ = s.trieQ ∧ (s.setRes a r x).tries = s.tries ∧ (s.setRes a r x).masks = s.masks ∧ (s.setRes a r x).dice =
    s.dice ∧ (s.setRes a r x).index = s.index ∧ (s.setRes a r x).pending = s.pending ∧ ∀ k', (s.setRes a r x).o k' = s.o
    k' := by
  and_intros <;> first | rfl | exact fun _ => rfl

@[simp] theorem State.setCore_frame (s : State) (c) (x) :
    (s.setCore c x).od = s.od ∧ (s.setCore c x).blobs = s.blobs ∧ (s.setCore c x).freeCtr = s.freeCtr ∧ (s.setCore c
    x).arrs = s.arrs ∧ (s.setCore c x).residents = s.residents ∧ (s.setCore c x).incrs = s.incrs ∧ (s.setCore c x).keepers
    = s.keepers ∧ (s.setCore c x).mboxes = s.mboxes ∧ (s.setCore c x).mem = s.mem ∧ (s.setCore c x).slots = s.slots ∧
    (s.setCore c x).power = s.power ∧ (s.setCore c x).recs = s.recs ∧ (s.setCore c x).aged = s.aged ∧ (s.setCore c
    x).parts = s.parts ∧ (s.setCore c x).boot = s.boot ∧ (s.setCore c x).pins = s.pins ∧ (s.setCore c x).chain = s.chain ∧
    (s.setCore c x).dict = s.dict ∧ (s.setCore c x).models = s.models ∧ (s.setCore c x).stakes = s.stakes ∧ (s.setCore c
    x).steps = s.steps ∧ (s.setCore c x).nextStep = s.nextStep ∧ (s.setCore c x).store = s.store ∧ (s.setCore c x).seqs =
    s.seqs ∧ (s.setCore c x).prefixes = s.prefixes ∧ (s.setCore c x).nextPrefix = s.nextPrefix ∧ (s.setCore c x).rx = s.rx
    ∧ (s.setCore c x).assemblies = s.assemblies ∧ (s.setCore c x).preCancels = s.preCancels ∧ (s.setCore c x).idWins =
    s.idWins ∧ (s.setCore c x).bufs = s.bufs ∧ (s.setCore c x).reqs = s.reqs ∧ (s.setCore c x).nextReq = s.nextReq ∧
    (s.setCore c x).gate = s.gate ∧ (s.setCore c x).arb = s.arb ∧ (s.setCore c x).tx = s.tx ∧ (s.setCore c x).pcie =
    s.pcie ∧ (s.setCore c x).pool = s.pool ∧ (s.setCore c x).tables = s.tables ∧ (s.setCore c x).peers = s.peers ∧
    (s.setCore c x).vocabs = s.vocabs ∧ (s.setCore c x).grammars = s.grammars ∧ (s.setCore c x).trieQ = s.trieQ ∧
    (s.setCore c x).tries = s.tries ∧ (s.setCore c x).masks = s.masks ∧ (s.setCore c x).dice = s.dice ∧ (s.setCore c
    x).index = s.index ∧ (s.setCore c x).pending = s.pending ∧ ∀ k', (s.setCore c x).o k' = s.o k' := by
  and_intros <;> first | rfl | exact fun _ => rfl

@[simp] theorem State.setKeeper_frame (s : State) (k) (x) :
    (s.setKeeper k x).od = s.od ∧ (s.setKeeper k x).blobs = s.blobs ∧ (s.setKeeper k x).freeCtr = s.freeCtr ∧ (s.setKeeper
    k x).arrs = s.arrs ∧ (s.setKeeper k x).residents = s.residents ∧ (s.setKeeper k x).incrs = s.incrs ∧ (s.setKeeper k
    x).cores = s.cores ∧ (s.setKeeper k x).mboxes = s.mboxes ∧ (s.setKeeper k x).mem = s.mem ∧ (s.setKeeper k x).slots =
    s.slots ∧ (s.setKeeper k x).power = s.power ∧ (s.setKeeper k x).recs = s.recs ∧ (s.setKeeper k x).aged = s.aged ∧
    (s.setKeeper k x).parts = s.parts ∧ (s.setKeeper k x).boot = s.boot ∧ (s.setKeeper k x).pins = s.pins ∧ (s.setKeeper k
    x).chain = s.chain ∧ (s.setKeeper k x).dict = s.dict ∧ (s.setKeeper k x).models = s.models ∧ (s.setKeeper k x).stakes
    = s.stakes ∧ (s.setKeeper k x).steps = s.steps ∧ (s.setKeeper k x).nextStep = s.nextStep ∧ (s.setKeeper k x).store =
    s.store ∧ (s.setKeeper k x).seqs = s.seqs ∧ (s.setKeeper k x).prefixes = s.prefixes ∧ (s.setKeeper k x).nextPrefix =
    s.nextPrefix ∧ (s.setKeeper k x).rx = s.rx ∧ (s.setKeeper k x).assemblies = s.assemblies ∧ (s.setKeeper k
    x).preCancels = s.preCancels ∧ (s.setKeeper k x).idWins = s.idWins ∧ (s.setKeeper k x).bufs = s.bufs ∧ (s.setKeeper k
    x).reqs = s.reqs ∧ (s.setKeeper k x).nextReq = s.nextReq ∧ (s.setKeeper k x).gate = s.gate ∧ (s.setKeeper k x).arb =
    s.arb ∧ (s.setKeeper k x).tx = s.tx ∧ (s.setKeeper k x).pcie = s.pcie ∧ (s.setKeeper k x).pool = s.pool ∧ (s.setKeeper
    k x).tables = s.tables ∧ (s.setKeeper k x).peers = s.peers ∧ (s.setKeeper k x).vocabs = s.vocabs ∧ (s.setKeeper k
    x).grammars = s.grammars ∧ (s.setKeeper k x).trieQ = s.trieQ ∧ (s.setKeeper k x).tries = s.tries ∧ (s.setKeeper k
    x).masks = s.masks ∧ (s.setKeeper k x).dice = s.dice ∧ (s.setKeeper k x).index = s.index ∧ (s.setKeeper k x).pending =
    s.pending ∧ ∀ k', (s.setKeeper k x).o k' = s.o k' := by
  and_intros <;> first | rfl | exact fun _ => rfl

@[simp] theorem State.setNearB_frame (s : State) (sl) (o) (b) :
    (s.setNearB sl o b).od = s.od ∧ (s.setNearB sl o b).blobs = s.blobs ∧ (s.setNearB sl o b).freeCtr = s.freeCtr ∧
    (s.setNearB sl o b).arrs = s.arrs ∧ (s.setNearB sl o b).residents = s.residents ∧ (s.setNearB sl o b).incrs = s.incrs
    ∧ (s.setNearB sl o b).cores = s.cores ∧ (s.setNearB sl o b).keepers = s.keepers ∧ (s.setNearB sl o b).mboxes =
    s.mboxes ∧ (s.setNearB sl o b).slots = s.slots ∧ (s.setNearB sl o b).power = s.power ∧ (s.setNearB sl o b).recs =
    s.recs ∧ (s.setNearB sl o b).aged = s.aged ∧ (s.setNearB sl o b).parts = s.parts ∧ (s.setNearB sl o b).boot = s.boot ∧
    (s.setNearB sl o b).pins = s.pins ∧ (s.setNearB sl o b).chain = s.chain ∧ (s.setNearB sl o b).dict = s.dict ∧
    (s.setNearB sl o b).models = s.models ∧ (s.setNearB sl o b).stakes = s.stakes ∧ (s.setNearB sl o b).steps = s.steps ∧
    (s.setNearB sl o b).nextStep = s.nextStep ∧ (s.setNearB sl o b).store = s.store ∧ (s.setNearB sl o b).seqs = s.seqs ∧
    (s.setNearB sl o b).prefixes = s.prefixes ∧ (s.setNearB sl o b).nextPrefix = s.nextPrefix ∧ (s.setNearB sl o b).rx =
    s.rx ∧ (s.setNearB sl o b).assemblies = s.assemblies ∧ (s.setNearB sl o b).preCancels = s.preCancels ∧ (s.setNearB sl
    o b).idWins = s.idWins ∧ (s.setNearB sl o b).bufs = s.bufs ∧ (s.setNearB sl o b).reqs = s.reqs ∧ (s.setNearB sl o
    b).nextReq = s.nextReq ∧ (s.setNearB sl o b).gate = s.gate ∧ (s.setNearB sl o b).arb = s.arb ∧ (s.setNearB sl o b).tx
    = s.tx ∧ (s.setNearB sl o b).pcie = s.pcie ∧ (s.setNearB sl o b).pool = s.pool ∧ (s.setNearB sl o b).tables = s.tables
    ∧ (s.setNearB sl o b).peers = s.peers ∧ (s.setNearB sl o b).vocabs = s.vocabs ∧ (s.setNearB sl o b).grammars =
    s.grammars ∧ (s.setNearB sl o b).trieQ = s.trieQ ∧ (s.setNearB sl o b).tries = s.tries ∧ (s.setNearB sl o b).masks =
    s.masks ∧ (s.setNearB sl o b).dice = s.dice ∧ (s.setNearB sl o b).index = s.index ∧ (s.setNearB sl o b).pending =
    s.pending ∧ ∀ k', (s.setNearB sl o b).o k' = s.o k' := by
  and_intros <;> first | rfl | exact fun _ => rfl

@[simp] theorem State.setStackB_frame (s : State) (p) (o) (b) :
    (s.setStackB p o b).od = s.od ∧ (s.setStackB p o b).blobs = s.blobs ∧ (s.setStackB p o b).freeCtr = s.freeCtr ∧
    (s.setStackB p o b).arrs = s.arrs ∧ (s.setStackB p o b).residents = s.residents ∧ (s.setStackB p o b).incrs = s.incrs
    ∧ (s.setStackB p o b).cores = s.cores ∧ (s.setStackB p o b).keepers = s.keepers ∧ (s.setStackB p o b).mboxes =
    s.mboxes ∧ (s.setStackB p o b).slots = s.slots ∧ (s.setStackB p o b).power = s.power ∧ (s.setStackB p o b).recs =
    s.recs ∧ (s.setStackB p o b).aged = s.aged ∧ (s.setStackB p o b).parts = s.parts ∧ (s.setStackB p o b).boot = s.boot ∧
    (s.setStackB p o b).pins = s.pins ∧ (s.setStackB p o b).chain = s.chain ∧ (s.setStackB p o b).dict = s.dict ∧
    (s.setStackB p o b).models = s.models ∧ (s.setStackB p o b).stakes = s.stakes ∧ (s.setStackB p o b).steps = s.steps ∧
    (s.setStackB p o b).nextStep = s.nextStep ∧ (s.setStackB p o b).store = s.store ∧ (s.setStackB p o b).seqs = s.seqs ∧
    (s.setStackB p o b).prefixes = s.prefixes ∧ (s.setStackB p o b).nextPrefix = s.nextPrefix ∧ (s.setStackB p o b).rx =
    s.rx ∧ (s.setStackB p o b).assemblies = s.assemblies ∧ (s.setStackB p o b).preCancels = s.preCancels ∧ (s.setStackB p
    o b).idWins = s.idWins ∧ (s.setStackB p o b).bufs = s.bufs ∧ (s.setStackB p o b).reqs = s.reqs ∧ (s.setStackB p o
    b).nextReq = s.nextReq ∧ (s.setStackB p o b).gate = s.gate ∧ (s.setStackB p o b).arb = s.arb ∧ (s.setStackB p o b).tx
    = s.tx ∧ (s.setStackB p o b).pcie = s.pcie ∧ (s.setStackB p o b).pool = s.pool ∧ (s.setStackB p o b).tables = s.tables
    ∧ (s.setStackB p o b).peers = s.peers ∧ (s.setStackB p o b).vocabs = s.vocabs ∧ (s.setStackB p o b).grammars =
    s.grammars ∧ (s.setStackB p o b).trieQ = s.trieQ ∧ (s.setStackB p o b).tries = s.tries ∧ (s.setStackB p o b).masks =
    s.masks ∧ (s.setStackB p o b).dice = s.dice ∧ (s.setStackB p o b).index = s.index ∧ (s.setStackB p o b).pending =
    s.pending ∧ ∀ k', (s.setStackB p o b).o k' = s.o k' := by
  and_intros <;> first | rfl | exact fun _ => rfl

@[simp] theorem State.setPage_frame (s : State) (p) (x) :
    (s.setPage p x).od = s.od ∧ (s.setPage p x).blobs = s.blobs ∧ (s.setPage p x).freeCtr = s.freeCtr ∧ (s.setPage p
    x).arrs = s.arrs ∧ (s.setPage p x).residents = s.residents ∧ (s.setPage p x).incrs = s.incrs ∧ (s.setPage p x).cores =
    s.cores ∧ (s.setPage p x).keepers = s.keepers ∧ (s.setPage p x).mboxes = s.mboxes ∧ (s.setPage p x).slots = s.slots ∧
    (s.setPage p x).power = s.power ∧ (s.setPage p x).recs = s.recs ∧ (s.setPage p x).aged = s.aged ∧ (s.setPage p
    x).parts = s.parts ∧ (s.setPage p x).boot = s.boot ∧ (s.setPage p x).pins = s.pins ∧ (s.setPage p x).chain = s.chain ∧
    (s.setPage p x).dict = s.dict ∧ (s.setPage p x).models = s.models ∧ (s.setPage p x).stakes = s.stakes ∧ (s.setPage p
    x).steps = s.steps ∧ (s.setPage p x).nextStep = s.nextStep ∧ (s.setPage p x).store = s.store ∧ (s.setPage p x).seqs =
    s.seqs ∧ (s.setPage p x).prefixes = s.prefixes ∧ (s.setPage p x).nextPrefix = s.nextPrefix ∧ (s.setPage p x).rx = s.rx
    ∧ (s.setPage p x).assemblies = s.assemblies ∧ (s.setPage p x).preCancels = s.preCancels ∧ (s.setPage p x).idWins =
    s.idWins ∧ (s.setPage p x).bufs = s.bufs ∧ (s.setPage p x).reqs = s.reqs ∧ (s.setPage p x).nextReq = s.nextReq ∧
    (s.setPage p x).gate = s.gate ∧ (s.setPage p x).arb = s.arb ∧ (s.setPage p x).tx = s.tx ∧ (s.setPage p x).pcie =
    s.pcie ∧ (s.setPage p x).pool = s.pool ∧ (s.setPage p x).tables = s.tables ∧ (s.setPage p x).peers = s.peers ∧
    (s.setPage p x).vocabs = s.vocabs ∧ (s.setPage p x).grammars = s.grammars ∧ (s.setPage p x).trieQ = s.trieQ ∧
    (s.setPage p x).tries = s.tries ∧ (s.setPage p x).masks = s.masks ∧ (s.setPage p x).dice = s.dice ∧ (s.setPage p
    x).index = s.index ∧ (s.setPage p x).pending = s.pending ∧ ∀ k', (s.setPage p x).o k' = s.o k' := by
  and_intros <;> first | rfl | exact fun _ => rfl

@[simp] theorem State.setGran_frame (s : State) (g) (x) :
    (s.setGran g x).od = s.od ∧ (s.setGran g x).blobs = s.blobs ∧ (s.setGran g x).freeCtr = s.freeCtr ∧ (s.setGran g
    x).arrs = s.arrs ∧ (s.setGran g x).residents = s.residents ∧ (s.setGran g x).incrs = s.incrs ∧ (s.setGran g x).cores =
    s.cores ∧ (s.setGran g x).keepers = s.keepers ∧ (s.setGran g x).mboxes = s.mboxes ∧ (s.setGran g x).slots = s.slots ∧
    (s.setGran g x).power = s.power ∧ (s.setGran g x).recs = s.recs ∧ (s.setGran g x).aged = s.aged ∧ (s.setGran g
    x).parts = s.parts ∧ (s.setGran g x).boot = s.boot ∧ (s.setGran g x).pins = s.pins ∧ (s.setGran g x).chain = s.chain ∧
    (s.setGran g x).dict = s.dict ∧ (s.setGran g x).models = s.models ∧ (s.setGran g x).stakes = s.stakes ∧ (s.setGran g
    x).steps = s.steps ∧ (s.setGran g x).nextStep = s.nextStep ∧ (s.setGran g x).store = s.store ∧ (s.setGran g x).seqs =
    s.seqs ∧ (s.setGran g x).prefixes = s.prefixes ∧ (s.setGran g x).nextPrefix = s.nextPrefix ∧ (s.setGran g x).rx = s.rx
    ∧ (s.setGran g x).assemblies = s.assemblies ∧ (s.setGran g x).preCancels = s.preCancels ∧ (s.setGran g x).idWins =
    s.idWins ∧ (s.setGran g x).bufs = s.bufs ∧ (s.setGran g x).reqs = s.reqs ∧ (s.setGran g x).nextReq = s.nextReq ∧
    (s.setGran g x).gate = s.gate ∧ (s.setGran g x).arb = s.arb ∧ (s.setGran g x).tx = s.tx ∧ (s.setGran g x).pcie =
    s.pcie ∧ (s.setGran g x).pool = s.pool ∧ (s.setGran g x).tables = s.tables ∧ (s.setGran g x).peers = s.peers ∧
    (s.setGran g x).vocabs = s.vocabs ∧ (s.setGran g x).grammars = s.grammars ∧ (s.setGran g x).trieQ = s.trieQ ∧
    (s.setGran g x).tries = s.tries ∧ (s.setGran g x).masks = s.masks ∧ (s.setGran g x).dice = s.dice ∧ (s.setGran g
    x).index = s.index ∧ (s.setGran g x).pending = s.pending ∧ ∀ k', (s.setGran g x).o k' = s.o k' := by
  and_intros <;> first | rfl | exact fun _ => rfl

@[simp] theorem State.wipePage_frame (s : State) (p) :
    (s.wipePage p).od = s.od ∧ (s.wipePage p).blobs = s.blobs ∧ (s.wipePage p).freeCtr = s.freeCtr ∧ (s.wipePage p).arrs =
    s.arrs ∧ (s.wipePage p).residents = s.residents ∧ (s.wipePage p).incrs = s.incrs ∧ (s.wipePage p).cores = s.cores ∧
    (s.wipePage p).keepers = s.keepers ∧ (s.wipePage p).mboxes = s.mboxes ∧ (s.wipePage p).slots = s.slots ∧ (s.wipePage
    p).power = s.power ∧ (s.wipePage p).recs = s.recs ∧ (s.wipePage p).aged = s.aged ∧ (s.wipePage p).parts = s.parts ∧
    (s.wipePage p).boot = s.boot ∧ (s.wipePage p).pins = s.pins ∧ (s.wipePage p).chain = s.chain ∧ (s.wipePage p).dict =
    s.dict ∧ (s.wipePage p).models = s.models ∧ (s.wipePage p).stakes = s.stakes ∧ (s.wipePage p).steps = s.steps ∧
    (s.wipePage p).nextStep = s.nextStep ∧ (s.wipePage p).store = s.store ∧ (s.wipePage p).seqs = s.seqs ∧ (s.wipePage
    p).prefixes = s.prefixes ∧ (s.wipePage p).nextPrefix = s.nextPrefix ∧ (s.wipePage p).rx = s.rx ∧ (s.wipePage
    p).assemblies = s.assemblies ∧ (s.wipePage p).preCancels = s.preCancels ∧ (s.wipePage p).idWins = s.idWins ∧
    (s.wipePage p).bufs = s.bufs ∧ (s.wipePage p).reqs = s.reqs ∧ (s.wipePage p).nextReq = s.nextReq ∧ (s.wipePage p).gate
    = s.gate ∧ (s.wipePage p).arb = s.arb ∧ (s.wipePage p).tx = s.tx ∧ (s.wipePage p).pcie = s.pcie ∧ (s.wipePage p).pool
    = s.pool ∧ (s.wipePage p).tables = s.tables ∧ (s.wipePage p).peers = s.peers ∧ (s.wipePage p).vocabs = s.vocabs ∧
    (s.wipePage p).grammars = s.grammars ∧ (s.wipePage p).trieQ = s.trieQ ∧ (s.wipePage p).tries = s.tries ∧ (s.wipePage
    p).masks = s.masks ∧ (s.wipePage p).dice = s.dice ∧ (s.wipePage p).index = s.index ∧ (s.wipePage p).pending =
    s.pending ∧ ∀ k', (s.wipePage p).o k' = s.o k' := by
  and_intros <;> first | rfl | exact fun _ => rfl

@[simp] theorem State.wipeGran_frame (s : State) (g) :
    (s.wipeGran g).od = s.od ∧ (s.wipeGran g).blobs = s.blobs ∧ (s.wipeGran g).freeCtr = s.freeCtr ∧ (s.wipeGran g).arrs =
    s.arrs ∧ (s.wipeGran g).residents = s.residents ∧ (s.wipeGran g).incrs = s.incrs ∧ (s.wipeGran g).cores = s.cores ∧
    (s.wipeGran g).keepers = s.keepers ∧ (s.wipeGran g).mboxes = s.mboxes ∧ (s.wipeGran g).slots = s.slots ∧ (s.wipeGran
    g).power = s.power ∧ (s.wipeGran g).recs = s.recs ∧ (s.wipeGran g).aged = s.aged ∧ (s.wipeGran g).parts = s.parts ∧
    (s.wipeGran g).boot = s.boot ∧ (s.wipeGran g).pins = s.pins ∧ (s.wipeGran g).chain = s.chain ∧ (s.wipeGran g).dict =
    s.dict ∧ (s.wipeGran g).models = s.models ∧ (s.wipeGran g).stakes = s.stakes ∧ (s.wipeGran g).steps = s.steps ∧
    (s.wipeGran g).nextStep = s.nextStep ∧ (s.wipeGran g).store = s.store ∧ (s.wipeGran g).seqs = s.seqs ∧ (s.wipeGran
    g).prefixes = s.prefixes ∧ (s.wipeGran g).nextPrefix = s.nextPrefix ∧ (s.wipeGran g).rx = s.rx ∧ (s.wipeGran
    g).assemblies = s.assemblies ∧ (s.wipeGran g).preCancels = s.preCancels ∧ (s.wipeGran g).idWins = s.idWins ∧
    (s.wipeGran g).bufs = s.bufs ∧ (s.wipeGran g).reqs = s.reqs ∧ (s.wipeGran g).nextReq = s.nextReq ∧ (s.wipeGran g).gate
    = s.gate ∧ (s.wipeGran g).arb = s.arb ∧ (s.wipeGran g).tx = s.tx ∧ (s.wipeGran g).pcie = s.pcie ∧ (s.wipeGran g).pool
    = s.pool ∧ (s.wipeGran g).tables = s.tables ∧ (s.wipeGran g).peers = s.peers ∧ (s.wipeGran g).vocabs = s.vocabs ∧
    (s.wipeGran g).grammars = s.grammars ∧ (s.wipeGran g).trieQ = s.trieQ ∧ (s.wipeGran g).tries = s.tries ∧ (s.wipeGran
    g).masks = s.masks ∧ (s.wipeGran g).dice = s.dice ∧ (s.wipeGran g).index = s.index ∧ (s.wipeGran g).pending =
    s.pending ∧ ∀ k', (s.wipeGran g).o k' = s.o k' := by
  and_intros <;> first | rfl | exact fun _ => rfl

@[simp] theorem State.setAged_frame (s : State) (i) (x) :
    (s.setAged i x).od = s.od ∧ (s.setAged i x).blobs = s.blobs ∧ (s.setAged i x).freeCtr = s.freeCtr ∧ (s.setAged i
    x).arrs = s.arrs ∧ (s.setAged i x).residents = s.residents ∧ (s.setAged i x).incrs = s.incrs ∧ (s.setAged i x).cores =
    s.cores ∧ (s.setAged i x).keepers = s.keepers ∧ (s.setAged i x).mboxes = s.mboxes ∧ (s.setAged i x).mem = s.mem ∧
    (s.setAged i x).slots = s.slots ∧ (s.setAged i x).power = s.power ∧ (s.setAged i x).recs = s.recs ∧ (s.setAged i
    x).parts = s.parts ∧ (s.setAged i x).boot = s.boot ∧ (s.setAged i x).pins = s.pins ∧ (s.setAged i x).chain = s.chain ∧
    (s.setAged i x).dict = s.dict ∧ (s.setAged i x).models = s.models ∧ (s.setAged i x).stakes = s.stakes ∧ (s.setAged i
    x).steps = s.steps ∧ (s.setAged i x).nextStep = s.nextStep ∧ (s.setAged i x).store = s.store ∧ (s.setAged i x).seqs =
    s.seqs ∧ (s.setAged i x).prefixes = s.prefixes ∧ (s.setAged i x).nextPrefix = s.nextPrefix ∧ (s.setAged i x).rx = s.rx
    ∧ (s.setAged i x).assemblies = s.assemblies ∧ (s.setAged i x).preCancels = s.preCancels ∧ (s.setAged i x).idWins =
    s.idWins ∧ (s.setAged i x).bufs = s.bufs ∧ (s.setAged i x).reqs = s.reqs ∧ (s.setAged i x).nextReq = s.nextReq ∧
    (s.setAged i x).gate = s.gate ∧ (s.setAged i x).arb = s.arb ∧ (s.setAged i x).tx = s.tx ∧ (s.setAged i x).pcie =
    s.pcie ∧ (s.setAged i x).pool = s.pool ∧ (s.setAged i x).tables = s.tables ∧ (s.setAged i x).peers = s.peers ∧
    (s.setAged i x).vocabs = s.vocabs ∧ (s.setAged i x).grammars = s.grammars ∧ (s.setAged i x).trieQ = s.trieQ ∧
    (s.setAged i x).tries = s.tries ∧ (s.setAged i x).masks = s.masks ∧ (s.setAged i x).dice = s.dice ∧ (s.setAged i
    x).index = s.index ∧ (s.setAged i x).pending = s.pending ∧ ∀ k', (s.setAged i x).o k' = s.o k' := by
  and_intros <;> first | rfl | exact fun _ => rfl

@[simp] theorem State.setIndex_frame (s : State) (x) :
    (s.setIndex x).od = s.od ∧ (s.setIndex x).blobs = s.blobs ∧ (s.setIndex x).freeCtr = s.freeCtr ∧ (s.setIndex x).arrs =
    s.arrs ∧ (s.setIndex x).residents = s.residents ∧ (s.setIndex x).incrs = s.incrs ∧ (s.setIndex x).cores = s.cores ∧
    (s.setIndex x).keepers = s.keepers ∧ (s.setIndex x).mboxes = s.mboxes ∧ (s.setIndex x).mem = s.mem ∧ (s.setIndex
    x).slots = s.slots ∧ (s.setIndex x).power = s.power ∧ (s.setIndex x).recs = s.recs ∧ (s.setIndex x).aged = s.aged ∧
    (s.setIndex x).parts = s.parts ∧ (s.setIndex x).boot = s.boot ∧ (s.setIndex x).pins = s.pins ∧ (s.setIndex x).chain =
    s.chain ∧ (s.setIndex x).dict = s.dict ∧ (s.setIndex x).models = s.models ∧ (s.setIndex x).stakes = s.stakes ∧
    (s.setIndex x).steps = s.steps ∧ (s.setIndex x).nextStep = s.nextStep ∧ (s.setIndex x).store = s.store ∧ (s.setIndex
    x).seqs = s.seqs ∧ (s.setIndex x).prefixes = s.prefixes ∧ (s.setIndex x).nextPrefix = s.nextPrefix ∧ (s.setIndex x).rx
    = s.rx ∧ (s.setIndex x).assemblies = s.assemblies ∧ (s.setIndex x).preCancels = s.preCancels ∧ (s.setIndex x).idWins =
    s.idWins ∧ (s.setIndex x).bufs = s.bufs ∧ (s.setIndex x).reqs = s.reqs ∧ (s.setIndex x).nextReq = s.nextReq ∧
    (s.setIndex x).gate = s.gate ∧ (s.setIndex x).arb = s.arb ∧ (s.setIndex x).tx = s.tx ∧ (s.setIndex x).pcie = s.pcie ∧
    (s.setIndex x).pool = s.pool ∧ (s.setIndex x).tables = s.tables ∧ (s.setIndex x).peers = s.peers ∧ (s.setIndex
    x).vocabs = s.vocabs ∧ (s.setIndex x).grammars = s.grammars ∧ (s.setIndex x).trieQ = s.trieQ ∧ (s.setIndex x).tries =
    s.tries ∧ (s.setIndex x).masks = s.masks ∧ (s.setIndex x).dice = s.dice ∧ (s.setIndex x).pending = s.pending ∧ ∀ k',
    (s.setIndex x).o k' = s.o k' := by
  and_intros <;> first | rfl | exact fun _ => rfl

@[simp] theorem State.setList_frame (s : State) (l) (y) :
    (s.setList l y).od = s.od ∧ (s.setList l y).blobs = s.blobs ∧ (s.setList l y).freeCtr = s.freeCtr ∧ (s.setList l
    y).arrs = s.arrs ∧ (s.setList l y).residents = s.residents ∧ (s.setList l y).incrs = s.incrs ∧ (s.setList l y).cores =
    s.cores ∧ (s.setList l y).keepers = s.keepers ∧ (s.setList l y).mboxes = s.mboxes ∧ (s.setList l y).mem = s.mem ∧
    (s.setList l y).slots = s.slots ∧ (s.setList l y).power = s.power ∧ (s.setList l y).recs = s.recs ∧ (s.setList l
    y).aged = s.aged ∧ (s.setList l y).parts = s.parts ∧ (s.setList l y).boot = s.boot ∧ (s.setList l y).pins = s.pins ∧
    (s.setList l y).chain = s.chain ∧ (s.setList l y).dict = s.dict ∧ (s.setList l y).models = s.models ∧ (s.setList l
    y).stakes = s.stakes ∧ (s.setList l y).steps = s.steps ∧ (s.setList l y).nextStep = s.nextStep ∧ (s.setList l y).store
    = s.store ∧ (s.setList l y).seqs = s.seqs ∧ (s.setList l y).prefixes = s.prefixes ∧ (s.setList l y).nextPrefix =
    s.nextPrefix ∧ (s.setList l y).rx = s.rx ∧ (s.setList l y).assemblies = s.assemblies ∧ (s.setList l y).preCancels =
    s.preCancels ∧ (s.setList l y).idWins = s.idWins ∧ (s.setList l y).bufs = s.bufs ∧ (s.setList l y).reqs = s.reqs ∧
    (s.setList l y).nextReq = s.nextReq ∧ (s.setList l y).gate = s.gate ∧ (s.setList l y).arb = s.arb ∧ (s.setList l y).tx
    = s.tx ∧ (s.setList l y).pcie = s.pcie ∧ (s.setList l y).pool = s.pool ∧ (s.setList l y).tables = s.tables ∧
    (s.setList l y).peers = s.peers ∧ (s.setList l y).vocabs = s.vocabs ∧ (s.setList l y).grammars = s.grammars ∧
    (s.setList l y).trieQ = s.trieQ ∧ (s.setList l y).tries = s.tries ∧ (s.setList l y).masks = s.masks ∧ (s.setList l
    y).dice = s.dice ∧ (s.setList l y).pending = s.pending ∧ ∀ k', (s.setList l y).o k' = s.o k' := by
  and_intros <;> first | rfl | exact fun _ => rfl

@[simp] theorem State.setSeq_frame (s : State) (q) (y) :
    (s.setSeq q y).od = s.od ∧ (s.setSeq q y).blobs = s.blobs ∧ (s.setSeq q y).freeCtr = s.freeCtr ∧ (s.setSeq q y).arrs =
    s.arrs ∧ (s.setSeq q y).residents = s.residents ∧ (s.setSeq q y).incrs = s.incrs ∧ (s.setSeq q y).cores = s.cores ∧
    (s.setSeq q y).keepers = s.keepers ∧ (s.setSeq q y).mboxes = s.mboxes ∧ (s.setSeq q y).mem = s.mem ∧ (s.setSeq q
    y).slots = s.slots ∧ (s.setSeq q y).power = s.power ∧ (s.setSeq q y).recs = s.recs ∧ (s.setSeq q y).aged = s.aged ∧
    (s.setSeq q y).parts = s.parts ∧ (s.setSeq q y).boot = s.boot ∧ (s.setSeq q y).pins = s.pins ∧ (s.setSeq q y).chain =
    s.chain ∧ (s.setSeq q y).dict = s.dict ∧ (s.setSeq q y).models = s.models ∧ (s.setSeq q y).stakes = s.stakes ∧
    (s.setSeq q y).steps = s.steps ∧ (s.setSeq q y).nextStep = s.nextStep ∧ (s.setSeq q y).store = s.store ∧ (s.setSeq q
    y).prefixes = s.prefixes ∧ (s.setSeq q y).nextPrefix = s.nextPrefix ∧ (s.setSeq q y).rx = s.rx ∧ (s.setSeq q
    y).assemblies = s.assemblies ∧ (s.setSeq q y).preCancels = s.preCancels ∧ (s.setSeq q y).idWins = s.idWins ∧ (s.setSeq
    q y).bufs = s.bufs ∧ (s.setSeq q y).reqs = s.reqs ∧ (s.setSeq q y).nextReq = s.nextReq ∧ (s.setSeq q y).gate = s.gate
    ∧ (s.setSeq q y).arb = s.arb ∧ (s.setSeq q y).tx = s.tx ∧ (s.setSeq q y).pcie = s.pcie ∧ (s.setSeq q y).pool = s.pool
    ∧ (s.setSeq q y).tables = s.tables ∧ (s.setSeq q y).peers = s.peers ∧ (s.setSeq q y).vocabs = s.vocabs ∧ (s.setSeq q
    y).grammars = s.grammars ∧ (s.setSeq q y).trieQ = s.trieQ ∧ (s.setSeq q y).tries = s.tries ∧ (s.setSeq q y).masks =
    s.masks ∧ (s.setSeq q y).dice = s.dice ∧ (s.setSeq q y).index = s.index ∧ (s.setSeq q y).pending = s.pending ∧ ∀ k',
    (s.setSeq q y).o k' = s.o k' := by
  and_intros <;> first | rfl | exact fun _ => rfl

@[simp] theorem State.setModel_frame (s : State) (m) (x) :
    (s.setModel m x).od = s.od ∧ (s.setModel m x).blobs = s.blobs ∧ (s.setModel m x).freeCtr = s.freeCtr ∧ (s.setModel m
    x).arrs = s.arrs ∧ (s.setModel m x).residents = s.residents ∧ (s.setModel m x).incrs = s.incrs ∧ (s.setModel m
    x).cores = s.cores ∧ (s.setModel m x).keepers = s.keepers ∧ (s.setModel m x).mboxes = s.mboxes ∧ (s.setModel m x).mem
    = s.mem ∧ (s.setModel m x).slots = s.slots ∧ (s.setModel m x).power = s.power ∧ (s.setModel m x).recs = s.recs ∧
    (s.setModel m x).aged = s.aged ∧ (s.setModel m x).parts = s.parts ∧ (s.setModel m x).boot = s.boot ∧ (s.setModel m
    x).pins = s.pins ∧ (s.setModel m x).chain = s.chain ∧ (s.setModel m x).dict = s.dict ∧ (s.setModel m x).stakes =
    s.stakes ∧ (s.setModel m x).steps = s.steps ∧ (s.setModel m x).nextStep = s.nextStep ∧ (s.setModel m x).store =
    s.store ∧ (s.setModel m x).seqs = s.seqs ∧ (s.setModel m x).prefixes = s.prefixes ∧ (s.setModel m x).nextPrefix =
    s.nextPrefix ∧ (s.setModel m x).rx = s.rx ∧ (s.setModel m x).assemblies = s.assemblies ∧ (s.setModel m x).preCancels =
    s.preCancels ∧ (s.setModel m x).idWins = s.idWins ∧ (s.setModel m x).bufs = s.bufs ∧ (s.setModel m x).reqs = s.reqs ∧
    (s.setModel m x).nextReq = s.nextReq ∧ (s.setModel m x).gate = s.gate ∧ (s.setModel m x).arb = s.arb ∧ (s.setModel m
    x).tx = s.tx ∧ (s.setModel m x).pcie = s.pcie ∧ (s.setModel m x).pool = s.pool ∧ (s.setModel m x).tables = s.tables ∧
    (s.setModel m x).peers = s.peers ∧ (s.setModel m x).vocabs = s.vocabs ∧ (s.setModel m x).grammars = s.grammars ∧
    (s.setModel m x).trieQ = s.trieQ ∧ (s.setModel m x).tries = s.tries ∧ (s.setModel m x).masks = s.masks ∧ (s.setModel m
    x).dice = s.dice ∧ (s.setModel m x).index = s.index ∧ (s.setModel m x).pending = s.pending ∧ ∀ k', (s.setModel m x).o
    k' = s.o k' := by
  and_intros <;> first | rfl | exact fun _ => rfl

@[simp] theorem State.setBuf_frame (s : State) (b) (x) :
    (s.setBuf b x).od = s.od ∧ (s.setBuf b x).blobs = s.blobs ∧ (s.setBuf b x).freeCtr = s.freeCtr ∧ (s.setBuf b x).arrs =
    s.arrs ∧ (s.setBuf b x).residents = s.residents ∧ (s.setBuf b x).incrs = s.incrs ∧ (s.setBuf b x).cores = s.cores ∧
    (s.setBuf b x).keepers = s.keepers ∧ (s.setBuf b x).mboxes = s.mboxes ∧ (s.setBuf b x).mem = s.mem ∧ (s.setBuf b
    x).slots = s.slots ∧ (s.setBuf b x).power = s.power ∧ (s.setBuf b x).recs = s.recs ∧ (s.setBuf b x).aged = s.aged ∧
    (s.setBuf b x).parts = s.parts ∧ (s.setBuf b x).boot = s.boot ∧ (s.setBuf b x).pins = s.pins ∧ (s.setBuf b x).chain =
    s.chain ∧ (s.setBuf b x).dict = s.dict ∧ (s.setBuf b x).models = s.models ∧ (s.setBuf b x).stakes = s.stakes ∧
    (s.setBuf b x).steps = s.steps ∧ (s.setBuf b x).nextStep = s.nextStep ∧ (s.setBuf b x).store = s.store ∧ (s.setBuf b
    x).seqs = s.seqs ∧ (s.setBuf b x).prefixes = s.prefixes ∧ (s.setBuf b x).nextPrefix = s.nextPrefix ∧ (s.setBuf b x).rx
    = s.rx ∧ (s.setBuf b x).assemblies = s.assemblies ∧ (s.setBuf b x).preCancels = s.preCancels ∧ (s.setBuf b x).idWins =
    s.idWins ∧ (s.setBuf b x).reqs = s.reqs ∧ (s.setBuf b x).nextReq = s.nextReq ∧ (s.setBuf b x).gate = s.gate ∧
    (s.setBuf b x).arb = s.arb ∧ (s.setBuf b x).tx = s.tx ∧ (s.setBuf b x).pcie = s.pcie ∧ (s.setBuf b x).pool = s.pool ∧
    (s.setBuf b x).tables = s.tables ∧ (s.setBuf b x).peers = s.peers ∧ (s.setBuf b x).vocabs = s.vocabs ∧ (s.setBuf b
    x).grammars = s.grammars ∧ (s.setBuf b x).trieQ = s.trieQ ∧ (s.setBuf b x).tries = s.tries ∧ (s.setBuf b x).masks =
    s.masks ∧ (s.setBuf b x).dice = s.dice ∧ (s.setBuf b x).index = s.index ∧ (s.setBuf b x).pending = s.pending ∧ ∀ k',
    (s.setBuf b x).o k' = s.o k' := by
  and_intros <;> first | rfl | exact fun _ => rfl

@[simp] theorem State.setFn_frame (s : State) (f) (x) :
    (s.setFn f x).od = s.od ∧ (s.setFn f x).blobs = s.blobs ∧ (s.setFn f x).freeCtr = s.freeCtr ∧ (s.setFn f x).arrs =
    s.arrs ∧ (s.setFn f x).residents = s.residents ∧ (s.setFn f x).incrs = s.incrs ∧ (s.setFn f x).cores = s.cores ∧
    (s.setFn f x).keepers = s.keepers ∧ (s.setFn f x).mboxes = s.mboxes ∧ (s.setFn f x).mem = s.mem ∧ (s.setFn f x).slots
    = s.slots ∧ (s.setFn f x).power = s.power ∧ (s.setFn f x).recs = s.recs ∧ (s.setFn f x).aged = s.aged ∧ (s.setFn f
    x).parts = s.parts ∧ (s.setFn f x).boot = s.boot ∧ (s.setFn f x).pins = s.pins ∧ (s.setFn f x).chain = s.chain ∧
    (s.setFn f x).dict = s.dict ∧ (s.setFn f x).models = s.models ∧ (s.setFn f x).stakes = s.stakes ∧ (s.setFn f x).steps
    = s.steps ∧ (s.setFn f x).nextStep = s.nextStep ∧ (s.setFn f x).store = s.store ∧ (s.setFn f x).seqs = s.seqs ∧
    (s.setFn f x).prefixes = s.prefixes ∧ (s.setFn f x).nextPrefix = s.nextPrefix ∧ (s.setFn f x).rx = s.rx ∧ (s.setFn f
    x).assemblies = s.assemblies ∧ (s.setFn f x).preCancels = s.preCancels ∧ (s.setFn f x).idWins = s.idWins ∧ (s.setFn f
    x).bufs = s.bufs ∧ (s.setFn f x).reqs = s.reqs ∧ (s.setFn f x).nextReq = s.nextReq ∧ (s.setFn f x).gate = s.gate ∧
    (s.setFn f x).arb = s.arb ∧ (s.setFn f x).tx = s.tx ∧ (s.setFn f x).pool = s.pool ∧ (s.setFn f x).tables = s.tables ∧
    (s.setFn f x).peers = s.peers ∧ (s.setFn f x).vocabs = s.vocabs ∧ (s.setFn f x).grammars = s.grammars ∧ (s.setFn f
    x).trieQ = s.trieQ ∧ (s.setFn f x).tries = s.tries ∧ (s.setFn f x).masks = s.masks ∧ (s.setFn f x).dice = s.dice ∧
    (s.setFn f x).index = s.index ∧ (s.setFn f x).pending = s.pending ∧ ∀ k', (s.setFn f x).o k' = s.o k' := by
  and_intros <;> first | rfl | exact fun _ => rfl

@[simp] theorem State.setReq_frame (s : State) (r) (x) :
    (s.setReq r x).od = s.od ∧ (s.setReq r x).blobs = s.blobs ∧ (s.setReq r x).freeCtr = s.freeCtr ∧ (s.setReq r x).arrs =
    s.arrs ∧ (s.setReq r x).residents = s.residents ∧ (s.setReq r x).incrs = s.incrs ∧ (s.setReq r x).cores = s.cores ∧
    (s.setReq r x).keepers = s.keepers ∧ (s.setReq r x).mboxes = s.mboxes ∧ (s.setReq r x).mem = s.mem ∧ (s.setReq r
    x).slots = s.slots ∧ (s.setReq r x).power = s.power ∧ (s.setReq r x).recs = s.recs ∧ (s.setReq r x).aged = s.aged ∧
    (s.setReq r x).parts = s.parts ∧ (s.setReq r x).boot = s.boot ∧ (s.setReq r x).pins = s.pins ∧ (s.setReq r x).chain =
    s.chain ∧ (s.setReq r x).dict = s.dict ∧ (s.setReq r x).models = s.models ∧ (s.setReq r x).stakes = s.stakes ∧
    (s.setReq r x).steps = s.steps ∧ (s.setReq r x).nextStep = s.nextStep ∧ (s.setReq r x).store = s.store ∧ (s.setReq r
    x).seqs = s.seqs ∧ (s.setReq r x).prefixes = s.prefixes ∧ (s.setReq r x).nextPrefix = s.nextPrefix ∧ (s.setReq r x).rx
    = s.rx ∧ (s.setReq r x).assemblies = s.assemblies ∧ (s.setReq r x).preCancels = s.preCancels ∧ (s.setReq r x).idWins =
    s.idWins ∧ (s.setReq r x).bufs = s.bufs ∧ (s.setReq r x).nextReq = s.nextReq ∧ (s.setReq r x).gate = s.gate ∧
    (s.setReq r x).arb = s.arb ∧ (s.setReq r x).tx = s.tx ∧ (s.setReq r x).pcie = s.pcie ∧ (s.setReq r x).pool = s.pool ∧
    (s.setReq r x).tables = s.tables ∧ (s.setReq r x).peers = s.peers ∧ (s.setReq r x).vocabs = s.vocabs ∧ (s.setReq r
    x).grammars = s.grammars ∧ (s.setReq r x).trieQ = s.trieQ ∧ (s.setReq r x).tries = s.tries ∧ (s.setReq r x).masks =
    s.masks ∧ (s.setReq r x).dice = s.dice ∧ (s.setReq r x).index = s.index ∧ (s.setReq r x).pending = s.pending ∧ ∀ k',
    (s.setReq r x).o k' = s.o k' := by
  and_intros <;> first | rfl | exact fun _ => rfl

@[simp] theorem State.setIdWin_frame (s : State) (t) (w) :
    (s.setIdWin t w).od = s.od ∧ (s.setIdWin t w).blobs = s.blobs ∧ (s.setIdWin t w).freeCtr = s.freeCtr ∧ (s.setIdWin t
    w).arrs = s.arrs ∧ (s.setIdWin t w).residents = s.residents ∧ (s.setIdWin t w).incrs = s.incrs ∧ (s.setIdWin t
    w).cores = s.cores ∧ (s.setIdWin t w).keepers = s.keepers ∧ (s.setIdWin t w).mboxes = s.mboxes ∧ (s.setIdWin t w).mem
    = s.mem ∧ (s.setIdWin t w).slots = s.slots ∧ (s.setIdWin t w).power = s.power ∧ (s.setIdWin t w).recs = s.recs ∧
    (s.setIdWin t w).aged = s.aged ∧ (s.setIdWin t w).parts = s.parts ∧ (s.setIdWin t w).boot = s.boot ∧ (s.setIdWin t
    w).pins = s.pins ∧ (s.setIdWin t w).chain = s.chain ∧ (s.setIdWin t w).dict = s.dict ∧ (s.setIdWin t w).models =
    s.models ∧ (s.setIdWin t w).stakes = s.stakes ∧ (s.setIdWin t w).steps = s.steps ∧ (s.setIdWin t w).nextStep =
    s.nextStep ∧ (s.setIdWin t w).store = s.store ∧ (s.setIdWin t w).seqs = s.seqs ∧ (s.setIdWin t w).prefixes =
    s.prefixes ∧ (s.setIdWin t w).nextPrefix = s.nextPrefix ∧ (s.setIdWin t w).rx = s.rx ∧ (s.setIdWin t w).assemblies =
    s.assemblies ∧ (s.setIdWin t w).preCancels = s.preCancels ∧ (s.setIdWin t w).bufs = s.bufs ∧ (s.setIdWin t w).reqs =
    s.reqs ∧ (s.setIdWin t w).nextReq = s.nextReq ∧ (s.setIdWin t w).gate = s.gate ∧ (s.setIdWin t w).arb = s.arb ∧
    (s.setIdWin t w).tx = s.tx ∧ (s.setIdWin t w).pcie = s.pcie ∧ (s.setIdWin t w).pool = s.pool ∧ (s.setIdWin t w).tables
    = s.tables ∧ (s.setIdWin t w).peers = s.peers ∧ (s.setIdWin t w).vocabs = s.vocabs ∧ (s.setIdWin t w).grammars =
    s.grammars ∧ (s.setIdWin t w).trieQ = s.trieQ ∧ (s.setIdWin t w).tries = s.tries ∧ (s.setIdWin t w).masks = s.masks ∧
    (s.setIdWin t w).dice = s.dice ∧ (s.setIdWin t w).index = s.index ∧ (s.setIdWin t w).pending = s.pending ∧ ∀ k',
    (s.setIdWin t w).o k' = s.o k' := by
  and_intros <;> first | rfl | exact fun _ => rfl

@[simp] theorem State.setTslot_frame (s : State) (t) (x) :
    (s.setTslot t x).od = s.od ∧ (s.setTslot t x).blobs = s.blobs ∧ (s.setTslot t x).freeCtr = s.freeCtr ∧ (s.setTslot t
    x).arrs = s.arrs ∧ (s.setTslot t x).residents = s.residents ∧ (s.setTslot t x).incrs = s.incrs ∧ (s.setTslot t
    x).cores = s.cores ∧ (s.setTslot t x).keepers = s.keepers ∧ (s.setTslot t x).mboxes = s.mboxes ∧ (s.setTslot t x).mem
    = s.mem ∧ (s.setTslot t x).slots = s.slots ∧ (s.setTslot t x).power = s.power ∧ (s.setTslot t x).recs = s.recs ∧
    (s.setTslot t x).aged = s.aged ∧ (s.setTslot t x).parts = s.parts ∧ (s.setTslot t x).boot = s.boot ∧ (s.setTslot t
    x).pins = s.pins ∧ (s.setTslot t x).chain = s.chain ∧ (s.setTslot t x).dict = s.dict ∧ (s.setTslot t x).models =
    s.models ∧ (s.setTslot t x).stakes = s.stakes ∧ (s.setTslot t x).steps = s.steps ∧ (s.setTslot t x).nextStep =
    s.nextStep ∧ (s.setTslot t x).store = s.store ∧ (s.setTslot t x).seqs = s.seqs ∧ (s.setTslot t x).prefixes =
    s.prefixes ∧ (s.setTslot t x).nextPrefix = s.nextPrefix ∧ (s.setTslot t x).rx = s.rx ∧ (s.setTslot t x).assemblies =
    s.assemblies ∧ (s.setTslot t x).preCancels = s.preCancels ∧ (s.setTslot t x).idWins = s.idWins ∧ (s.setTslot t x).bufs
    = s.bufs ∧ (s.setTslot t x).reqs = s.reqs ∧ (s.setTslot t x).nextReq = s.nextReq ∧ (s.setTslot t x).gate = s.gate ∧
    (s.setTslot t x).arb = s.arb ∧ (s.setTslot t x).tx = s.tx ∧ (s.setTslot t x).pcie = s.pcie ∧ (s.setTslot t x).pool =
    s.pool ∧ (s.setTslot t x).peers = s.peers ∧ (s.setTslot t x).vocabs = s.vocabs ∧ (s.setTslot t x).grammars =
    s.grammars ∧ (s.setTslot t x).trieQ = s.trieQ ∧ (s.setTslot t x).tries = s.tries ∧ (s.setTslot t x).masks = s.masks ∧
    (s.setTslot t x).dice = s.dice ∧ (s.setTslot t x).index = s.index ∧ (s.setTslot t x).pending = s.pending ∧ ∀ k',
    (s.setTslot t x).o k' = s.o k' := by
  and_intros <;> first | rfl | exact fun _ => rfl

@[simp] theorem State.setPool_frame (s : State) (x) :
    (s.setPool x).od = s.od ∧ (s.setPool x).blobs = s.blobs ∧ (s.setPool x).freeCtr = s.freeCtr ∧ (s.setPool x).arrs =
    s.arrs ∧ (s.setPool x).residents = s.residents ∧ (s.setPool x).incrs = s.incrs ∧ (s.setPool x).cores = s.cores ∧
    (s.setPool x).keepers = s.keepers ∧ (s.setPool x).mboxes = s.mboxes ∧ (s.setPool x).mem = s.mem ∧ (s.setPool x).slots
    = s.slots ∧ (s.setPool x).power = s.power ∧ (s.setPool x).recs = s.recs ∧ (s.setPool x).aged = s.aged ∧ (s.setPool
    x).parts = s.parts ∧ (s.setPool x).boot = s.boot ∧ (s.setPool x).pins = s.pins ∧ (s.setPool x).chain = s.chain ∧
    (s.setPool x).dict = s.dict ∧ (s.setPool x).models = s.models ∧ (s.setPool x).stakes = s.stakes ∧ (s.setPool x).steps
    = s.steps ∧ (s.setPool x).nextStep = s.nextStep ∧ (s.setPool x).store = s.store ∧ (s.setPool x).seqs = s.seqs ∧
    (s.setPool x).prefixes = s.prefixes ∧ (s.setPool x).nextPrefix = s.nextPrefix ∧ (s.setPool x).rx = s.rx ∧ (s.setPool
    x).assemblies = s.assemblies ∧ (s.setPool x).preCancels = s.preCancels ∧ (s.setPool x).idWins = s.idWins ∧ (s.setPool
    x).bufs = s.bufs ∧ (s.setPool x).reqs = s.reqs ∧ (s.setPool x).nextReq = s.nextReq ∧ (s.setPool x).gate = s.gate ∧
    (s.setPool x).arb = s.arb ∧ (s.setPool x).tx = s.tx ∧ (s.setPool x).pcie = s.pcie ∧ (s.setPool x).tables = s.tables ∧
    (s.setPool x).peers = s.peers ∧ (s.setPool x).vocabs = s.vocabs ∧ (s.setPool x).grammars = s.grammars ∧ (s.setPool
    x).trieQ = s.trieQ ∧ (s.setPool x).tries = s.tries ∧ (s.setPool x).masks = s.masks ∧ (s.setPool x).dice = s.dice ∧
    (s.setPool x).index = s.index ∧ (s.setPool x).pending = s.pending ∧ ∀ k', (s.setPool x).o k' = s.o k' := by
  and_intros <;> first | rfl | exact fun _ => rfl

@[simp] theorem State.setVslot_frame (s : State) (v) (x) :
    (s.setVslot v x).od = s.od ∧ (s.setVslot v x).blobs = s.blobs ∧ (s.setVslot v x).freeCtr = s.freeCtr ∧ (s.setVslot v
    x).arrs = s.arrs ∧ (s.setVslot v x).residents = s.residents ∧ (s.setVslot v x).incrs = s.incrs ∧ (s.setVslot v
    x).cores = s.cores ∧ (s.setVslot v x).keepers = s.keepers ∧ (s.setVslot v x).mboxes = s.mboxes ∧ (s.setVslot v x).mem
    = s.mem ∧ (s.setVslot v x).slots = s.slots ∧ (s.setVslot v x).power = s.power ∧ (s.setVslot v x).recs = s.recs ∧
    (s.setVslot v x).aged = s.aged ∧ (s.setVslot v x).parts = s.parts ∧ (s.setVslot v x).boot = s.boot ∧ (s.setVslot v
    x).pins = s.pins ∧ (s.setVslot v x).chain = s.chain ∧ (s.setVslot v x).dict = s.dict ∧ (s.setVslot v x).models =
    s.models ∧ (s.setVslot v x).stakes = s.stakes ∧ (s.setVslot v x).steps = s.steps ∧ (s.setVslot v x).nextStep =
    s.nextStep ∧ (s.setVslot v x).store = s.store ∧ (s.setVslot v x).seqs = s.seqs ∧ (s.setVslot v x).prefixes =
    s.prefixes ∧ (s.setVslot v x).nextPrefix = s.nextPrefix ∧ (s.setVslot v x).rx = s.rx ∧ (s.setVslot v x).assemblies =
    s.assemblies ∧ (s.setVslot v x).preCancels = s.preCancels ∧ (s.setVslot v x).idWins = s.idWins ∧ (s.setVslot v x).bufs
    = s.bufs ∧ (s.setVslot v x).reqs = s.reqs ∧ (s.setVslot v x).nextReq = s.nextReq ∧ (s.setVslot v x).gate = s.gate ∧
    (s.setVslot v x).arb = s.arb ∧ (s.setVslot v x).tx = s.tx ∧ (s.setVslot v x).pcie = s.pcie ∧ (s.setVslot v x).pool =
    s.pool ∧ (s.setVslot v x).tables = s.tables ∧ (s.setVslot v x).peers = s.peers ∧ (s.setVslot v x).grammars =
    s.grammars ∧ (s.setVslot v x).trieQ = s.trieQ ∧ (s.setVslot v x).tries = s.tries ∧ (s.setVslot v x).masks = s.masks ∧
    (s.setVslot v x).dice = s.dice ∧ (s.setVslot v x).index = s.index ∧ (s.setVslot v x).pending = s.pending ∧ ∀ k',
    (s.setVslot v x).o k' = s.o k' := by
  and_intros <;> first | rfl | exact fun _ => rfl

@[simp] theorem State.setDice_frame (s : State) (u) (x) :
    (s.setDice u x).od = s.od ∧ (s.setDice u x).blobs = s.blobs ∧ (s.setDice u x).freeCtr = s.freeCtr ∧ (s.setDice u
    x).arrs = s.arrs ∧ (s.setDice u x).residents = s.residents ∧ (s.setDice u x).incrs = s.incrs ∧ (s.setDice u x).cores =
    s.cores ∧ (s.setDice u x).keepers = s.keepers ∧ (s.setDice u x).mboxes = s.mboxes ∧ (s.setDice u x).mem = s.mem ∧
    (s.setDice u x).slots = s.slots ∧ (s.setDice u x).power = s.power ∧ (s.setDice u x).recs = s.recs ∧ (s.setDice u
    x).aged = s.aged ∧ (s.setDice u x).parts = s.parts ∧ (s.setDice u x).boot = s.boot ∧ (s.setDice u x).pins = s.pins ∧
    (s.setDice u x).chain = s.chain ∧ (s.setDice u x).dict = s.dict ∧ (s.setDice u x).models = s.models ∧ (s.setDice u
    x).stakes = s.stakes ∧ (s.setDice u x).steps = s.steps ∧ (s.setDice u x).nextStep = s.nextStep ∧ (s.setDice u x).store
    = s.store ∧ (s.setDice u x).seqs = s.seqs ∧ (s.setDice u x).prefixes = s.prefixes ∧ (s.setDice u x).nextPrefix =
    s.nextPrefix ∧ (s.setDice u x).rx = s.rx ∧ (s.setDice u x).assemblies = s.assemblies ∧ (s.setDice u x).preCancels =
    s.preCancels ∧ (s.setDice u x).idWins = s.idWins ∧ (s.setDice u x).bufs = s.bufs ∧ (s.setDice u x).reqs = s.reqs ∧
    (s.setDice u x).nextReq = s.nextReq ∧ (s.setDice u x).gate = s.gate ∧ (s.setDice u x).arb = s.arb ∧ (s.setDice u x).tx
    = s.tx ∧ (s.setDice u x).pcie = s.pcie ∧ (s.setDice u x).pool = s.pool ∧ (s.setDice u x).tables = s.tables ∧
    (s.setDice u x).peers = s.peers ∧ (s.setDice u x).vocabs = s.vocabs ∧ (s.setDice u x).grammars = s.grammars ∧
    (s.setDice u x).trieQ = s.trieQ ∧ (s.setDice u x).tries = s.tries ∧ (s.setDice u x).masks = s.masks ∧ (s.setDice u
    x).index = s.index ∧ (s.setDice u x).pending = s.pending ∧ ∀ k', (s.setDice u x).o k' = s.o k' := by
  and_intros <;> first | rfl | exact fun _ => rfl

@[simp] theorem State.setGslot_frame (s : State) (g) (x) :
    (s.setGslot g x).od = s.od ∧ (s.setGslot g x).blobs = s.blobs ∧ (s.setGslot g x).freeCtr = s.freeCtr ∧ (s.setGslot g
    x).arrs = s.arrs ∧ (s.setGslot g x).residents = s.residents ∧ (s.setGslot g x).incrs = s.incrs ∧ (s.setGslot g
    x).cores = s.cores ∧ (s.setGslot g x).keepers = s.keepers ∧ (s.setGslot g x).mboxes = s.mboxes ∧ (s.setGslot g x).mem
    = s.mem ∧ (s.setGslot g x).slots = s.slots ∧ (s.setGslot g x).power = s.power ∧ (s.setGslot g x).recs = s.recs ∧
    (s.setGslot g x).aged = s.aged ∧ (s.setGslot g x).parts = s.parts ∧ (s.setGslot g x).boot = s.boot ∧ (s.setGslot g
    x).pins = s.pins ∧ (s.setGslot g x).chain = s.chain ∧ (s.setGslot g x).dict = s.dict ∧ (s.setGslot g x).models =
    s.models ∧ (s.setGslot g x).stakes = s.stakes ∧ (s.setGslot g x).steps = s.steps ∧ (s.setGslot g x).nextStep =
    s.nextStep ∧ (s.setGslot g x).store = s.store ∧ (s.setGslot g x).seqs = s.seqs ∧ (s.setGslot g x).prefixes =
    s.prefixes ∧ (s.setGslot g x).nextPrefix = s.nextPrefix ∧ (s.setGslot g x).rx = s.rx ∧ (s.setGslot g x).assemblies =
    s.assemblies ∧ (s.setGslot g x).preCancels = s.preCancels ∧ (s.setGslot g x).idWins = s.idWins ∧ (s.setGslot g x).bufs
    = s.bufs ∧ (s.setGslot g x).reqs = s.reqs ∧ (s.setGslot g x).nextReq = s.nextReq ∧ (s.setGslot g x).gate = s.gate ∧
    (s.setGslot g x).arb = s.arb ∧ (s.setGslot g x).tx = s.tx ∧ (s.setGslot g x).pcie = s.pcie ∧ (s.setGslot g x).pool =
    s.pool ∧ (s.setGslot g x).tables = s.tables ∧ (s.setGslot g x).peers = s.peers ∧ (s.setGslot g x).vocabs = s.vocabs ∧
    (s.setGslot g x).trieQ = s.trieQ ∧ (s.setGslot g x).tries = s.tries ∧ (s.setGslot g x).masks = s.masks ∧ (s.setGslot g
    x).dice = s.dice ∧ (s.setGslot g x).index = s.index ∧ (s.setGslot g x).pending = s.pending ∧ ∀ k', (s.setGslot g x).o
    k' = s.o k' := by
  and_intros <;> first | rfl | exact fun _ => rfl

@[simp] theorem State.setStake_frame (s : State) (n) (x) :
    (s.setStake n x).od = s.od ∧ (s.setStake n x).blobs = s.blobs ∧ (s.setStake n x).freeCtr = s.freeCtr ∧ (s.setStake n
    x).arrs = s.arrs ∧ (s.setStake n x).residents = s.residents ∧ (s.setStake n x).incrs = s.incrs ∧ (s.setStake n
    x).cores = s.cores ∧ (s.setStake n x).keepers = s.keepers ∧ (s.setStake n x).mboxes = s.mboxes ∧ (s.setStake n x).mem
    = s.mem ∧ (s.setStake n x).slots = s.slots ∧ (s.setStake n x).power = s.power ∧ (s.setStake n x).recs = s.recs ∧
    (s.setStake n x).aged = s.aged ∧ (s.setStake n x).parts = s.parts ∧ (s.setStake n x).boot = s.boot ∧ (s.setStake n
    x).pins = s.pins ∧ (s.setStake n x).chain = s.chain ∧ (s.setStake n x).dict = s.dict ∧ (s.setStake n x).models =
    s.models ∧ (s.setStake n x).steps = s.steps ∧ (s.setStake n x).nextStep = s.nextStep ∧ (s.setStake n x).store =
    s.store ∧ (s.setStake n x).seqs = s.seqs ∧ (s.setStake n x).prefixes = s.prefixes ∧ (s.setStake n x).nextPrefix =
    s.nextPrefix ∧ (s.setStake n x).rx = s.rx ∧ (s.setStake n x).assemblies = s.assemblies ∧ (s.setStake n x).preCancels =
    s.preCancels ∧ (s.setStake n x).idWins = s.idWins ∧ (s.setStake n x).bufs = s.bufs ∧ (s.setStake n x).reqs = s.reqs ∧
    (s.setStake n x).nextReq = s.nextReq ∧ (s.setStake n x).gate = s.gate ∧ (s.setStake n x).arb = s.arb ∧ (s.setStake n
    x).tx = s.tx ∧ (s.setStake n x).pcie = s.pcie ∧ (s.setStake n x).pool = s.pool ∧ (s.setStake n x).tables = s.tables ∧
    (s.setStake n x).peers = s.peers ∧ (s.setStake n x).vocabs = s.vocabs ∧ (s.setStake n x).grammars = s.grammars ∧
    (s.setStake n x).trieQ = s.trieQ ∧ (s.setStake n x).tries = s.tries ∧ (s.setStake n x).masks = s.masks ∧ (s.setStake n
    x).dice = s.dice ∧ (s.setStake n x).index = s.index ∧ (s.setStake n x).pending = s.pending ∧ ∀ k', (s.setStake n x).o
    k' = s.o k' := by
  and_intros <;> first | rfl | exact fun _ => rfl

@[simp] theorem State.setStep_frame (s : State) (k) (x) :
    (s.setStep k x).od = s.od ∧ (s.setStep k x).blobs = s.blobs ∧ (s.setStep k x).freeCtr = s.freeCtr ∧ (s.setStep k
    x).arrs = s.arrs ∧ (s.setStep k x).residents = s.residents ∧ (s.setStep k x).incrs = s.incrs ∧ (s.setStep k x).cores =
    s.cores ∧ (s.setStep k x).keepers = s.keepers ∧ (s.setStep k x).mboxes = s.mboxes ∧ (s.setStep k x).mem = s.mem ∧
    (s.setStep k x).slots = s.slots ∧ (s.setStep k x).power = s.power ∧ (s.setStep k x).recs = s.recs ∧ (s.setStep k
    x).aged = s.aged ∧ (s.setStep k x).parts = s.parts ∧ (s.setStep k x).boot = s.boot ∧ (s.setStep k x).pins = s.pins ∧
    (s.setStep k x).chain = s.chain ∧ (s.setStep k x).dict = s.dict ∧ (s.setStep k x).models = s.models ∧ (s.setStep k
    x).stakes = s.stakes ∧ (s.setStep k x).nextStep = s.nextStep ∧ (s.setStep k x).store = s.store ∧ (s.setStep k x).seqs
    = s.seqs ∧ (s.setStep k x).prefixes = s.prefixes ∧ (s.setStep k x).nextPrefix = s.nextPrefix ∧ (s.setStep k x).rx =
    s.rx ∧ (s.setStep k x).assemblies = s.assemblies ∧ (s.setStep k x).preCancels = s.preCancels ∧ (s.setStep k x).idWins
    = s.idWins ∧ (s.setStep k x).bufs = s.bufs ∧ (s.setStep k x).reqs = s.reqs ∧ (s.setStep k x).nextReq = s.nextReq ∧
    (s.setStep k x).gate = s.gate ∧ (s.setStep k x).arb = s.arb ∧ (s.setStep k x).tx = s.tx ∧ (s.setStep k x).pcie =
    s.pcie ∧ (s.setStep k x).pool = s.pool ∧ (s.setStep k x).tables = s.tables ∧ (s.setStep k x).peers = s.peers ∧
    (s.setStep k x).vocabs = s.vocabs ∧ (s.setStep k x).grammars = s.grammars ∧ (s.setStep k x).trieQ = s.trieQ ∧
    (s.setStep k x).tries = s.tries ∧ (s.setStep k x).masks = s.masks ∧ (s.setStep k x).dice = s.dice ∧ (s.setStep k
    x).index = s.index ∧ (s.setStep k x).pending = s.pending ∧ ∀ k', (s.setStep k x).o k' = s.o k' := by
  and_intros <;> first | rfl | exact fun _ => rfl

@[simp] theorem State.setPeer_frame (s : State) (l) (x) :
    (s.setPeer l x).od = s.od ∧ (s.setPeer l x).blobs = s.blobs ∧ (s.setPeer l x).freeCtr = s.freeCtr ∧ (s.setPeer l
    x).arrs = s.arrs ∧ (s.setPeer l x).residents = s.residents ∧ (s.setPeer l x).incrs = s.incrs ∧ (s.setPeer l x).cores =
    s.cores ∧ (s.setPeer l x).keepers = s.keepers ∧ (s.setPeer l x).mboxes = s.mboxes ∧ (s.setPeer l x).mem = s.mem ∧
    (s.setPeer l x).slots = s.slots ∧ (s.setPeer l x).power = s.power ∧ (s.setPeer l x).recs = s.recs ∧ (s.setPeer l
    x).aged = s.aged ∧ (s.setPeer l x).parts = s.parts ∧ (s.setPeer l x).boot = s.boot ∧ (s.setPeer l x).pins = s.pins ∧
    (s.setPeer l x).chain = s.chain ∧ (s.setPeer l x).dict = s.dict ∧ (s.setPeer l x).models = s.models ∧ (s.setPeer l
    x).stakes = s.stakes ∧ (s.setPeer l x).steps = s.steps ∧ (s.setPeer l x).nextStep = s.nextStep ∧ (s.setPeer l x).store
    = s.store ∧ (s.setPeer l x).seqs = s.seqs ∧ (s.setPeer l x).prefixes = s.prefixes ∧ (s.setPeer l x).nextPrefix =
    s.nextPrefix ∧ (s.setPeer l x).rx = s.rx ∧ (s.setPeer l x).assemblies = s.assemblies ∧ (s.setPeer l x).preCancels =
    s.preCancels ∧ (s.setPeer l x).idWins = s.idWins ∧ (s.setPeer l x).bufs = s.bufs ∧ (s.setPeer l x).reqs = s.reqs ∧
    (s.setPeer l x).nextReq = s.nextReq ∧ (s.setPeer l x).gate = s.gate ∧ (s.setPeer l x).arb = s.arb ∧ (s.setPeer l x).tx
    = s.tx ∧ (s.setPeer l x).pcie = s.pcie ∧ (s.setPeer l x).pool = s.pool ∧ (s.setPeer l x).tables = s.tables ∧
    (s.setPeer l x).vocabs = s.vocabs ∧ (s.setPeer l x).grammars = s.grammars ∧ (s.setPeer l x).trieQ = s.trieQ ∧
    (s.setPeer l x).tries = s.tries ∧ (s.setPeer l x).masks = s.masks ∧ (s.setPeer l x).dice = s.dice ∧ (s.setPeer l
    x).index = s.index ∧ (s.setPeer l x).pending = s.pending ∧ ∀ k', (s.setPeer l x).o k' = s.o k' := by
  and_intros <;> first | rfl | exact fun _ => rfl

@[simp] theorem State.setStoreObj_frame (s : State) (n) (x) :
    (s.setStoreObj n x).od = s.od ∧ (s.setStoreObj n x).blobs = s.blobs ∧ (s.setStoreObj n x).freeCtr = s.freeCtr ∧
    (s.setStoreObj n x).arrs = s.arrs ∧ (s.setStoreObj n x).residents = s.residents ∧ (s.setStoreObj n x).incrs = s.incrs
    ∧ (s.setStoreObj n x).cores = s.cores ∧ (s.setStoreObj n x).keepers = s.keepers ∧ (s.setStoreObj n x).mboxes =
    s.mboxes ∧ (s.setStoreObj n x).mem = s.mem ∧ (s.setStoreObj n x).slots = s.slots ∧ (s.setStoreObj n x).power = s.power
    ∧ (s.setStoreObj n x).recs = s.recs ∧ (s.setStoreObj n x).aged = s.aged ∧ (s.setStoreObj n x).parts = s.parts ∧
    (s.setStoreObj n x).boot = s.boot ∧ (s.setStoreObj n x).pins = s.pins ∧ (s.setStoreObj n x).chain = s.chain ∧
    (s.setStoreObj n x).dict = s.dict ∧ (s.setStoreObj n x).models = s.models ∧ (s.setStoreObj n x).stakes = s.stakes ∧
    (s.setStoreObj n x).steps = s.steps ∧ (s.setStoreObj n x).nextStep = s.nextStep ∧ (s.setStoreObj n x).seqs = s.seqs ∧
    (s.setStoreObj n x).prefixes = s.prefixes ∧ (s.setStoreObj n x).nextPrefix = s.nextPrefix ∧ (s.setStoreObj n x).rx =
    s.rx ∧ (s.setStoreObj n x).assemblies = s.assemblies ∧ (s.setStoreObj n x).preCancels = s.preCancels ∧ (s.setStoreObj
    n x).idWins = s.idWins ∧ (s.setStoreObj n x).bufs = s.bufs ∧ (s.setStoreObj n x).reqs = s.reqs ∧ (s.setStoreObj n
    x).nextReq = s.nextReq ∧ (s.setStoreObj n x).gate = s.gate ∧ (s.setStoreObj n x).arb = s.arb ∧ (s.setStoreObj n x).tx
    = s.tx ∧ (s.setStoreObj n x).pcie = s.pcie ∧ (s.setStoreObj n x).pool = s.pool ∧ (s.setStoreObj n x).tables = s.tables
    ∧ (s.setStoreObj n x).peers = s.peers ∧ (s.setStoreObj n x).vocabs = s.vocabs ∧ (s.setStoreObj n x).grammars =
    s.grammars ∧ (s.setStoreObj n x).trieQ = s.trieQ ∧ (s.setStoreObj n x).tries = s.tries ∧ (s.setStoreObj n x).masks =
    s.masks ∧ (s.setStoreObj n x).dice = s.dice ∧ (s.setStoreObj n x).index = s.index ∧ (s.setStoreObj n x).pending =
    s.pending ∧ ∀ k', (s.setStoreObj n x).o k' = s.o k' := by
  and_intros <;> first | rfl | exact fun _ => rfl

@[simp] theorem State.rxPop_frame (s : State) (port) :
    (s.rxPop port).od = s.od ∧ (s.rxPop port).blobs = s.blobs ∧ (s.rxPop port).freeCtr = s.freeCtr ∧ (s.rxPop port).arrs =
    s.arrs ∧ (s.rxPop port).residents = s.residents ∧ (s.rxPop port).incrs = s.incrs ∧ (s.rxPop port).cores = s.cores ∧
    (s.rxPop port).keepers = s.keepers ∧ (s.rxPop port).mboxes = s.mboxes ∧ (s.rxPop port).mem = s.mem ∧ (s.rxPop
    port).slots = s.slots ∧ (s.rxPop port).power = s.power ∧ (s.rxPop port).recs = s.recs ∧ (s.rxPop port).aged = s.aged ∧
    (s.rxPop port).parts = s.parts ∧ (s.rxPop port).boot = s.boot ∧ (s.rxPop port).pins = s.pins ∧ (s.rxPop port).chain =
    s.chain ∧ (s.rxPop port).dict = s.dict ∧ (s.rxPop port).models = s.models ∧ (s.rxPop port).stakes = s.stakes ∧
    (s.rxPop port).steps = s.steps ∧ (s.rxPop port).nextStep = s.nextStep ∧ (s.rxPop port).store = s.store ∧ (s.rxPop
    port).seqs = s.seqs ∧ (s.rxPop port).prefixes = s.prefixes ∧ (s.rxPop port).nextPrefix = s.nextPrefix ∧ (s.rxPop
    port).assemblies = s.assemblies ∧ (s.rxPop port).preCancels = s.preCancels ∧ (s.rxPop port).idWins = s.idWins ∧
    (s.rxPop port).bufs = s.bufs ∧ (s.rxPop port).reqs = s.reqs ∧ (s.rxPop port).nextReq = s.nextReq ∧ (s.rxPop port).gate
    = s.gate ∧ (s.rxPop port).arb = s.arb ∧ (s.rxPop port).tx = s.tx ∧ (s.rxPop port).pcie = s.pcie ∧ (s.rxPop port).pool
    = s.pool ∧ (s.rxPop port).tables = s.tables ∧ (s.rxPop port).peers = s.peers ∧ (s.rxPop port).vocabs = s.vocabs ∧
    (s.rxPop port).grammars = s.grammars ∧ (s.rxPop port).trieQ = s.trieQ ∧ (s.rxPop port).tries = s.tries ∧ (s.rxPop
    port).masks = s.masks ∧ (s.rxPop port).dice = s.dice ∧ (s.rxPop port).index = s.index ∧ (s.rxPop port).pending =
    s.pending ∧ ∀ k', (s.rxPop port).o k' = s.o k' := by
  and_intros <;> first | rfl | exact fun _ => rfl

/-! ## What each update writes -/

theorem State.o_eq (s : State) (k : Nat) : s.o k = tGet (odDefault k) s.od k := rfl

/-- The objects are all that reading an object reads. -/
theorem State.o_congr {s t : State} (h : s.od = t.od) (k : Nat) : s.o k = t.o k := by
  rw [State.o_eq, State.o_eq, h]

theorem State.o_setO (s : State) (k v k' : Nat) :
    (s.setO k v).o k' = if k' = k then v % 2 ^ odWidth k else s.o k' := by
  by_cases h : k' = k
  · subst h
    simp [State.o, State.setO]
  · simp only [State.o, State.setO, if_neg h]
    exact tGet_tSet_ne _ _ _ _ h

@[simp] theorem State.o_setO_same (s : State) (k v : Nat) : (s.setO k v).o k = v % 2 ^ odWidth k := by
  simp [State.o_setO]

theorem State.o_setO_ne (s : State) {k k' : Nat} (v : Nat) (h : k' ≠ k) : (s.setO k v).o k' = s.o k' := by
  simp [State.o_setO, h]

theorem State.o_addO (s : State) (k n k' : Nat) :
    (s.addO k n).o k' = if k' = k then (s.o k + n) % 2 ^ odWidth k else s.o k' := State.o_setO s k _ k'

theorem State.o_subO (s : State) (k n k' : Nat) :
    (s.subO k n).o k' = if k' = k then (s.o k - n) % 2 ^ odWidth k else s.o k' := State.o_setO s k _ k'

theorem State.o_resetO (s : State) (k k' : Nat) : (s.resetO k).o k' = if k' = k then odDefault k else s.o k' := by
  by_cases h : k' = k
  · subst h
    simp [State.o, State.resetO]
  · simp only [State.o, State.resetO, if_neg h]
    exact tGet_tDel_ne _ _ h

@[simp] theorem State.arr_setArr (s : State) (a b : Nat) (x : Arr) :
    (s.setArr a x).arr b = if b = a then x else s.arr b := tGet_tSet _ _ _ _ _

@[simp] theorem State.core_setCore (s : State) (a b : Nat) (x : RCore) :
    (s.setCore a x).core b = if b = a then x else s.core b := tGet_tSet _ _ _ _ _

@[simp] theorem State.keeper_setKeeper (s : State) (a b : Nat) (x : Keeper) :
    (s.setKeeper a x).keeper b = if b = a then x else s.keeper b := tGet_tSet _ _ _ _ _

@[simp] theorem State.res_setRes (s : State) (a r : Nat) (x : Resident) : (s.setRes a r x).res a r = x :=
  tGet_tSet_same _ _ _ _

@[simp] theorem State.mbox_setMbox (s : State) (c n : Nat) (m : Mbox) : (s.setMbox c n m).mbox c n = m :=
  tGet_tSet_same _ _ _ _

@[simp] theorem State.pd_setPd (s : State) (p q : Nat) (x : Pd) :
    (s.setPd p x).pd q = if q = p then x else s.pd q := tGet_tSet _ _ _ _ _

@[simp] theorem State.page_setPage (s : State) (p q : Nat) (x : Page) :
    (s.setPage p x).page q = if q = p then x else s.page q := tGet_tSet _ _ _ _ _

@[simp] theorem State.gran_setGran (s : State) (p q : Nat) (x : Gran) :
    (s.setGran p x).gran q = if q = p then x else s.gran q := tGet_tSet _ _ _ _ _

@[simp] theorem State.model_setModel (s : State) (m n : Nat) (x : Model) :
    (s.setModel m x).model n = if n = m then x else s.model n := tGet_tSet _ _ _ _ _

@[simp] theorem State.stake_setStake (s : State) (m n : Nat) (x : Stake) :
    (s.setStake m x).stake n = if n = m then x else s.stake n := tGet_tSet _ _ _ _ _

@[simp] theorem State.setIndex_index (s : State) (x : Index) : (s.setIndex x).index = x := rfl

@[simp] theorem State.setPool_pool (s : State) (x : Pool) : (s.setPool x).pool = x := rfl

/-- A byte of the near store reads what was written last. -/
theorem State.nearB_setNearB (s : State) (sl o sl' o' : Nat) (b : Byte) (h : o < 2 ^ 25) (h' : o' < 2 ^ 25) :
    (s.setNearB sl o b).nearB sl' o' = if sl' = sl ∧ o' = o then b else s.nearB sl' o' := by
  simp only [State.nearB, State.setNearB, tGet_tSet]
  congr 1
  exact propext ⟨fun e => by omega, fun ⟨a, b⟩ => by rw [a, b]⟩

/-- A byte of the stack store reads what was written last. -/
theorem State.stackB_setStackB (s : State) (p o p' o' : Nat) (b : Byte) (h : o < 2 ^ 21) (h' : o' < 2 ^ 21) :
    (s.setStackB p o b).stackB p' o' = if p' = p ∧ o' = o then b else s.stackB p' o' := by
  simp only [State.stackB, State.setStackB, tGet_tSet]
  congr 1
  exact propext ⟨fun e => by omega, fun ⟨a, b⟩ => by rw [a, b]⟩

/-! ## The guard -/

@[simp] theorem guardS_true (s : State) (f : State → State) : guardS true s f = f s := rfl
@[simp] theorem guardS_false (s : State) (f : State → State) : guardS false s f = s := rfl

theorem guardS_of {c : Bool} (h : c = true) (s : State) (f : State → State) : guardS c s f = f s := by
  rw [h, guardS_true]

/-- A guarded effect is the effect or nothing. -/
theorem guardS_cases (c : Bool) (s : State) (f : State → State) :
    (c = true ∧ guardS c s f = f s) ∨ (c = false ∧ guardS c s f = s) := by
  cases c
  · exact .inr ⟨rfl, rfl⟩
  · exact .inl ⟨rfl, rfl⟩

/-- What the effect keeps, the guarded effect keeps. -/
theorem guardS_keeps (P : State → Prop) {c : Bool} {s : State} {f : State → State} (hs : P s) (hf : P (f s)) :
    P (guardS c s f) := by
  cases c
  · exact hs
  · exact hf

/-- What the effect leaves alone, the guarded effect leaves alone. -/
theorem guardS_frame {τ : Type} (g : State → τ) {c : Bool} {s : State} {f : State → State} (hf : g (f s) = g s) :
    g (guardS c s f) = g s := by
  cases c
  · rfl
  · exact hf

end Sys2Proof.Machine
end

