-- ==== Sys2Proof/Laws/Ops.lean ====
section
/-!
SUPPORT. What the shared operations over the state can do: which parts of it they leave alone, and what they write.
-/
set_option Elab.async false
namespace Sys2Proof.Machine

@[simp] theorem State.writeRec_frame (s : State) (r) :
    (s.writeRec r).blobs = s.blobs ∧ (s.writeRec r).freeCtr = s.freeCtr ∧ (s.writeRec r).arrs = s.arrs ∧ (s.writeRec
    r).residents = s.residents ∧ (s.writeRec r).incrs = s.incrs ∧ (s.writeRec r).cores = s.cores ∧ (s.writeRec r).keepers
    = s.keepers ∧ (s.writeRec r).mboxes = s.mboxes ∧ (s.writeRec r).mem = s.mem ∧ (s.writeRec r).slots = s.slots ∧
    (s.writeRec r).power = s.power ∧ (s.writeRec r).aged = s.aged ∧ (s.writeRec r).parts = s.parts ∧ (s.writeRec r).boot =
    s.boot ∧ (s.writeRec r).chain = s.chain ∧ (s.writeRec r).dict = s.dict ∧ (s.writeRec r).models = s.models ∧
    (s.writeRec r).stakes = s.stakes ∧ (s.writeRec r).steps = s.steps ∧ (s.writeRec r).nextStep = s.nextStep ∧ (s.writeRec
    r).store = s.store ∧ (s.writeRec r).seqs = s.seqs ∧ (s.writeRec r).prefixes = s.prefixes ∧ (s.writeRec r).nextPrefix =
    s.nextPrefix ∧ (s.writeRec r).rx = s.rx ∧ (s.writeRec r).assemblies = s.assemblies ∧ (s.writeRec r).preCancels =
    s.preCancels ∧ (s.writeRec r).idWins = s.idWins ∧ (s.writeRec r).bufs = s.bufs ∧ (s.writeRec r).reqs = s.reqs ∧
    (s.writeRec r).nextReq = s.nextReq ∧ (s.writeRec r).gate = s.gate ∧ (s.writeRec r).arb = s.arb ∧ (s.writeRec r).tx =
    s.tx ∧ (s.writeRec r).pcie = s.pcie ∧ (s.writeRec r).pool = s.pool ∧ (s.writeRec r).tables = s.tables ∧ (s.writeRec
    r).peers = s.peers ∧ (s.writeRec r).vocabs = s.vocabs ∧ (s.writeRec r).grammars = s.grammars ∧ (s.writeRec r).trieQ =
    s.trieQ ∧ (s.writeRec r).tries = s.tries ∧ (s.writeRec r).masks = s.masks ∧ (s.writeRec r).dice = s.dice ∧ (s.writeRec
    r).index = s.index ∧ (s.writeRec r).pending = s.pending := by
  simp only [State.writeRec]
  split <;> simp

@[simp] theorem State.record_frame (s : State) (kind) (part) (data) :
    (s.record kind part data).blobs = s.blobs ∧ (s.record kind part data).arrs = s.arrs ∧ (s.record kind part
    data).residents = s.residents ∧ (s.record kind part data).incrs = s.incrs ∧ (s.record kind part data).cores = s.cores
    ∧ (s.record kind part data).keepers = s.keepers ∧ (s.record kind part data).mboxes = s.mboxes ∧ (s.record kind part
    data).mem = s.mem ∧ (s.record kind part data).slots = s.slots ∧ (s.record kind part data).power = s.power ∧ (s.record
    kind part data).aged = s.aged ∧ (s.record kind part data).parts = s.parts ∧ (s.record kind part data).boot = s.boot ∧
    (s.record kind part data).chain = s.chain ∧ (s.record kind part data).dict = s.dict ∧ (s.record kind part data).models
    = s.models ∧ (s.record kind part data).stakes = s.stakes ∧ (s.record kind part data).steps = s.steps ∧ (s.record kind
    part data).nextStep = s.nextStep ∧ (s.record kind part data).store = s.store ∧ (s.record kind part data).seqs = s.seqs
    ∧ (s.record kind part data).prefixes = s.prefixes ∧ (s.record kind part data).nextPrefix = s.nextPrefix ∧ (s.record
    kind part data).rx = s.rx ∧ (s.record kind part data).assemblies = s.assemblies ∧ (s.record kind part data).preCancels
    = s.preCancels ∧ (s.record kind part data).idWins = s.idWins ∧ (s.record kind part data).bufs = s.bufs ∧ (s.record
    kind part data).reqs = s.reqs ∧ (s.record kind part data).nextReq = s.nextReq ∧ (s.record kind part data).gate =
    s.gate ∧ (s.record kind part data).arb = s.arb ∧ (s.record kind part data).tx = s.tx ∧ (s.record kind part data).pcie
    = s.pcie ∧ (s.record kind part data).pool = s.pool ∧ (s.record kind part data).tables = s.tables ∧ (s.record kind part
    data).peers = s.peers ∧ (s.record kind part data).vocabs = s.vocabs ∧ (s.record kind part data).grammars = s.grammars
    ∧ (s.record kind part data).trieQ = s.trieQ ∧ (s.record kind part data).tries = s.tries ∧ (s.record kind part
    data).masks = s.masks ∧ (s.record kind part data).dice = s.dice ∧ (s.record kind part data).index = s.index ∧
    (s.record kind part data).pending = s.pending := by
  simp only [State.record]
  split
  · simp
  · split <;> simp

@[simp] theorem State.faultRec_frame (s : State) (kind) (pk) (part) (outcome) (intr) (aff) (extra) :
    (s.faultRec kind pk part outcome intr aff extra).blobs = s.blobs ∧ (s.faultRec kind pk part outcome intr aff
    extra).arrs = s.arrs ∧ (s.faultRec kind pk part outcome intr aff extra).residents = s.residents ∧ (s.faultRec kind pk
    part outcome intr aff extra).incrs = s.incrs ∧ (s.faultRec kind pk part outcome intr aff extra).cores = s.cores ∧
    (s.faultRec kind pk part outcome intr aff extra).keepers = s.keepers ∧ (s.faultRec kind pk part outcome intr aff
    extra).mboxes = s.mboxes ∧ (s.faultRec kind pk part outcome intr aff extra).mem = s.mem ∧ (s.faultRec kind pk part
    outcome intr aff extra).slots = s.slots ∧ (s.faultRec kind pk part outcome intr aff extra).power = s.power ∧
    (s.faultRec kind pk part outcome intr aff extra).aged = s.aged ∧ (s.faultRec kind pk part outcome intr aff
    extra).parts = s.parts ∧ (s.faultRec kind pk part outcome intr aff extra).boot = s.boot ∧ (s.faultRec kind pk part
    outcome intr aff extra).chain = s.chain ∧ (s.faultRec kind pk part outcome intr aff extra).dict = s.dict ∧ (s.faultRec
    kind pk part outcome intr aff extra).models = s.models ∧ (s.faultRec kind pk part outcome intr aff extra).stakes =
    s.stakes ∧ (s.faultRec kind pk part outcome intr aff extra).steps = s.steps ∧ (s.faultRec kind pk part outcome intr
    aff extra).nextStep = s.nextStep ∧ (s.faultRec kind pk part outcome intr aff extra).store = s.store ∧ (s.faultRec kind
    pk part outcome intr aff extra).seqs = s.seqs ∧ (s.faultRec kind pk part outcome intr aff extra).prefixes = s.prefixes
    ∧ (s.faultRec kind pk part outcome intr aff extra).nextPrefix = s.nextPrefix ∧ (s.faultRec kind pk part outcome intr
    aff extra).rx = s.rx ∧ (s.faultRec kind pk part outcome intr aff extra).assemblies = s.assemblies ∧ (s.faultRec kind
    pk part outcome intr aff extra).preCancels = s.preCancels ∧ (s.faultRec kind pk part outcome intr aff extra).idWins =
    s.idWins ∧ (s.faultRec kind pk part outcome intr aff extra).bufs = s.bufs ∧ (s.faultRec kind pk part outcome intr aff
    extra).reqs = s.reqs ∧ (s.faultRec kind pk part outcome intr aff extra).nextReq = s.nextReq ∧ (s.faultRec kind pk part
    outcome intr aff extra).gate = s.gate ∧ (s.faultRec kind pk part outcome intr aff extra).arb = s.arb ∧ (s.faultRec
    kind pk part outcome intr aff extra).tx = s.tx ∧ (s.faultRec kind pk part outcome intr aff extra).pcie = s.pcie ∧
    (s.faultRec kind pk part outcome intr aff extra).pool = s.pool ∧ (s.faultRec kind pk part outcome intr aff
    extra).tables = s.tables ∧ (s.faultRec kind pk part outcome intr aff extra).peers = s.peers ∧ (s.faultRec kind pk part
    outcome intr aff extra).vocabs = s.vocabs ∧ (s.faultRec kind pk part outcome intr aff extra).grammars = s.grammars ∧
    (s.faultRec kind pk part outcome intr aff extra).trieQ = s.trieQ ∧ (s.faultRec kind pk part outcome intr aff
    extra).tries = s.tries ∧ (s.faultRec kind pk part outcome intr aff extra).masks = s.masks ∧ (s.faultRec kind pk part
    outcome intr aff extra).dice = s.dice ∧ (s.faultRec kind pk part outcome intr aff extra).index = s.index ∧ (s.faultRec
    kind pk part outcome intr aff extra).pending = s.pending := by
  simp [State.faultRec]

@[simp] theorem State.countFault_frame (s : State) (kind) (pk) (part) (outcome) (intr) (aff) :
    (s.countFault kind pk part outcome intr aff).blobs = s.blobs ∧ (s.countFault kind pk part outcome intr aff).freeCtr =
    s.freeCtr ∧ (s.countFault kind pk part outcome intr aff).arrs = s.arrs ∧ (s.countFault kind pk part outcome intr
    aff).residents = s.residents ∧ (s.countFault kind pk part outcome intr aff).incrs = s.incrs ∧ (s.countFault kind pk
    part outcome intr aff).cores = s.cores ∧ (s.countFault kind pk part outcome intr aff).keepers = s.keepers ∧
    (s.countFault kind pk part outcome intr aff).mboxes = s.mboxes ∧ (s.countFault kind pk part outcome intr aff).mem =
    s.mem ∧ (s.countFault kind pk part outcome intr aff).slots = s.slots ∧ (s.countFault kind pk part outcome intr
    aff).power = s.power ∧ (s.countFault kind pk part outcome intr aff).recs = s.recs ∧ (s.countFault kind pk part outcome
    intr aff).aged = s.aged ∧ (s.countFault kind pk part outcome intr aff).parts = s.parts ∧ (s.countFault kind pk part
    outcome intr aff).boot = s.boot ∧ (s.countFault kind pk part outcome intr aff).pins = s.pins ∧ (s.countFault kind pk
    part outcome intr aff).chain = s.chain ∧ (s.countFault kind pk part outcome intr aff).dict = s.dict ∧ (s.countFault
    kind pk part outcome intr aff).models = s.models ∧ (s.countFault kind pk part outcome intr aff).stakes = s.stakes ∧
    (s.countFault kind pk part outcome intr aff).steps = s.steps ∧ (s.countFault kind pk part outcome intr aff).nextStep =
    s.nextStep ∧ (s.countFault kind pk part outcome intr aff).store = s.store ∧ (s.countFault kind pk part outcome intr
    aff).seqs = s.seqs ∧ (s.countFault kind pk part outcome intr aff).prefixes = s.prefixes ∧ (s.countFault kind pk part
    outcome intr aff).nextPrefix = s.nextPrefix ∧ (s.countFault kind pk part outcome intr aff).rx = s.rx ∧ (s.countFault
    kind pk part outcome intr aff).assemblies = s.assemblies ∧ (s.countFault kind pk part outcome intr aff).preCancels =
    s.preCancels ∧ (s.countFault kind pk part outcome intr aff).idWins = s.idWins ∧ (s.countFault kind pk part outcome
    intr aff).bufs = s.bufs ∧ (s.countFault kind pk part outcome intr aff).reqs = s.reqs ∧ (s.countFault kind pk part
    outcome intr aff).nextReq = s.nextReq ∧ (s.countFault kind pk part outcome intr aff).gate = s.gate ∧ (s.countFault
    kind pk part outcome intr aff).arb = s.arb ∧ (s.countFault kind pk part outcome intr aff).tx = s.tx ∧ (s.countFault
    kind pk part outcome intr aff).pcie = s.pcie ∧ (s.countFault kind pk part outcome intr aff).pool = s.pool ∧
    (s.countFault kind pk part outcome intr aff).tables = s.tables ∧ (s.countFault kind pk part outcome intr aff).peers =
    s.peers ∧ (s.countFault kind pk part outcome intr aff).vocabs = s.vocabs ∧ (s.countFault kind pk part outcome intr
    aff).grammars = s.grammars ∧ (s.countFault kind pk part outcome intr aff).trieQ = s.trieQ ∧ (s.countFault kind pk part
    outcome intr aff).tries = s.tries ∧ (s.countFault kind pk part outcome intr aff).masks = s.masks ∧ (s.countFault kind
    pk part outcome intr aff).dice = s.dice ∧ (s.countFault kind pk part outcome intr aff).index = s.index ∧ (s.countFault
    kind pk part outcome intr aff).pending = s.pending := by
  simp [State.countFault]

@[simp] theorem State.pulseFault_frame (s : State) :
    (s.pulseFault).od = s.od ∧ (s.pulseFault).blobs = s.blobs ∧ (s.pulseFault).freeCtr = s.freeCtr ∧ (s.pulseFault).arrs =
    s.arrs ∧ (s.pulseFault).residents = s.residents ∧ (s.pulseFault).incrs = s.incrs ∧ (s.pulseFault).cores = s.cores ∧
    (s.pulseFault).keepers = s.keepers ∧ (s.pulseFault).mboxes = s.mboxes ∧ (s.pulseFault).mem = s.mem ∧
    (s.pulseFault).slots = s.slots ∧ (s.pulseFault).power = s.power ∧ (s.pulseFault).recs = s.recs ∧ (s.pulseFault).aged =
    s.aged ∧ (s.pulseFault).parts = s.parts ∧ (s.pulseFault).boot = s.boot ∧ (s.pulseFault).chain = s.chain ∧
    (s.pulseFault).dict = s.dict ∧ (s.pulseFault).models = s.models ∧ (s.pulseFault).stakes = s.stakes ∧
    (s.pulseFault).steps = s.steps ∧ (s.pulseFault).nextStep = s.nextStep ∧ (s.pulseFault).store = s.store ∧
    (s.pulseFault).seqs = s.seqs ∧ (s.pulseFault).prefixes = s.prefixes ∧ (s.pulseFault).nextPrefix = s.nextPrefix ∧
    (s.pulseFault).rx = s.rx ∧ (s.pulseFault).assemblies = s.assemblies ∧ (s.pulseFault).preCancels = s.preCancels ∧
    (s.pulseFault).idWins = s.idWins ∧ (s.pulseFault).bufs = s.bufs ∧ (s.pulseFault).reqs = s.reqs ∧
    (s.pulseFault).nextReq = s.nextReq ∧ (s.pulseFault).gate = s.gate ∧ (s.pulseFault).arb = s.arb ∧ (s.pulseFault).tx =
    s.tx ∧ (s.pulseFault).pcie = s.pcie ∧ (s.pulseFault).pool = s.pool ∧ (s.pulseFault).tables = s.tables ∧
    (s.pulseFault).peers = s.peers ∧ (s.pulseFault).vocabs = s.vocabs ∧ (s.pulseFault).grammars = s.grammars ∧
    (s.pulseFault).trieQ = s.trieQ ∧ (s.pulseFault).tries = s.tries ∧ (s.pulseFault).masks = s.masks ∧ (s.pulseFault).dice
    = s.dice ∧ (s.pulseFault).index = s.index ∧ (s.pulseFault).pending = s.pending := by
  and_intros <;> rfl

@[simp] theorem State.fault1_frame (s : State) (kind) (pk) (part) (outcome) (intr) (aff) (extra) :
    (s.fault1 kind pk part outcome intr aff extra).blobs = s.blobs ∧ (s.fault1 kind pk part outcome intr aff extra).arrs =
    s.arrs ∧ (s.fault1 kind pk part outcome intr aff extra).residents = s.residents ∧ (s.fault1 kind pk part outcome intr
    aff extra).incrs = s.incrs ∧ (s.fault1 kind pk part outcome intr aff extra).cores = s.cores ∧ (s.fault1 kind pk part
    outcome intr aff extra).keepers = s.keepers ∧ (s.fault1 kind pk part outcome intr aff extra).mboxes = s.mboxes ∧
    (s.fault1 kind pk part outcome intr aff extra).mem = s.mem ∧ (s.fault1 kind pk part outcome intr aff extra).slots =
    s.slots ∧ (s.fault1 kind pk part outcome intr aff extra).power = s.power ∧ (s.fault1 kind pk part outcome intr aff
    extra).aged = s.aged ∧ (s.fault1 kind pk part outcome intr aff extra).parts = s.parts ∧ (s.fault1 kind pk part outcome
    intr aff extra).boot = s.boot ∧ (s.fault1 kind pk part outcome intr aff extra).chain = s.chain ∧ (s.fault1 kind pk
    part outcome intr aff extra).dict = s.dict ∧ (s.fault1 kind pk part outcome intr aff extra).models = s.models ∧
    (s.fault1 kind pk part outcome intr aff extra).stakes = s.stakes ∧ (s.fault1 kind pk part outcome intr aff
    extra).steps = s.steps ∧ (s.fault1 kind pk part outcome intr aff extra).nextStep = s.nextStep ∧ (s.fault1 kind pk part
    outcome intr aff extra).store = s.store ∧ (s.fault1 kind pk part outcome intr aff extra).seqs = s.seqs ∧ (s.fault1
    kind pk part outcome intr aff extra).prefixes = s.prefixes ∧ (s.fault1 kind pk part outcome intr aff extra).nextPrefix
    = s.nextPrefix ∧ (s.fault1 kind pk part outcome intr aff extra).rx = s.rx ∧ (s.fault1 kind pk part outcome intr aff
    extra).assemblies = s.assemblies ∧ (s.fault1 kind pk part outcome intr aff extra).preCancels = s.preCancels ∧
    (s.fault1 kind pk part outcome intr aff extra).idWins = s.idWins ∧ (s.fault1 kind pk part outcome intr aff extra).bufs
    = s.bufs ∧ (s.fault1 kind pk part outcome intr aff extra).reqs = s.reqs ∧ (s.fault1 kind pk part outcome intr aff
    extra).nextReq = s.nextReq ∧ (s.fault1 kind pk part outcome intr aff extra).gate = s.gate ∧ (s.fault1 kind pk part
    outcome intr aff extra).arb = s.arb ∧ (s.fault1 kind pk part outcome intr aff extra).tx = s.tx ∧ (s.fault1 kind pk
    part outcome intr aff extra).pcie = s.pcie ∧ (s.fault1 kind pk part outcome intr aff extra).pool = s.pool ∧ (s.fault1
    kind pk part outcome intr aff extra).tables = s.tables ∧ (s.fault1 kind pk part outcome intr aff extra).peers =
    s.peers ∧ (s.fault1 kind pk part outcome intr aff extra).vocabs = s.vocabs ∧ (s.fault1 kind pk part outcome intr aff
    extra).grammars = s.grammars ∧ (s.fault1 kind pk part outcome intr aff extra).trieQ = s.trieQ ∧ (s.fault1 kind pk part
    outcome intr aff extra).tries = s.tries ∧ (s.fault1 kind pk part outcome intr aff extra).masks = s.masks ∧ (s.fault1
    kind pk part outcome intr aff extra).dice = s.dice ∧ (s.fault1 kind pk part outcome intr aff extra).index = s.index ∧
    (s.fault1 kind pk part outcome intr aff extra).pending = s.pending := by
  simp [State.fault1]

@[simp] theorem State.post_frame (s : State) (c) (n) (tag) (payload) :
    (s.post c n tag payload).blobs = s.blobs ∧ (s.post c n tag payload).arrs = s.arrs ∧ (s.post c n tag payload).residents
    = s.residents ∧ (s.post c n tag payload).incrs = s.incrs ∧ (s.post c n tag payload).cores = s.cores ∧ (s.post c n tag
    payload).keepers = s.keepers ∧ (s.post c n tag payload).mem = s.mem ∧ (s.post c n tag payload).slots = s.slots ∧
    (s.post c n tag payload).power = s.power ∧ (s.post c n tag payload).aged = s.aged ∧ (s.post c n tag payload).parts =
    s.parts ∧ (s.post c n tag payload).boot = s.boot ∧ (s.post c n tag payload).chain = s.chain ∧ (s.post c n tag
    payload).dict = s.dict ∧ (s.post c n tag payload).models = s.models ∧ (s.post c n tag payload).stakes = s.stakes ∧
    (s.post c n tag payload).steps = s.steps ∧ (s.post c n tag payload).nextStep = s.nextStep ∧ (s.post c n tag
    payload).store = s.store ∧ (s.post c n tag payload).seqs = s.seqs ∧ (s.post c n tag payload).prefixes = s.prefixes ∧
    (s.post c n tag payload).nextPrefix = s.nextPrefix ∧ (s.post c n tag payload).rx = s.rx ∧ (s.post c n tag
    payload).assemblies = s.assemblies ∧ (s.post c n tag payload).preCancels = s.preCancels ∧ (s.post c n tag
    payload).idWins = s.idWins ∧ (s.post c n tag payload).bufs = s.bufs ∧ (s.post c n tag payload).reqs = s.reqs ∧ (s.post
    c n tag payload).nextReq = s.nextReq ∧ (s.post c n tag payload).gate = s.gate ∧ (s.post c n tag payload).arb = s.arb ∧
    (s.post c n tag payload).tx = s.tx ∧ (s.post c n tag payload).pcie = s.pcie ∧ (s.post c n tag payload).pool = s.pool ∧
    (s.post c n tag payload).tables = s.tables ∧ (s.post c n tag payload).peers = s.peers ∧ (s.post c n tag
    payload).vocabs = s.vocabs ∧ (s.post c n tag payload).grammars = s.grammars ∧ (s.post c n tag payload).trieQ = s.trieQ
    ∧ (s.post c n tag payload).tries = s.tries ∧ (s.post c n tag payload).masks = s.masks ∧ (s.post c n tag payload).dice
    = s.dice ∧ (s.post c n tag payload).index = s.index ∧ (s.post c n tag payload).pending = s.pending := by
  simp only [State.post]
  split <;> simp

/-! ## Objects -/

/-- What a record does to the objects: MIRROR_LAG counts one more unless the mirror has failed. -/
theorem State.writeRec_od (s : State) (r : Rec) :
    (s.writeRec r).od = if s.o Od.mirrorState = 3 then s.od else (s.addO Od.mirrorLag 1).od := by
  simp only [State.writeRec]
  split
  · rename_i h
    rw [if_pos (show s.o Od.mirrorState = 3 from h)]
  · rename_i h
    rw [if_neg (show ¬ s.o Od.mirrorState = 3 from h)]
    rfl

/-- A record changes one object at most: MIRROR_LAG. -/
theorem State.o_writeRec (s : State) (r : Rec) {k : Nat} (h : k ≠ Od.mirrorLag) : (s.writeRec r).o k = s.o k := by
  rw [State.o_eq, State.writeRec_od]
  split
  · rfl
  · rw [← State.o_eq, State.o_addO, if_neg h]

theorem State.o_record (s : State) (kind part data : Nat) {k : Nat} (h : k ≠ Od.mirrorLag) :
    (s.record kind part data).o k = s.o k := by
  have hw : ∀ r, (s.took.writeRec r).o k = s.o k := fun r => State.o_writeRec s.took r h
  simp only [State.record]
  split
  · exact hw _
  · split
    · exact (State.o_congr rfl k).trans (hw (s.mkRec kind 0 data))
    · exact State.o_congr rfl k

theorem State.o_faultRec (s : State) (kind pk part outcome intr aff : Nat) (extra : List (Nat × Nat)) {k : Nat}
    (h : k ≠ Od.mirrorLag) : (s.faultRec kind pk part outcome intr aff extra).o k = s.o k := State.o_record _ _ _ _ h

/-- The count of a single fault changes SINGLE_FAULTS, LAST_FAULT and LONGEST_INTERRUPTION_NS. -/
theorem State.o_countFault (s : State) (kind pk part outcome intr aff : Nat) {k : Nat}
    (h1 : k ≠ Od.singleFaults) (h2 : k ≠ Od.lastFault) (h3 : k ≠ Od.longestInterruptionNs) :
    (s.countFault kind pk part outcome intr aff).o k = s.o k := by
  simp only [State.countFault]
  rw [State.o_setO_ne _ _ h3, State.o_setO_ne _ _ h2, State.o_addO, if_neg h1]

theorem State.o_pulseFault (s : State) (k : Nat) : s.pulseFault.o k = s.o k := State.o_congr rfl k

/-- A single fault changes SINGLE_FAULTS, LAST_FAULT, LONGEST_INTERRUPTION_NS and MIRROR_LAG, and no other object. -/
theorem State.o_fault1 (s : State) (kind pk part outcome intr aff : Nat) (extra : List (Nat × Nat)) {k : Nat}
    (h : k ≠ Od.mirrorLag) (h1 : k ≠ Od.singleFaults) (h2 : k ≠ Od.lastFault) (h3 : k ≠ Od.longestInterruptionNs) :
    (s.fault1 kind pk part outcome intr aff extra).o k = s.o k := by
  rw [State.fault1, State.o_faultRec _ _ _ _ _ _ _ _ h, State.o_pulseFault, State.o_countFault _ _ _ _ _ _ _ h1 h2 h3]

/-- A post changes MAILBOX_OVERFLOW_COUNT and MIRROR_LAG at most. -/
theorem State.o_post (s : State) (c n tag payload : Nat) {k : Nat} (h : k ≠ Od.mirrorLag) (h1 : k ≠ Od.mailboxOverflowCount) :
    (s.post c n tag payload).o k = s.o k := by
  simp only [State.post]
  split
  · exact State.o_congr rfl k
  · rw [State.o_faultRec _ _ _ _ _ _ _ _ h, State.o_addO, if_neg h1]
    exact State.o_congr rfl k

/-! ## The canonical form of the objects -/

/-- The objects in canonical form: keys rising, none at its Default. -/
theorem State.setO_wf (s : State) (k v : Nat) (h : s.objWf = true) : (s.setO k v).objWf = true :=
  tWf_tSet k _ h

theorem State.addO_wf (s : State) (k n : Nat) (h : s.objWf = true) : (s.addO k n).objWf = true :=
  tWf_tSet k _ h

theorem State.subO_wf (s : State) (k n : Nat) (h : s.objWf = true) : (s.subO k n).objWf = true :=
  tWf_tSet k _ h

theorem State.resetO_wf (s : State) (k : Nat) (h : s.objWf = true) : (s.resetO k).objWf = true :=
  tWf_tDel k h

theorem State.writeRec_wf (s : State) (r : Rec) (h : s.objWf = true) : (s.writeRec r).objWf = true := by
  simp only [State.writeRec]
  split
  · exact h
  · exact State.addO_wf _ _ _ h

theorem State.record_wf (s : State) (kind part data : Nat) (h : s.objWf = true) :
    (s.record kind part data).objWf = true := by
  simp only [State.record]
  split
  · exact State.writeRec_wf _ _ h
  · split
    · exact State.writeRec_wf _ _ h
    · exact h

theorem State.faultRec_wf (s : State) (kind pk part outcome intr aff : Nat) (extra : List (Nat × Nat))
    (h : s.objWf = true) : (s.faultRec kind pk part outcome intr aff extra).objWf = true :=
  State.record_wf _ _ _ _ h

theorem State.countFault_wf (s : State) (kind pk part outcome intr aff : Nat) (h : s.objWf = true) :
    (s.countFault kind pk part outcome intr aff).objWf = true :=
  State.setO_wf _ _ _ (State.setO_wf _ _ _ (State.addO_wf _ _ _ h))

theorem State.pulseFault_wf (s : State) (h : s.objWf = true) : s.pulseFault.objWf = true := h

theorem State.fault1_wf (s : State) (kind pk part outcome intr aff : Nat) (extra : List (Nat × Nat)) (h : s.objWf = true) :
    (s.fault1 kind pk part outcome intr aff extra).objWf = true :=
  State.faultRec_wf _ _ _ _ _ _ _ _ (State.pulseFault_wf _ (State.countFault_wf _ _ _ _ _ _ _ h))

theorem State.post_wf (s : State) (c n tag payload : Nat) (h : s.objWf = true) :
    (s.post c n tag payload).objWf = true := by
  simp only [State.post]
  split
  · exact h
  · exact State.faultRec_wf _ _ _ _ _ _ _ _ (State.addO_wf _ _ _ h)

/-! ## The canonical form of the two tiers -/

theorem Mem.wf_iff (m : Mem) :
    m.wf = true ↔ tWf (fun _ => (0 : Byte)) m.near = true ∧ tWf (fun _ => (0 : Byte)) m.stack = true := by
  simp [Mem.wf]

theorem State.setNearB_wf (s : State) (sl o : Nat) (b : Byte) (h : s.mem.wf = true) : (s.setNearB sl o b).mem.wf = true :=
  (Mem.wf_iff _).2 ⟨tWf_tSet_const _ _ ((Mem.wf_iff _).1 h).1, ((Mem.wf_iff _).1 h).2⟩

theorem State.setStackB_wf (s : State) (p o : Nat) (b : Byte) (h : s.mem.wf = true) :
    (s.setStackB p o b).mem.wf = true :=
  (Mem.wf_iff _).2 ⟨((Mem.wf_iff _).1 h).1, tWf_tSet_const _ _ ((Mem.wf_iff _).1 h).2⟩

theorem State.wipePage_wf (s : State) (p : Nat) (h : s.mem.wf = true) : (s.wipePage p).mem.wf = true :=
  (Mem.wf_iff _).2 ⟨((Mem.wf_iff _).1 h).1, tWf_filter _ ((Mem.wf_iff _).1 h).2⟩

theorem State.wipeGran_wf (s : State) (g : Nat) (h : s.mem.wf = true) : (s.wipeGran g).mem.wf = true :=
  (Mem.wf_iff _).2 ⟨tWf_filter _ ((Mem.wf_iff _).1 h).1, ((Mem.wf_iff _).1 h).2⟩

theorem State.putStack_wf (s : State) (p o : Nat) (bs : List Byte) (h : s.mem.wf = true) : (s.putStack p o bs).mem.wf = true :=
  applyAll_keeps (fun x : State × Nat => x.1.mem.wf = true) (fun _ _ hx => State.setStackB_wf _ _ _ _ hx) bs h

theorem State.reset_mem_wf : State.reset.mem.wf = true := rfl

end Sys2Proof.Machine
end

