-- ==== Sys2Proof/Laws/Power.lean ====
section
/-!
SUPPORT. What the operations on power domains, wake ledgers and start-up steps leave alone, and what they write.
-/
set_option Elab.async false
namespace Sys2Proof.Machine

@[simp] theorem State.setPdState_frame (s : State) (p) (st) :
    (s.setPdState p st).blobs = s.blobs ∧ (s.setPdState p st).arrs = s.arrs ∧ (s.setPdState p st).residents = s.residents
    ∧ (s.setPdState p st).incrs = s.incrs ∧ (s.setPdState p st).cores = s.cores ∧ (s.setPdState p st).keepers = s.keepers
    ∧ (s.setPdState p st).mem = s.mem ∧ (s.setPdState p st).slots = s.slots ∧ (s.setPdState p st).power = s.power ∧
    (s.setPdState p st).aged = s.aged ∧ (s.setPdState p st).parts = s.parts ∧ (s.setPdState p st).boot = s.boot ∧
    (s.setPdState p st).chain = s.chain ∧ (s.setPdState p st).dict = s.dict ∧ (s.setPdState p st).models = s.models ∧
    (s.setPdState p st).stakes = s.stakes ∧ (s.setPdState p st).steps = s.steps ∧ (s.setPdState p st).nextStep =
    s.nextStep ∧ (s.setPdState p st).store = s.store ∧ (s.setPdState p st).seqs = s.seqs ∧ (s.setPdState p st).prefixes =
    s.prefixes ∧ (s.setPdState p st).nextPrefix = s.nextPrefix ∧ (s.setPdState p st).rx = s.rx ∧ (s.setPdState p
    st).assemblies = s.assemblies ∧ (s.setPdState p st).preCancels = s.preCancels ∧ (s.setPdState p st).idWins = s.idWins
    ∧ (s.setPdState p st).bufs = s.bufs ∧ (s.setPdState p st).reqs = s.reqs ∧ (s.setPdState p st).nextReq = s.nextReq ∧
    (s.setPdState p st).gate = s.gate ∧ (s.setPdState p st).arb = s.arb ∧ (s.setPdState p st).tx = s.tx ∧ (s.setPdState p
    st).pcie = s.pcie ∧ (s.setPdState p st).pool = s.pool ∧ (s.setPdState p st).tables = s.tables ∧ (s.setPdState p
    st).peers = s.peers ∧ (s.setPdState p st).vocabs = s.vocabs ∧ (s.setPdState p st).grammars = s.grammars ∧
    (s.setPdState p st).trieQ = s.trieQ ∧ (s.setPdState p st).tries = s.tries ∧ (s.setPdState p st).masks = s.masks ∧
    (s.setPdState p st).dice = s.dice ∧ (s.setPdState p st).index = s.index ∧ (s.setPdState p st).pending = s.pending := by
  simp only [State.setPdState]
  split
  · and_intros <;>
    exact (applyAll_frame _ (fun t c => by split <;> simp) _ _).trans (by simp)
  · simp

@[simp] theorem State.setLedger_frame (s : State) (d) (l) :
    (s.setLedger d l).blobs = s.blobs ∧ (s.setLedger d l).freeCtr = s.freeCtr ∧ (s.setLedger d l).arrs = s.arrs ∧
    (s.setLedger d l).residents = s.residents ∧ (s.setLedger d l).incrs = s.incrs ∧ (s.setLedger d l).cores = s.cores ∧
    (s.setLedger d l).keepers = s.keepers ∧ (s.setLedger d l).mboxes = s.mboxes ∧ (s.setLedger d l).mem = s.mem ∧
    (s.setLedger d l).slots = s.slots ∧ (s.setLedger d l).recs = s.recs ∧ (s.setLedger d l).aged = s.aged ∧ (s.setLedger d
    l).parts = s.parts ∧ (s.setLedger d l).boot = s.boot ∧ (s.setLedger d l).pins = s.pins ∧ (s.setLedger d l).chain =
    s.chain ∧ (s.setLedger d l).dict = s.dict ∧ (s.setLedger d l).models = s.models ∧ (s.setLedger d l).stakes = s.stakes
    ∧ (s.setLedger d l).steps = s.steps ∧ (s.setLedger d l).nextStep = s.nextStep ∧ (s.setLedger d l).store = s.store ∧
    (s.setLedger d l).seqs = s.seqs ∧ (s.setLedger d l).prefixes = s.prefixes ∧ (s.setLedger d l).nextPrefix =
    s.nextPrefix ∧ (s.setLedger d l).rx = s.rx ∧ (s.setLedger d l).assemblies = s.assemblies ∧ (s.setLedger d
    l).preCancels = s.preCancels ∧ (s.setLedger d l).idWins = s.idWins ∧ (s.setLedger d l).bufs = s.bufs ∧ (s.setLedger d
    l).reqs = s.reqs ∧ (s.setLedger d l).nextReq = s.nextReq ∧ (s.setLedger d l).gate = s.gate ∧ (s.setLedger d l).arb =
    s.arb ∧ (s.setLedger d l).tx = s.tx ∧ (s.setLedger d l).pcie = s.pcie ∧ (s.setLedger d l).pool = s.pool ∧ (s.setLedger
    d l).tables = s.tables ∧ (s.setLedger d l).peers = s.peers ∧ (s.setLedger d l).vocabs = s.vocabs ∧ (s.setLedger d
    l).grammars = s.grammars ∧ (s.setLedger d l).trieQ = s.trieQ ∧ (s.setLedger d l).tries = s.tries ∧ (s.setLedger d
    l).masks = s.masks ∧ (s.setLedger d l).dice = s.dice ∧ (s.setLedger d l).index = s.index ∧ (s.setLedger d l).pending =
    s.pending := by
  simp [State.setLedger]

@[simp] theorem State.enqueue_frame (s : State) (d) (r) :
    (s.enqueue d r).blobs = s.blobs ∧ (s.enqueue d r).freeCtr = s.freeCtr ∧ (s.enqueue d r).arrs = s.arrs ∧ (s.enqueue d
    r).residents = s.residents ∧ (s.enqueue d r).incrs = s.incrs ∧ (s.enqueue d r).cores = s.cores ∧ (s.enqueue d
    r).keepers = s.keepers ∧ (s.enqueue d r).mboxes = s.mboxes ∧ (s.enqueue d r).mem = s.mem ∧ (s.enqueue d r).slots =
    s.slots ∧ (s.enqueue d r).recs = s.recs ∧ (s.enqueue d r).aged = s.aged ∧ (s.enqueue d r).parts = s.parts ∧ (s.enqueue
    d r).boot = s.boot ∧ (s.enqueue d r).pins = s.pins ∧ (s.enqueue d r).chain = s.chain ∧ (s.enqueue d r).dict = s.dict ∧
    (s.enqueue d r).models = s.models ∧ (s.enqueue d r).stakes = s.stakes ∧ (s.enqueue d r).steps = s.steps ∧ (s.enqueue d
    r).nextStep = s.nextStep ∧ (s.enqueue d r).store = s.store ∧ (s.enqueue d r).seqs = s.seqs ∧ (s.enqueue d r).prefixes
    = s.prefixes ∧ (s.enqueue d r).nextPrefix = s.nextPrefix ∧ (s.enqueue d r).rx = s.rx ∧ (s.enqueue d r).assemblies =
    s.assemblies ∧ (s.enqueue d r).preCancels = s.preCancels ∧ (s.enqueue d r).idWins = s.idWins ∧ (s.enqueue d r).bufs =
    s.bufs ∧ (s.enqueue d r).reqs = s.reqs ∧ (s.enqueue d r).nextReq = s.nextReq ∧ (s.enqueue d r).gate = s.gate ∧
    (s.enqueue d r).arb = s.arb ∧ (s.enqueue d r).tx = s.tx ∧ (s.enqueue d r).pcie = s.pcie ∧ (s.enqueue d r).pool =
    s.pool ∧ (s.enqueue d r).tables = s.tables ∧ (s.enqueue d r).peers = s.peers ∧ (s.enqueue d r).vocabs = s.vocabs ∧
    (s.enqueue d r).grammars = s.grammars ∧ (s.enqueue d r).trieQ = s.trieQ ∧ (s.enqueue d r).tries = s.tries ∧ (s.enqueue
    d r).masks = s.masks ∧ (s.enqueue d r).dice = s.dice ∧ (s.enqueue d r).index = s.index ∧ (s.enqueue d r).pending =
    s.pending := by
  simp only [State.enqueue]
  split <;> simp

@[simp] theorem State.askRamp_frame (s : State) (a) (rank) :
    (s.askRamp a rank).blobs = s.blobs ∧ (s.askRamp a rank).freeCtr = s.freeCtr ∧ (s.askRamp a rank).arrs = s.arrs ∧
    (s.askRamp a rank).residents = s.residents ∧ (s.askRamp a rank).incrs = s.incrs ∧ (s.askRamp a rank).cores = s.cores ∧
    (s.askRamp a rank).keepers = s.keepers ∧ (s.askRamp a rank).mboxes = s.mboxes ∧ (s.askRamp a rank).mem = s.mem ∧
    (s.askRamp a rank).slots = s.slots ∧ (s.askRamp a rank).recs = s.recs ∧ (s.askRamp a rank).aged = s.aged ∧ (s.askRamp
    a rank).parts = s.parts ∧ (s.askRamp a rank).boot = s.boot ∧ (s.askRamp a rank).pins = s.pins ∧ (s.askRamp a
    rank).chain = s.chain ∧ (s.askRamp a rank).dict = s.dict ∧ (s.askRamp a rank).models = s.models ∧ (s.askRamp a
    rank).stakes = s.stakes ∧ (s.askRamp a rank).steps = s.steps ∧ (s.askRamp a rank).nextStep = s.nextStep ∧ (s.askRamp a
    rank).store = s.store ∧ (s.askRamp a rank).seqs = s.seqs ∧ (s.askRamp a rank).prefixes = s.prefixes ∧ (s.askRamp a
    rank).nextPrefix = s.nextPrefix ∧ (s.askRamp a rank).rx = s.rx ∧ (s.askRamp a rank).assemblies = s.assemblies ∧
    (s.askRamp a rank).preCancels = s.preCancels ∧ (s.askRamp a rank).idWins = s.idWins ∧ (s.askRamp a rank).bufs = s.bufs
    ∧ (s.askRamp a rank).reqs = s.reqs ∧ (s.askRamp a rank).nextReq = s.nextReq ∧ (s.askRamp a rank).gate = s.gate ∧
    (s.askRamp a rank).arb = s.arb ∧ (s.askRamp a rank).tx = s.tx ∧ (s.askRamp a rank).pcie = s.pcie ∧ (s.askRamp a
    rank).pool = s.pool ∧ (s.askRamp a rank).tables = s.tables ∧ (s.askRamp a rank).peers = s.peers ∧ (s.askRamp a
    rank).vocabs = s.vocabs ∧ (s.askRamp a rank).grammars = s.grammars ∧ (s.askRamp a rank).trieQ = s.trieQ ∧ (s.askRamp a
    rank).tries = s.tries ∧ (s.askRamp a rank).masks = s.masks ∧ (s.askRamp a rank).dice = s.dice ∧ (s.askRamp a
    rank).index = s.index ∧ (s.askRamp a rank).pending = s.pending := by
  simp only [State.askRamp]
  split <;> simp

@[simp] theorem State.stepTo_frame (s : State) (n) :
    (s.stepTo n).blobs = s.blobs ∧ (s.stepTo n).arrs = s.arrs ∧ (s.stepTo n).residents = s.residents ∧ (s.stepTo n).incrs
    = s.incrs ∧ (s.stepTo n).cores = s.cores ∧ (s.stepTo n).keepers = s.keepers ∧ (s.stepTo n).mboxes = s.mboxes ∧
    (s.stepTo n).mem = s.mem ∧ (s.stepTo n).slots = s.slots ∧ (s.stepTo n).power = s.power ∧ (s.stepTo n).recs = s.recs ∧
    (s.stepTo n).aged = s.aged ∧ (s.stepTo n).parts = s.parts ∧ (s.stepTo n).boot = s.boot ∧ (s.stepTo n).chain = s.chain
    ∧ (s.stepTo n).dict = s.dict ∧ (s.stepTo n).models = s.models ∧ (s.stepTo n).stakes = s.stakes ∧ (s.stepTo n).steps =
    s.steps ∧ (s.stepTo n).nextStep = s.nextStep ∧ (s.stepTo n).store = s.store ∧ (s.stepTo n).seqs = s.seqs ∧ (s.stepTo
    n).prefixes = s.prefixes ∧ (s.stepTo n).nextPrefix = s.nextPrefix ∧ (s.stepTo n).rx = s.rx ∧ (s.stepTo n).assemblies =
    s.assemblies ∧ (s.stepTo n).preCancels = s.preCancels ∧ (s.stepTo n).idWins = s.idWins ∧ (s.stepTo n).bufs = s.bufs ∧
    (s.stepTo n).reqs = s.reqs ∧ (s.stepTo n).nextReq = s.nextReq ∧ (s.stepTo n).gate = s.gate ∧ (s.stepTo n).arb = s.arb
    ∧ (s.stepTo n).tx = s.tx ∧ (s.stepTo n).pcie = s.pcie ∧ (s.stepTo n).pool = s.pool ∧ (s.stepTo n).tables = s.tables ∧
    (s.stepTo n).peers = s.peers ∧ (s.stepTo n).vocabs = s.vocabs ∧ (s.stepTo n).grammars = s.grammars ∧ (s.stepTo
    n).trieQ = s.trieQ ∧ (s.stepTo n).tries = s.tries ∧ (s.stepTo n).masks = s.masks ∧ (s.stepTo n).dice = s.dice ∧
    (s.stepTo n).index = s.index ∧ (s.stepTo n).pending = s.pending := by
  simp [State.stepTo]

@[simp] theorem State.setUpdate_frame (s : State) (st) (image) :
    (s.setUpdate st image).blobs = s.blobs ∧ (s.setUpdate st image).arrs = s.arrs ∧ (s.setUpdate st image).residents =
    s.residents ∧ (s.setUpdate st image).incrs = s.incrs ∧ (s.setUpdate st image).cores = s.cores ∧ (s.setUpdate st
    image).keepers = s.keepers ∧ (s.setUpdate st image).mboxes = s.mboxes ∧ (s.setUpdate st image).mem = s.mem ∧
    (s.setUpdate st image).slots = s.slots ∧ (s.setUpdate st image).power = s.power ∧ (s.setUpdate st image).aged = s.aged
    ∧ (s.setUpdate st image).parts = s.parts ∧ (s.setUpdate st image).boot = s.boot ∧ (s.setUpdate st image).chain =
    s.chain ∧ (s.setUpdate st image).dict = s.dict ∧ (s.setUpdate st image).models = s.models ∧ (s.setUpdate st
    image).stakes = s.stakes ∧ (s.setUpdate st image).steps = s.steps ∧ (s.setUpdate st image).nextStep = s.nextStep ∧
    (s.setUpdate st image).store = s.store ∧ (s.setUpdate st image).seqs = s.seqs ∧ (s.setUpdate st image).prefixes =
    s.prefixes ∧ (s.setUpdate st image).nextPrefix = s.nextPrefix ∧ (s.setUpdate st image).rx = s.rx ∧ (s.setUpdate st
    image).assemblies = s.assemblies ∧ (s.setUpdate st image).preCancels = s.preCancels ∧ (s.setUpdate st image).idWins =
    s.idWins ∧ (s.setUpdate st image).bufs = s.bufs ∧ (s.setUpdate st image).reqs = s.reqs ∧ (s.setUpdate st
    image).nextReq = s.nextReq ∧ (s.setUpdate st image).gate = s.gate ∧ (s.setUpdate st image).arb = s.arb ∧ (s.setUpdate
    st image).tx = s.tx ∧ (s.setUpdate st image).pcie = s.pcie ∧ (s.setUpdate st image).pool = s.pool ∧ (s.setUpdate st
    image).tables = s.tables ∧ (s.setUpdate st image).peers = s.peers ∧ (s.setUpdate st image).vocabs = s.vocabs ∧
    (s.setUpdate st image).grammars = s.grammars ∧ (s.setUpdate st image).trieQ = s.trieQ ∧ (s.setUpdate st image).tries =
    s.tries ∧ (s.setUpdate st image).masks = s.masks ∧ (s.setUpdate st image).dice = s.dice ∧ (s.setUpdate st image).index
    = s.index ∧ (s.setUpdate st image).pending = s.pending := by
  simp only [State.setUpdate]
  split <;> simp

@[simp] theorem State.interlockRec_frame (s : State) (closed) :
    (s.interlockRec closed).blobs = s.blobs ∧ (s.interlockRec closed).arrs = s.arrs ∧ (s.interlockRec closed).residents =
    s.residents ∧ (s.interlockRec closed).incrs = s.incrs ∧ (s.interlockRec closed).cores = s.cores ∧ (s.interlockRec
    closed).keepers = s.keepers ∧ (s.interlockRec closed).mboxes = s.mboxes ∧ (s.interlockRec closed).mem = s.mem ∧
    (s.interlockRec closed).slots = s.slots ∧ (s.interlockRec closed).power = s.power ∧ (s.interlockRec closed).aged =
    s.aged ∧ (s.interlockRec closed).parts = s.parts ∧ (s.interlockRec closed).boot = s.boot ∧ (s.interlockRec
    closed).chain = s.chain ∧ (s.interlockRec closed).dict = s.dict ∧ (s.interlockRec closed).models = s.models ∧
    (s.interlockRec closed).stakes = s.stakes ∧ (s.interlockRec closed).steps = s.steps ∧ (s.interlockRec closed).nextStep
    = s.nextStep ∧ (s.interlockRec closed).store = s.store ∧ (s.interlockRec closed).seqs = s.seqs ∧ (s.interlockRec
    closed).prefixes = s.prefixes ∧ (s.interlockRec closed).nextPrefix = s.nextPrefix ∧ (s.interlockRec closed).rx = s.rx
    ∧ (s.interlockRec closed).assemblies = s.assemblies ∧ (s.interlockRec closed).preCancels = s.preCancels ∧
    (s.interlockRec closed).idWins = s.idWins ∧ (s.interlockRec closed).bufs = s.bufs ∧ (s.interlockRec closed).reqs =
    s.reqs ∧ (s.interlockRec closed).nextReq = s.nextReq ∧ (s.interlockRec closed).gate = s.gate ∧ (s.interlockRec
    closed).arb = s.arb ∧ (s.interlockRec closed).tx = s.tx ∧ (s.interlockRec closed).pcie = s.pcie ∧ (s.interlockRec
    closed).pool = s.pool ∧ (s.interlockRec closed).tables = s.tables ∧ (s.interlockRec closed).peers = s.peers ∧
    (s.interlockRec closed).vocabs = s.vocabs ∧ (s.interlockRec closed).grammars = s.grammars ∧ (s.interlockRec
    closed).trieQ = s.trieQ ∧ (s.interlockRec closed).tries = s.tries ∧ (s.interlockRec closed).masks = s.masks ∧
    (s.interlockRec closed).dice = s.dice ∧ (s.interlockRec closed).index = s.index ∧ (s.interlockRec closed).pending =
    s.pending := by
  simp [State.interlockRec]

@[simp] theorem State.tripCount_frame (s : State) :
    (s.tripCount).blobs = s.blobs ∧ (s.tripCount).freeCtr = s.freeCtr ∧ (s.tripCount).arrs = s.arrs ∧
    (s.tripCount).residents = s.residents ∧ (s.tripCount).incrs = s.incrs ∧ (s.tripCount).cores = s.cores ∧
    (s.tripCount).keepers = s.keepers ∧ (s.tripCount).mboxes = s.mboxes ∧ (s.tripCount).mem = s.mem ∧ (s.tripCount).slots
    = s.slots ∧ (s.tripCount).power = s.power ∧ (s.tripCount).recs = s.recs ∧ (s.tripCount).aged = s.aged ∧
    (s.tripCount).parts = s.parts ∧ (s.tripCount).boot = s.boot ∧ (s.tripCount).chain = s.chain ∧ (s.tripCount).dict =
    s.dict ∧ (s.tripCount).models = s.models ∧ (s.tripCount).stakes = s.stakes ∧ (s.tripCount).steps = s.steps ∧
    (s.tripCount).nextStep = s.nextStep ∧ (s.tripCount).store = s.store ∧ (s.tripCount).seqs = s.seqs ∧
    (s.tripCount).prefixes = s.prefixes ∧ (s.tripCount).nextPrefix = s.nextPrefix ∧ (s.tripCount).rx = s.rx ∧
    (s.tripCount).assemblies = s.assemblies ∧ (s.tripCount).preCancels = s.preCancels ∧ (s.tripCount).idWins = s.idWins ∧
    (s.tripCount).bufs = s.bufs ∧ (s.tripCount).reqs = s.reqs ∧ (s.tripCount).nextReq = s.nextReq ∧ (s.tripCount).gate =
    s.gate ∧ (s.tripCount).arb = s.arb ∧ (s.tripCount).tx = s.tx ∧ (s.tripCount).pcie = s.pcie ∧ (s.tripCount).pool =
    s.pool ∧ (s.tripCount).tables = s.tables ∧ (s.tripCount).peers = s.peers ∧ (s.tripCount).vocabs = s.vocabs ∧
    (s.tripCount).grammars = s.grammars ∧ (s.tripCount).trieQ = s.trieQ ∧ (s.tripCount).tries = s.tries ∧
    (s.tripCount).masks = s.masks ∧ (s.tripCount).dice = s.dice ∧ (s.tripCount).index = s.index ∧ (s.tripCount).pending =
    s.pending := by
  simp [State.tripCount]

/-- Every PD_STATE is a byte. -/
theorem odWidth_pdState : ∀ p < 98, odWidth (Od.pdState p) = 8 := by decide +kernel

/-- Writing a PD_STATE changes, beside it, the domain's epoch, MAILBOX_OVERFLOW_COUNT and MIRROR_LAG at most. -/
theorem State.o_setPdState (s : State) (p st : Nat) {k : Nat} (h : k ≠ Od.pdEpoch p) (h1 : k ≠ Od.mirrorLag)
    (h2 : k ≠ Od.mailboxOverflowCount) : (s.setPdState p st).o k = (s.setO (Od.pdState p) st).o k := by
  simp only [State.setPdState]
  split
  · refine (applyAll_frame (fun t : State => t.o k) (fun t c => ?_) _ _).trans ?_
    · split
      · exact State.o_post _ _ _ _ _ h1 h2
      · rfl
    · rw [State.o_addO, if_neg h]
  · rfl

theorem pdState_ne_mirrorLag {q : Nat} (h : q < 98) : Od.pdState q ≠ Od.mirrorLag := by
  unfold Od.pdState Od.mirrorLag
  omega

theorem pdState_ne_overflow {q : Nat} (h : q < 98) : Od.pdState q ≠ Od.mailboxOverflowCount := by
  unfold Od.pdState Od.mailboxOverflowCount
  omega

theorem pdState_ne_epoch {q : Nat} (h : q < 98) (p : Nat) : Od.pdState q ≠ Od.pdEpoch p := by
  unfold Od.pdState Od.pdEpoch
  omega

/-- What a domain's PD_STATE reads after one has been written. -/
theorem State.pdState_setPdState (s : State) (p st : Nat) {q : Nat} (hp : p < 98) (hq : q < 98) (hs : st < 256) :
    (s.setPdState p st).pdState q = if q = p then st else s.pdState q := by
  unfold State.pdState
  rw [State.o_setPdState s p st (pdState_ne_epoch hq p) (pdState_ne_mirrorLag hq) (pdState_ne_overflow hq), State.o_setO,
    odWidth_pdState p hp, Nat.mod_eq_of_lt (show st < 2 ^ 8 by omega)]
  by_cases h : q = p
  · subst h
    rw [if_pos rfl, if_pos rfl]
  · rw [if_neg h, if_neg (by unfold Od.pdState; omega)]

theorem State.pdState_setPdState_same (s : State) (p st : Nat) (hp : p < 98) (hs : st < 256) :
    (s.setPdState p st).pdState p = st := by
  rw [State.pdState_setPdState s p st hp hp hs, if_pos rfl]

theorem State.pdState_congr {s t : State} (h : s.od = t.od) (p : Nat) : s.pdState p = t.pdState p := State.o_congr h _

theorem State.pdState_setO (s : State) {k : Nat} (v p : Nat) (h : Od.pdState p ≠ k) : (s.setO k v).pdState p = s.pdState p :=
  State.o_setO_ne s v h

@[simp] theorem State.pdState_setPd (s : State) (p q : Nat) (x : Pd) : (s.setPd p x).pdState q = s.pdState q := State.o_congr rfl _

@[simp] theorem State.pdState_setArr (s : State) (a q : Nat) (x : Arr) : (s.setArr a x).pdState q = s.pdState q :=
  State.o_congr rfl _

theorem State.pdState_setLedger (s : State) (d : Nat) (l : Ledger) {q : Nat} (hq : q < 98) :
    (s.setLedger d l).pdState q = s.pdState q := by
  simp only [State.setLedger]
  rw [State.pdState_setO _ _ _ (by unfold Od.pdState Od.wakeQueue; omega)]
  exact State.pdState_congr rfl _

theorem State.pdState_enqueue (s : State) (d : Nat) (r : WakeReq) {q : Nat} (hq : q < 98) :
    (s.enqueue d r).pdState q = s.pdState q := by
  simp only [State.enqueue]
  split
  · rfl
  · exact State.pdState_setLedger _ _ _ hq

theorem State.setPdState_wf (s : State) (p st : Nat) (h : s.objWf = true) : (s.setPdState p st).objWf = true := by
  simp only [State.setPdState]
  split
  · refine applyAll_keeps (fun t : State => t.objWf = true) (fun t c ht => ?_) _ (State.addO_wf _ _ _ (State.setO_wf _ _ _ h))
    split
    · exact State.post_wf _ _ _ _ _ ht
    · exact ht
  · exact State.setO_wf _ _ _ h

end Sys2Proof.Machine
end

