-- ==== Sys2Proof/Laws/Store.lean ====
section
/-!
SUPPORT. Laws of byte strings, of SHA-384 and of a plan's container (R11, R12, R209, R214).
-/
set_option Elab.async false
namespace Sys2Proof.Machine

theorem shaBlock_lt (p : ShaPar) (hs : List Nat) (blk : List Byte) : ∀ x ∈ shaBlock p hs blk, x < 2 ^ p.w := by
  intro x h
  simp only [shaBlock, List.mem_map] at h
  obtain ⟨y, -, rfl⟩ := h
  exact Nat.mod_lt _ (Nat.two_pow_pos _)

theorem shaBlocks_lt (p : ShaPar) (n : Nat) (hs : List Nat) (bs : List Byte) (h : ∀ x ∈ hs, x < 2 ^ p.w) :
    ∀ x ∈ shaBlocks p n hs bs, x < 2 ^ p.w := by
  induction n generalizing hs bs with
  | zero => exact h
  | succ n ih => exact ih _ _ (shaBlock_lt p _ _)

theorem foldWords_lt (w : Nat) (l : List Nat) (h : ∀ x ∈ l, x < 2 ^ w) (acc : Nat) :
    l.foldl (fun acc x => acc * 2 ^ w + x) acc < (acc + 1) * 2 ^ (w * l.length) := by
  induction l generalizing acc with
  | nil => simp
  | cons a l ih =>
    have ha := h a (by simp)
    have h1 := ih (fun x hx => h x (by simp [hx])) (acc * 2 ^ w + a)
    calc _ < (acc * 2 ^ w + a + 1) * 2 ^ (w * l.length) := h1
      _ ≤ (acc + 1) * 2 ^ w * 2 ^ (w * l.length) := Nat.mul_le_mul_right _ (by rw [Nat.add_mul, Nat.one_mul]; omega)
      _ = _ := by rw [List.length_cons, Nat.mul_assoc, ← Nat.pow_add]; congr 2; rw [Nat.mul_add, Nat.mul_one, Nat.add_comm]

theorem shaBlock_length (p : ShaPar) (hs : List Nat) (blk : List Byte) : (shaBlock p hs blk).length ≤ hs.length := by
  simp only [shaBlock, List.length_map, List.length_zip]; exact Nat.min_le_left _ _

theorem shaBlocks_length (p : ShaPar) (n : Nat) (hs : List Nat) (bs : List Byte) : (shaBlocks p n hs bs).length ≤ hs.length := by
  induction n generalizing hs bs with
  | zero => exact Nat.le_refl _
  | succ n ih => exact Nat.le_trans (ih _ _) (shaBlock_length _ _ _)

/-- SHA-384 answers 384 bits, SHA-256 and HMAC-SHA-256 answer 256. -/
theorem sha384_lt (bs : List Byte) : sha384 bs < 2 ^ (8 * 48) := by
  have h := foldWords_lt 64 ((shaRun par512 shaH384 bs).take 6)
    (fun x hx => shaBlocks_lt par512 _ shaH384 _ (by decide) x (List.mem_of_mem_take hx)) 0
  have h2 : ((shaRun par512 shaH384 bs).take 6).length ≤ 6 := by rw [List.length_take]; exact Nat.min_le_left _ _
  refine Nat.lt_of_lt_of_le h ?_
  rw [Nat.zero_add, Nat.one_mul]; exact Nat.pow_le_pow_right (by omega) (by omega)

theorem sha256_lt (bs : List Byte) : sha256 bs < 2 ^ (8 * 32) := by
  have h := foldWords_lt 32 (shaRun par256 shaH256 bs) (fun x hx => shaBlocks_lt par256 _ shaH256 _ (by decide) x hx) 0
  have h2 : (shaRun par256 shaH256 bs).length ≤ 8 := shaBlocks_length _ _ _ _
  refine Nat.lt_of_lt_of_le h ?_
  rw [Nat.zero_add, Nat.one_mul]; exact Nat.pow_le_pow_right (by omega) (by omega)

theorem hmac256_lt (key : Nat) (bs : List Byte) : hmac256 key bs < 2 ^ (8 * 32) := sha256_lt _

theorem leBytes_length (n v : Nat) : (leBytes n v).length = n := by
  induction n generalizing v with
  | zero => rfl
  | succ n ih => simp [leBytes, ih]

theorem beBytes_length (n v : Nat) : (beBytes n v).length = n := by simp [beBytes, leBytes_length]

theorem beNat_reverse (l : List Byte) : beNat l.reverse = leNat l := by
  induction l with
  | nil => rfl
  | cons a l ih => simp only [beNat, List.reverse_cons, List.foldl_append] at *; simp [ih, leNat]; omega

theorem leNat_leBytes (n v : Nat) (h : v < 2 ^ (8 * n)) : leNat (leBytes n v) = v := by
  induction n generalizing v with
  | zero => simp at h; simp [leBytes, leNat, h]
  | succ n ih =>
    have : v / 256 < 2 ^ (8 * n) := by
      apply Nat.div_lt_of_lt_mul; calc v < 2 ^ (8 * (n + 1)) := h
        _ = 256 * 2 ^ (8 * n) := by rw [Nat.mul_add, Nat.pow_add, Nat.mul_comm]
    simp only [leBytes, leNat, ih _ this, BitVec.toNat_ofNat]; omega

/-- A number written most significant first reads back where it stands. -/
theorem beAt_beBytes (pre post : List Byte) (n v o : Nat) (ho : pre.length = o) (h : v < 2 ^ (8 * n)) :
    beAt (pre ++ beBytes n v ++ post) o n = v := by
  have e : sliceB (pre ++ beBytes n v ++ post) o n = beBytes n v := by
    subst ho
    simp [sliceB, List.append_assoc, List.drop_left', beBytes_length]
  rw [beAt, e, beBytes, beNat_reverse, leNat_leBytes _ _ h]

/-- A digest that stands in place of the bytes it leaves out is the digest of the others. -/
theorem digest_in_place (pre post : List Byte) (n : Nat) (h : pre.length = n) :
    beAt (pre ++ beBytes 48 (sha384 (pre ++ post)) ++ post) n 48 =
      sha384 ((pre ++ beBytes 48 (sha384 (pre ++ post)) ++ post).take n ++ (pre ++ beBytes 48 (sha384 (pre ++ post)) ++ post).drop (n + 48)) := by
  rw [beAt_beBytes _ _ _ _ _ h (sha384_lt _)]
  generalize hd : beBytes 48 (sha384 (pre ++ post)) = d
  have hl : d.length = 48 := by rw [← hd, beBytes_length]
  subst h
  have h1 : (pre ++ d ++ post).take pre.length = pre := by rw [List.append_assoc, List.take_left' rfl]
  have h2 : (pre ++ d ++ post).drop (pre.length + 48) = post := by
    rw [List.drop_left' (by rw [List.length_append, hl])]
  rw [h1, h2]

/-- The number that ends a byte string. -/
theorem beNat_drop (pre : List Byte) (n v : Nat) (h : v < 2 ^ (8 * n)) :
    beNat ((pre ++ beBytes n v).drop ((pre ++ beBytes n v).length - n)) = v := by
  have e : (pre ++ beBytes n v).length - n = pre.length := by rw [List.length_append, beBytes_length]; omega
  rw [e, List.drop_left, beBytes, beNat_reverse, leNat_leBytes _ _ h]

theorem planAt_digestOk {n : Nat} {bs : List Byte} {x : PlanX} {p : Plan} (h : planAt n bs x = some p) :
    p.digestOk = (beAt bs (planSecOf bs 8).off 48 ==
      sha384 (bs.take (planSecOf bs 8).off ++ bs.drop ((planSecOf bs 8).off + (planSecOf bs 8).len))) := by
  unfold planAt at h
  simp only [Option.ite_none_right_eq_some] at h
  exact (congrArg Plan.digestOk (Option.some.inj h.2)).symm
end Sys2Proof.Machine
end

