-- ==== Sys2Proof/WellFormed.lean ====
section
/-!
DEFINITION. Which commands can come from outside: operands a type does not bound already (an access of a size the spine has, a message
that fits its registers or its LENGTH field, numbers of parts that exist).  exec is total on all commands: one that is not well formed
is carried out by the same rules (DESIGN CHOICE; log entry 1).
-/
namespace Sys2Proof

/-- An access of a reed core: 1, 2, 4, 8 or 16 bytes and no more (R146, R151). -/
def storeOk (bytes w : Nat) : Bool := [1, 2, 4, 8, 16].contains bytes && decide (w < 2 ^ (8 * bytes))

/-- A mailbox of a rim reed core, by its number among the 16 (R149). -/
def rimMbox (core mb : Nat) : Bool := decide (core < 16 ∧ mb < 8)

/-- Whether a command's operands are such as the module can meet. -/
def Instr.wf (i : Instr) : Bool :=
  match i with
  | .beatBoundary _ smp _ _ => smp.all (fun e => decide (e.2 < 32))
  | .syncMarkFall => true
  | .standbyPowerApplied => true
  | .startUpStepAdvance _ lost _ _ => lost.all (fun p => decide (p < 98))
  | .imageAttemptTimeout => true
  | .standbyPowerLoss => true
  | .mainPowerLoss => true
  | .mainOvervoltage => true
  | .coolantInterlockOpen _ => true
  | .interlockOpenTimeout => true
  | .coolantInterlockClose _ => true
  | .inletOverMax _ => true
  | .thermalTripDie _ _ => true
  | .thermalTripClear _ _ => true
  | .thermalTripModule _ _ => true
  | .fastPowerComparator _ => true
  | .throttleAssert => true
  | .throttleDeassert => true
  | .aclkChange _ => true
  | .wakeGrant _ _ => true
  | .wakeComplete _ => true
  | .rampUpGrant _ _ => true
  | .rampComplete _ => true
  | .rampDownStart _ _ => true
  | .idlePowerDown _ => true
  | .quiesceComplete _ => true
  | .domainReset _ _ => true
  | .domainResetComplete _ => true
  | .domainFailure _ _ => true
  | .mirrorCopy _ => true
  | .hangWatchdog _ _ => true
  | .partReset _ _ _ => true
  | .keeperHeartbeat _ w => decide (w < 2 ^ 64)
  | .keeperHeartbeatMiss _ => true
  | .keeperDualTimeout => true
  | .spineOwnerWrite _ v => decide (v < 2 ^ 64)
  | .coreHoldLimit _ => true
  | .mboxPop _ _ => true
  | .mboxStatusWrite _ _ v => decide (v < 2 ^ 64)
  | .postWindowWrite _ _ _ bytes w => storeOk bytes w
  | .bundle _ _ w ds kv fill =>
    decide (w < 2 ^ 128) && ds.all (fun e => decide (e.1 < 4096 ∧ e.2 < 2 ^ 256)) &&
      kv.all (fun e => decide (e.1 < 65536 ∧ e.2 < 2 ^ 32)) && fill.all (fun e => decide (e.2.length ≤ 2097152))
  | .bundleWordWrite _ _ bytes w => storeOk bytes w
  | .bundlePortTimeout _ => true
  | .bundleComplete _ _ => true
  | .tload _ => true
  | .fetchComplete _ => true
  | .feed _ => true
  | .skld _ => true
  | .mma _ _ => true
  | .importBlk _ => true
  | .estate _ => true
  | .smres _ => true
  | .norm _ => true
  | .tksub _ => true
  | .topkJobComplete _ _ => true
  | .wait _ => true
  | .signal _ => true
  | .fence _ => true
  | .instructionComplete _ _ => true
  | .syncIncrementArrival _ => true
  | .abandon _ _ _ => true
  | .waitLimit _ _ => true
  | .eccFault _ _ _ _ => true
  | .liveTableError _ _ _ => true
  | .liveTableReloadDone _ _ _ => true
  | .slotLedgerError _ => true
  | .tierDecision => true
  | .heatHalving => true
  | .migrationComplete _ => true
  | .pageWriteComplete _ _ _ _ _ _ _ _ _ _ _ => true
  | .granuleEccError _ _ _ => true
  | .stackPageEccError _ _ _ _ _ => true
  | .pageRefetchComplete _ bytes => decide (bytes.length ≤ 2097152)
  | .pseudoChannelRetire _ _ _ => true
  | .patrolScrubPass _ channels pages => channels.all (fun e => decide (e.1 < 64)) && pages.all (fun e => decide (e.1 < 24576))
  | .stackFailure _ => true
  | .modelLoad _ x => x.sampling.all (fun a => decide (a < 32)) && x.readers.all (fun a => decide (a < 32))
  | .tileCopyComplete _ _ => true
  | .modelLoadCommit _ => true
  | .modelUnload _ => true
  | .modelUnloadCommit _ => true
  | .modelClear _ => true
  | .modelFail _ => true
  | .courseEnd _ _ _ => true
  | .remoteWaitLimit _ _ => true
  | .skeinLoad _ _ => true
  | .skeinWaitExpiry _ => true
  | .skeinCopyComplete _ _ _ _ => true
  | .skeinRemove _ => true
  | .skeinSlotFree _ => true
  | .gateDecision _ => true
  | .deferLimitExpiry _ => true
  | .deadlineExpiry _ => true
  | .prefixRelease _ => true
  | .detokenizeStream _ => true
  | .diceJob _ ws => ws.all (fun w => decide (w < 2 ^ 256))
  | .diceJobComplete _ => true
  | .maskFrameComplete _ => true
  | .rngKeyReplace _ => true
  | .rngConditionedKey _ raw => decide (raw < 2 ^ 1536)
  | .vocabLoad _ _ => true
  | .vocabLoadDone _ => true
  | .vocabClose _ => true
  | .vocabCloseDone _ => true
  | .grammarLoad _ _ => true
  | .grammarLoadDone _ => true
  | .grammarClose _ => true
  | .grammarCloseDone _ => true
  | .certificationRecompute => true
  | .tokenizeJob _ busy => busy.all (fun u => decide (u < 32))
  | .indexFormat => true
  | .indexMount => true
  | .indexUnmount => true
  | .sideFlushTimeout => true
  | .sidePageProgramDone _ core mb => rimMbox core mb
  | .programFailure _ _ core mb => rimMbox core mb
  | .stripeCloseTimeout => true
  | .checkpoint => true
  | .textPageProgramDone _ => true
  | .textReadDone _ _ core mb => rimMbox core mb
  | .textDictLoad _ => true
  | .textDictRemove _ => true
  | .compaction => true
  | .readReconstruct _ _ _ _ _ _ core mb => rimMbox core mb
  | .dieFailure _ _ _ core mb => rimMbox core mb
  | .rebuildBlockDone => true
  | .channelFailure _ core mb => rimMbox core mb
  | .windowClose => true
  | .windowStart => true
  | .contextDone _ _ core mb => rimMbox core mb
  | .rimMerge _ => true
  | .listCacheDecision => true
  | .listCacheFillDone _ => true
  | .mergeProgrammed _ => true
  | .listFlip _ => true
  | .sideFloorRaise _ => true
  | .tombstoneRetire => true
  | .versionRelease _ => true
  | .tableLoad _ _ _ _ _ _ => true
  | .tableLoadDone _ => true
  | .tableClose _ => true
  | .tableCloseDone _ => true
  | .poolReadReply _ data => decide (data.length = 64)
  | .poolReadTimeout _ _ => true
  | .poolTagQuarantineEnd _ => true
  | .poolLinkDown => true
  | .bagPool _ _ _ => true
  | .rowCacheDecision => true
  | .chunkFillDone _ _ bytes => decide (bytes.length ≤ 2097152)
  | .promptPack _ => true
  | .datagramArrival _ _ bytes => decide (bytes.length < 65536)
  | .requestFragment _ _ => true
  | .reassemblyTimeout _ _ => true
  | .cancel _ _ => true
  | .preCancelExpiry _ _ => true
  | .free _ _ _ => true
  | .fetch _ _ _ => true
  | .outputRetainExpiry _ => true
  | .tenantDisable _ => true
  | .submissionEntryWrite _ off bytes => decide (off.val + bytes.length ≤ 16384)
  | .subTailDoorbell _ _ => true
  | .bodyDmaComplete _ _ _ _ => true
  | .fnControlWrite _ _ _ _ => true
  | .cplHeadWrite _ _ _ => true
  | .hotReset => true
  | .flr _ => true
  | .pcieLinkDown => true
  | .functionReady _ _ _ => true
  | .mbGo bytes => decide (bytes.length ≤ 4096)
  | .peerStepStart _ _ start _ => decide (start < 2 ^ 48)
  | .peerData _ _ payload _ _ _ _ => decide (payload.length ≤ 240)
  | .peerIncrement _ _ => true
  | .peerCourseEnd _ _ => true
  | .peerLinkControl _ _ _ => true
  | .peerFlitCrcFail _ => true
  | .peerLaneFault _ _ _ => true
  | .peerRetrainDone _ _ _ => true
  | .peerLinkFail _ => true
  | .spineFlitResend _ _ => true
  | .d2dFlitRetry _ _ => true
  | .linkLaneRepair _ _ _ _ _ => true
  | .frameRepeat _ _ payload _ => decide (payload.length < 2048)
  | .enumerate _ _ => true
  | .probe _ => true
  | .echo _ _ => true
  | .pathDown _ => true
  | .upstreamLinkUp => true
  | .upstreamLinkDown _ _ => true
  | .addressHoldExpiry => true
  | .beatWord _ _ _ => true
  | .beatMarkerMissing => true
  | .holdoverLimit => true
  | .dictRead _ _ payload _ => decide (payload.length < 2048)
  | .dictWrite _ _ payload _ => decide (payload.length < 2048)
  | .segReadInit _ _ payload _ => decide (payload.length < 2048)
  | .segRead _ _ payload _ => decide (payload.length < 2048)
  | .segWriteInit _ _ payload _ => decide (payload.length < 2048)
  | .segWrite _ _ payload _ => decide (payload.length < 2048)
  | .segAbort _ _ payload _ => decide (payload.length < 2048)
  | .segTimeout _ => true
  | .lockAcquire _ _ payload _ => decide (payload.length < 2048)
  | .lockRenew _ _ payload _ => decide (payload.length < 2048)
  | .lockCommit _ _ payload _ => decide (payload.length < 2048)
  | .commitApply => true
  | .lockAbort _ _ payload _ => decide (payload.length < 2048)
  | .lockRelease _ _ payload _ => decide (payload.length < 2048)
  | .lockBreak _ _ payload _ => decide (payload.length < 2048)
  | .lockLeaseExpiry => true
  | .ageingSample _ _ _ _ => true
  | .updateActivate => true
  | .updateConfirm => true
  | .updateCancel => true
  | .drainEnd => true
  | .pinHoldEnd _ => true
  | .faultPulseEnd _ => true
  | .uartTapRestart frame => decide (frame.length = 10)
  | .tapReset => true
  | .bypass => true
  | .idcode => true
  | .samplePreload _ _ => true
  | .extest => true
  | .clamp => true
  | .highz => true
  | .downstreamLinkDown _ _ => true
  | .downstreamLinkUp => true
  | .poolLinkUp _ lanes => decide (lanes ≤ 16)
  | .peerLinkTrained _ _ _ _ => true
  | .ethernetLinkDown _ => true
  | .ethernetLinkUp _ => true
  | .inletTempRecovered _ => true
  | .datagramAuthFail _ => true
  | .bootCoreException => true
  | .slotLedgerRebuilt => true
  | .indexDirectoryRebuilt => true
  | .textFlushTimeout => true
  | .vfEnableChange _ _ => true

end Sys2Proof
end

