-- ==== Sys2Proof/Tests/Slice0.lean ====
section
/-!
SUPPORT. Tests.  The theorems beginning wit_ show, for the statement of that name, a concrete state and operands that meet the hypotheses
of each of its clauses, in the clauses' order.  The theorems beginning test_ check single steps against the spec's words.
-/
set_option Elab.async false
namespace Sys2Proof.Tests
open Sys2Proof Sys2Proof.Machine

/-- Objects set on the state after reset; domains put ON. -/
def put (s : State) (l : List (Nat × Nat)) : State := applyAll (fun s (e : Nat × Nat) => s.setO e.1 e.2) s l
def on (s : State) (ps : List Nat) : State := put s (ps.map fun p => (Od.pdState p, pdON))
def z : State := State.reset
def stby : State := { z with power := { z.power with stbyOn := true } }
def main : State := { stby with power := { stby.power with mainOn := true } }
def cool : State := put main [(Od.coolantInterlock, 1)]
def arrAt (s : State) (a : Nat) (x : Arr) : State := s.setArr a x
def queued (s : State) (d : Nat) (r : WakeReq) : State := s.setLedger d { queue := [r] }

/-! ## Power -/

def wakeReady : State := queued (put main [(Od.pdState 84, pdQUEUED)]) 4 { unit := 84 }
def rampReady : State := queued (on cool [pdArray 0]) 0 { ramp := true, unit := 0 }

theorem wit_WakesAndRampsProceed :
    ReadyWakeGrant wakeReady 4 0 { unit := 84 } ∧ ReadyRampUp rampReady 0 0 { ramp := true, unit := 0 } ∧
    ((arrAt z 31 { ramp := .up }).arr 31).ramp = .up ∧
    ((arrAt z 0 { ramp := .down }).arr 0).ramp = .down ∧ ((arrAt z 0 { ramp := .down }).arr 0).compQ = [] ∧
    ReadyRampDown (arrAt z 5 { ramp := .full }) 5 (z.o Od.arrayBubbleFill) := by decide +kernel

def waking (p : Nat) : State := put main [(Od.pdState p, pdWAKING)]
def quiescing (p reason : Nat) : State := (put main [(Od.pdState p, pdQUIESCING)]).setPd p { reason := reason }

theorem wit_DomainsChangeState :
    ((waking 84).pdState 84 = pdWAKING ∧ ((waking 84).pd 84).rstAfter = false ∧ isSlicePd 84 = false) ∧
    ((waking (pdSlice 0)).pdState (pdSlice 0) = pdWAKING ∧ isSlicePd (pdSlice 0) = true) ∧
    ((quiescing 89 1).pdState 89 = pdQUIESCING ∧ ((quiescing 89 1).pd 89).reason = 1 ∧ isSlicePd 89 = false ∧
      ((quiescing 89 1).pd 89).wakeAfter = false) ∧
    ((quiescing (pdSlice 3) 1).pdState (pdSlice 3) = pdQUIESCING ∧ ((quiescing (pdSlice 3) 1).pd (pdSlice 3)).reason = 1 ∧
      (quiescing (pdSlice 3) 1).pdState (pdSlice 3 - 8) ≠ pdQUIESCING) ∧
    ((quiescing 97 3).pdState 97 = pdQUIESCING ∧ ((quiescing 97 3).pd 97).reason ≠ 1) ∧
    (on main [90]).pdState 90 = pdON ∧ ((on main [89]).pdState 89 = pdON ∧ pdChildren 89 = []) ∧
    (put main [(Od.pdState 96, pdRESET)]).pdState 96 = pdRESET ∧
    ReadyIdleArray (arrAt (on main [pdArray 2]) 2 { idleOff := 1024 }) (Fin.ofNat 98 (pdArray 2)) ∧
    (let s := on main [96]
     ReadyIdleSerdes { s with power := { s.power with serdesOn := [89] } } 96) := by decide +kernel

theorem wit_FailuresOfDomainsPartsAndLinks :
    ((waking 10).power.mainOn = true ∧ (waking 10).pdState 10 = pdWAKING ∧ ((waking 10).pd 10).attempts < 2) ∧
    (((waking 10).setPd 10 { attempts := 2 }).pdState 10 = pdWAKING ∧ 2 ≤ (((waking 10).setPd 10 { attempts := 2 }).pd 10).attempts ∧
      ¬ ((85 ≤ 10 ∧ 10 ≤ 88) ∨ (92 ≤ 10 ∧ 10 ≤ 95))) ∧
    ((on main [84]).pdState 91 ≠ pdON ∧ (on main [84]).pdState 84 = pdON) ∧
    0 < tGet 2 z.parts.lanes (1 * 16 + 3) := by decide +kernel

theorem wit_ClocksAndThrottle :
    115 * (put main [(Od.powerLimitW, 1800)]).o Od.powerLimitW < 100 * 2071 ∧
    (let s := put { main with boot := { main.boot with pinsLive := true } } [(Od.sbFunction 4, 5)]
     s.pinWith 5 = true ∧ s.power.mainOn = true ∧ s.power.throttle = false) ∧
    ({ main with power := { main.power with throttle := true } } : State).power.throttle = true := by decide +kernel

theorem wit_CoolantTripsAndLinks :
    (1999 < cool.o Od.flowMin ∧ cool.o Od.coolantInterlock ≠ 0) ∧
    (stby.o Od.flowMin ≤ 2000 ∧ stby.o Od.coolantInterlock = 0 ∧ stby.power.stbyOn = true) ∧ main.coolHeld = true ∧
    (i16 (main.o Od.inletMax) < 451 ∧ main.power.inletHot = false) ∧
    (let s : State := { main with power := { main.power with inletHot := true } }
     450 ≤ i16 (s.o Od.inletMax) ∧ s.power.inletHot = true) ∧
    3 ∉ main.power.tripped ∧ (main.power.mainOn = true ∧ main.power.moduleTrip = false) ∧ (on main [89]).pdState 89 = pdON := by
  decide +kernel

/-! ## Start-up, power and pins -/

def atStep (n : Nat) : State := put stby [(Od.bootStep, n)]
def step6 : State := on (atStep 6) (atStep 6).bootDomains
def attempt : State := { atStep 8 with boot := { (atStep 8).boot with attempt := some 1 } }
def draining : State := { z with boot := { z.boot with draining := true } }
def pinned : State := put { stby with boot := { stby.boot with pinsLive := true } } [(Od.sbFunction 0, 7), (Od.sbFunction 11, 8)]

theorem wit_StartUpStepsAdvance :
    AtStep (atStep 1) 1 ∧ AtStep (atStep 2) 2 ∧ (AtStep (put (atStep 3) [(Od.beatState, 4)]) 3 ∧
      (put (atStep 3) [(Od.beatState, 4)]).beatState = bsSTANDALONE) ∧
    ReadyStep4 (put (atStep 4) [(Od.coolantInterlock, 1)]) ∧ AtStep (atStep 5) 5 ∧ ReadyStep6 step6 ∧
    (AtStep (on (atStep 7) [pdStack 0, pdStack 2]) 7 ∧ (on (atStep 7) [pdStack 0, pdStack 2]).twoStacks = true) ∧
    (AtStep attempt 8 ∧ attempt.boot.attempt = some 1) ∧ (AtStep (atStep 9) 9 ∧ (atStep 9).o Od.indexState ∈ [0, 3, 4, 5]) ∧
    AtStep (atStep 10) 10 := by decide +kernel

theorem wit_PowerAppliedAndLost :
    z.power.stbyOn = false ∧ main.power.mainOn = true ∧ stby.power.stbyOn = true ∧
    ((put stby [(Od.mirrorLag, 31)]).o Od.mirrorState ≤ 1 ∧ 16 ≤ (put stby [(Od.mirrorLag, 31)]).o Od.mirrorLag ∧
      (put stby [(Od.mirrorLag, 31)]).o Od.mirrorLag < 32) ∧ stby.o Od.mirrorState ≤ 1 := by decide +kernel

theorem wit_ImagesUpdatesAndDrain :
    AttemptRuns attempt 1 ∧
    (let s := put z [(Od.updateCommand, 1), (Od.updateState, 2), (Od.bootStep, 11)]
     s.o Od.updateCommand = 1 ∧ s.o Od.updateState = 2 ∧ s.boot.draining = false ∧ s.o Od.bootStep = 11) ∧
    (let s := put z [(Od.updateCommand, 2), (Od.updateState, 4)]
     s.o Od.updateCommand = 2 ∧ s.o Od.updateState = 4) ∧
    (let s := put z [(Od.updateCommand, 3), (Od.updateState, 2)]
     s.o Od.updateCommand = 3 ∧ s.o Od.updateState = 2 ∧ s.boot.draining = false) ∧
    (let s := put z [(Od.updateCommand, 3), (Od.updateState, 4)]
     s.o Od.updateCommand = 3 ∧ s.o Od.updateState = 4) ∧
    (draining.boot.draining = true ∧ (draining.reqs.any fun e => e.2.state == 2) = false ∧
      (draining.index.lists.all fun e => e.2.merge.isNone) = true ∧ draining.mounted = false) := by decide +kernel

theorem wit_PinsAndTap :
    (pinned.power.stbyOn = true ∧ pinned.pinWith 8 = true ∧ pinned.pinWith 7 = true ∧
      ([0xA5#8, 0x5A#8] ++ List.replicate 8 0#8).length = 10 ∧ beAt ([0xA5#8, 0x5A#8] ++ List.replicate 8 0#8) 0 2 = 0xA55A) ∧
    ((atStep 4).power.mainSw = false ∧ (atStep 4).o Od.bootStep ≤ 4) ∧
    ¬ ((atStep 5).power.mainSw = false ∧ (atStep 5).o Od.bootStep ≤ 4) := by decide +kernel

/-! ## Cores, keepers, slots -/

def coreOn (c : Nat) : State := on main [pdCore c]
def mail (l : List (Nat × Nat)) (overrun : Bool) : State := z.setMbox 143 7 { entries := l, overrun := overrun }

theorem wit_CoresAndMailboxes :
    ((coreOn 143).pdOn (pdCore 143) = true ∧ ((coreOn 143).core 143).held = none) ∧
    (((coreOn 0).setCore 0 { held := some (.word 0 16 0) }).core 0).held ≠ none ∧
    ((mail [(1, 2)] false).mbox 143 7).entries = (1, 2) :: [] ∧ ((mail [] false).mbox 143 7).overrun = false ∧
    (((mail [] true).mbox 143 7).overrun = true ∧ bitAt 0x20000 16 = false) ∧
    (CoreFree (coreOn 16) 16 ∧ (coreOn 16).mayGo 16 (.post 17 (16 * 7) 16 (5 % 2 ^ 128)) = true ∧
      (coreOn 16).pdOn (pdCore 17) = true ∧ ((coreOn 16).mbox 17 7).entries.length < 32) ∧
    ((coreOn 16).mayGo 16 (.post 17 128 16 (5 % 2 ^ 128)) = true ∧ ¬ (16 = 16 ∧ 128 % 16 = 0 ∧ 128 / 16 < 8)) := by decide +kernel

theorem wit_KeepersAndSlotTables :
    stby.power.stbyOn = true ∧ (4 * 65536 + 2) ∉ z.slots.idled ∧
    (4 * 65536 + 2) ∈ ({ z with slots := { z.slots with idled := [4 * 65536 + 2] } } : State).slots.idled ∧ z.slots.ledgerBad = false ∧
    ({ z with slots := { z.slots with ledgerBad := true } } : State).slots.ledgerBad = true := by decide +kernel

/-! ## Matrix arrays -/

/-- A number of fields (value, low bit); a word of an opcode. -/
def fields (l : List (Nat × Nat)) : Nat := (l.map fun f => f.1 * 2 ^ f.2).sum
def iw (op : Nat) (l : List (Nat × Nat)) : Nat := fields ((op, 120) :: l)
/-- A BF16 descriptor of 1 × 1 elements at 256-byte line e. -/
def dsc (kind e : Nat) : Nat := fields [(kind, 252), (7, 248), (1, 238), (1, 229), (1, 219), (e, 160)]
def hdrW : Nat := iw 0xF0 [(9, 88), (2, 80), (16, 71), (3, 68), (77, 32)]
def ramped (x : Arr) : Arr := { x with ramp := .full }
def arrOn (a : Nat) (x : Arr) : State := arrAt (on main [pdArray a, pdSlice a]) a x
def loadOn (a : Nat) (w d : Nat) : QWord × State :=
  let q : QWord := { word := w, descs := [d], res := 1, epoch := 9 }
  (q, arrOn a { loadQ := [q, {}], sync := [(16 + 3, 2)] })
def compOn (a : Nat) (w : Nat) (ds : List Nat) : QWord × State :=
  let q : QWord := { word := w, descs := ds, res := 1, epoch := 9, bundle := 4 }
  (q, arrOn a (ramped { compQ := [q, {}], bundles := [{ key := 4, left := 2 }] }))
def arrUp (p : QWord × State) (a : Nat) (f : Arr → Arr) : State := p.2.setArr a (f (p.2.arr a))

def portOpen : State := on main [pdCore 143, pdArray 31]
def portHeld (n : Nat) : State := arrAt portOpen 31 { port := some { core := 143, header := hdrW, words := List.replicate n (iw 1 []) } }
def prepd : State := portOpen.prepare 31 (hRes hdrW) [(3584, 1)] [] [(0, [1])]

theorem wit_BundlePortsTakeWords :
    (CoreFree prepd 143 ∧ prepd.mayGo 143 (.header 31 (hdrW % 2 ^ 128)) = true ∧ prepd.pdOn (pdArray 31) = true ∧
      (prepd.arr 31).port = none ∧ wOp (hdrW % 2 ^ 128) = 0xF0 ∧ hCount (hdrW % 2 ^ 128) ≠ 0) ∧
    (CoreFree (portHeld 0) 143 ∧ (portHeld 0).mayGo 143 (.word 31 16 (iw 1 [] % 2 ^ 128)) = true ∧ (portHeld 0).pdOn (pdArray 31) = true ∧
      ((portHeld 0).arr 31).port = some { core := 143, header := hdrW, words := [] } ∧ 0 + 1 < hCount hdrW) ∧
    (((portHeld 1).arr 31).port = some { core := 143, header := hdrW, words := [iw 1 []] } ∧ hCount hdrW ≤ 1 + 1) ∧
    (CoreFree portOpen 143 ∧ portOpen.mayGo 143 (.word 31 8 0) = true) ∧
    (((arrAt z 0 { bundles := [{ key := 3, left := 1 }, { key := 4 }] }).arr 0).bundles.find? fun b => b.key == 4 && b.left == 0) =
      some { key := 4 } := by decide +kernel

def feed3 : QWord × State := loadOn 31 (iw 2 [(1, 98), (3, 94)]) (dsc 2 0)
/-- A load of an address that resident 1 maps to a stack page. -/
def far (a : Nat) (w d : Nat) : QWord × State :=
  let p := loadOn a w d
  (p.1, p.2.setRes a 1 { used := true, stackMap := [(0, 2 ^ 30 + 5)] })
def fetching : QWord × State :=
  let p := far 0 (iw 1 []) (dsc 1 (2 ^ 31))
  (p.1, p.2.setArr 0 { p.2.arr 0 with fetch := some { q := p.1, bytes := 256 } })

theorem wit_LoadsStart :
    (let p := loadOn 0 (iw 1 []) (dsc 1 4)
     ReadyLoad p.2 0 1 p.1 [{}] ∧ p.2.missBytes 0 (p.2.res 0 p.1.res) p.1 = 0) ∧
    (ReadyLoad feed3.2 31 2 feed3.1 [{}] ∧ feed3.2.missBytes 31 (feed3.2.res 31 feed3.1.res) feed3.1 = 0) ∧
    (let p := loadOn 7 (iw 3 [(7, 95), (1, 99)]) (dsc 4 4)
     ReadyLoad p.2 7 3 p.1 [{}] ∧ p.2.missBytes 7 (p.2.res 7 p.1.res) p.1 = 0) ∧
    (let p := far 0 (iw 1 []) (dsc 1 (2 ^ 31))
     ReadyLoad p.2 0 1 p.1 [{}] ∧ p.2.missBytes 0 (p.2.res 0 p.1.res) p.1 ≠ 0) ∧
    ((fetching.2.arr 0).fetch = some { q := fetching.1, bytes := 256 } ∧ wOp fetching.1.word < 0x10 ∧ fetching.2.pdOn (pdSlice 0) = true ∧
      ((fetching.2.loadPieces 0 (fetching.2.res 0 1) fetching.1).any fun p => fetching.2.pageGone p.1) = false) ∧
    (let q : QWord := { word := iw 0x22 [] }
     ((arrAt z 7 { fetch := some { q := q, bytes := 256 } }).arr 7).fetch = some { q := q, bytes := 256 } ∧ 0x10 ≤ wOp q.word) := by
  decide +kernel

def xd : Nat := dsc 2 4
def sd : Nat := dsc 1 8
def od : Nat := dsc 3 16
def tile1 : Tile := { desc := sd, fmt := 7, res := 1, epoch := 9 }
def half1 : SHalf := { desc := some xd, res := 1, epoch := 9 }
/-- An MMA with ROUTE 2, FINAL, FIRST, HALF 1 and a stochastic-rounding row on a die with its key. -/
def mma : QWord × State :=
  let p := compOn 31 (iw 0x10 [(2, 57), (1, 52), (1, 51), (1, 50)]) [xd, od, sd]
  (p.1, arrUp p 31 fun x => { x with active := some tile1, half1 := half1, topk := [(3, some { count := 5, port := true })] })
def mmaSwap : QWord × State := (mma.1, arrUp mma 31 fun x => { x with active := some { tile1 with res := 0 }, shadow := some tile1 })
/-- A word whose vector lies in a stack page that no near slice holds. -/
def vecFar (p : QWord × State) (a : Nat) : QWord × State := (p.1, p.2.setRes a 1 { used := true, stackMap := [(0, 2 ^ 30 + 5)] })
def imp : QWord × State :=
  let p := compOn 2 (iw 0x11 [(1, 51)]) [fields [(6, 252), (2, 219), (1, 229), (5, 39)], od]
  (p.1, arrUp p 2 fun x => { x with sync := [(16 + 5, 2)] })

def normFar : QWord × State := vecFar (compOn 5 (iw 0x22 [(1, 61), (1, 11)]) [dsc 3 4, dsc 3 8, dsc 3 (2 ^ 31)]) 5
def impFar : QWord × State :=
  let p := compOn 2 (iw 0x11 [(1, 51), (1, 46)]) [fields [(6, 252), (2, 219), (1, 229), (5, 39)], od, dsc 3 (2 ^ 31)]
  vecFar (p.1, arrUp p 2 fun x => { x with sync := [(16 + 5, 2)] }) 2

theorem wit_ComputeInstructionsIssue :
    (ReadyMma mma.2 31 mma.1 ∧ (mma.2.arr 31).active = some tile1 ∧ tile1.isFor mma.1 ∧ mma.2.vecsIn 31 mma.1 = true) ∧
    (ReadyMma mmaSwap.2 31 mmaSwap.1 ∧ (∀ u, (mmaSwap.2.arr 31).active = some u → ¬ u.isFor mmaSwap.1) ∧
      (mmaSwap.2.arr 31).shadow = some tile1 ∧ tile1.isFor mmaSwap.1 ∧ mmaSwap.2.vecsIn 31 mmaSwap.1 = true) ∧
    (ReadyImport imp.2 2 imp.1 ∧ imp.2.vecsIn 2 imp.1 = true) ∧
    ((ReadyNorm normFar.2 5 normFar.1 ∧ normFar.2.vecsIn 5 normFar.1 = false ∧ (normFar.2.arr 5).fetch = none ∧
       ((normFar.2.vecPieces 5 normFar.1).any fun p => normFar.2.pageGone p.1) = false) ∧
     (ReadyImport impFar.2 2 impFar.1 ∧ impFar.2.vecsIn 2 impFar.1 = false ∧ (impFar.2.arr 2).fetch = none ∧
       ((impFar.2.vecPieces 2 impFar.1).any fun p => impFar.2.pageGone p.1) = false)) ∧
    (let p := compOn 0 (iw 0x20 [(1, 102), (1, 101)]) []
     p.2.headOf 0 0x20 = some p.1) ∧
    (let p := compOn 0 (iw 0x21 [(1, 97)]) []
     p.2.headOf 0 0x21 = some p.1) ∧
    (let p := compOn 5 (iw 0x22 [(1, 11)]) [dsc 3 4, dsc 3 8]
     ReadyNorm p.2 5 p.1 ∧ p.2.vecsIn 5 p.1 = true) ∧
    (let p := compOn 5 (iw 0x30 [(2, 77), (3, 75), (1, 74), (2, 55)]) [dsc 3 4]
     ReadyTksub p.2 5 p.1) ∧
    (tGet none ((arrAt z 0 { topk := [(3, some { count := 1, vals := [0#32] })] }).arr 0).topk 3 = some { count := 1, vals := [0#32] }) := by
  refine ⟨by decide +kernel, ⟨by decide +kernel, ?_, by decide +kernel⟩, by decide +kernel⟩
  intro u h
  have e : (mmaSwap.2.arr 31).active = some { tile1 with res := 0 } := by decide +kernel
  cases e.symm.trans h
  decide +kernel

def outgoing (i : Incr) : State := { on main [pdArray 3] with incrs := [{}, i] }
def doneAt (i : Issued) : State := arrAt z 6 { issued := [{}, i] }

theorem wit_SyncAndEndsOfWords :
    (let p := compOn 0 (iw 0x40 [(5, 108), (2, 92)]) []
     let p := (p.1, arrUp p 0 fun x => { x with sync := [(16 + 5, 2)] })
     p.2.headOf 0 0x40 = some p.1 ∧ bits p.1.word 107 92 ≤ (p.2.arr 0).ctr p.1.res (bits p.1.word 111 108)) ∧
    (let p := compOn 0 (iw 0x41 [(5, 107), (1, 87), (1, 86)]) []
     p.2.headOf 0 0x41 = some p.1 ∧ (bitAt p.1.word 86 = true → (p.2.arr 0).issued = [])) ∧
    (let p := compOn 0 (iw 0x42 []) []
     p.2.headOf 0 0x42 = some p.1 ∧ (p.2.arr 0).issued = [] ∧ bitAt p.1.word 111 = false) ∧
    (let p := compOn 0 (iw 0x42 [(1, 111), (143, 103), (7, 100), (3, 0)]) []
     p.2.headOf 0 0x42 = some p.1 ∧ (p.2.arr 0).issued = [] ∧ bitAt p.1.word 111 = true) ∧
    (ReadyComplete (doneAt { op := 0x10 }) 6 1 { op := 0x10 }) ∧
    (ReadyComplete (doneAt { op := 0x11, dsig := some 15 }) 6 1 { op := 0x11, dsig := some 15 }) ∧
    (let i : Incr := { target := 3, res := 1, ctr := 15, value := 65535, epoch := 9 }
     let s := (outgoing i).setArr 3 { actEp := [(1, some 9)], sync := [(31, 1)] }
     s.incrs[1]? = some i ∧ s.pdOn (pdArray i.target) = true ∧ tGet none (s.arr i.target).actEp i.res = some i.epoch ∧ i.staged = none) ∧
    (let i : Incr := { target := 4 }
     (outgoing i).incrs[1]? = some i ∧ (outgoing i).pdOn (pdArray i.target) = false) ∧
    (on main [pdArray 31]).pdOn (pdArray 31) = true ∧
    (let p := compOn 0 (iw 0x40 []) []
     (p.2.arr 0).compQ = p.1 :: [{}] ∧ p.2.o Od.arrayWaitLimit ≤ 65535 ∧ p.2.mayIssue 0 p.1 = true ∧
       ((p.2.endBundle 0 p.1.bundle stWAIT p.1.idx).faultRec 0x2B 0 0 0 0 1 [(16, 0), (16, p.1.res), (32, p.1.epoch)]).stepOfWord
         0 p.1.res p.1.epoch = none) ∧
    (on main [pdArray 2]).pdState (pdArray 2) = pdON := by decide +kernel

/-! ## Memory tiers -/

def gr (g : Nat) (x : Gran) : State := main.setGran g x
def pg (p : Nat) (x : Page) : State := main.setPage p x
def migr : Migr := { page := 196607, piece := 31, gran := 16383 }
def migrating : State :=
  let s := ((gr 16383 { state := gMIGRATING, page := 196607, piece := 31 }).setPage 196607 { cls := cPINNED, heat := 9 })
  { s with mem := { s.mem with queues := [(31, [migr, {}])] } }
def pinnedPage : Page := { cls := cPINNED, use := ⟨1, 2, 0⟩ }
def refetching : State := { on main [pdStack 1] with mem := { main.mem with refetch := [(5, {}), (49151, pinnedPage)] } }
def refetchUsed : State := refetching.setStake 2 { used := true, model := 5 }

theorem wit_TiersMovePieces :
    (put z [(Od.beatCount, 2048)]).beat % 1024 = 0 ∧ (put z [(Od.beatCount, 32768)]).beat % 16384 = 0 ∧
    ReadyMigration migrating 31 migr [{}] := by decide +kernel

theorem wit_TierErrorsRetire :
    (((gr 16383 { state := gTIERED }).gran 16383).state ≠ gRETIRED ∧ granHome ((gr 16383 { state := gTIERED }).gran 16383) = false) ∧
    (((gr 0 { state := gHOME }).gran 0).state ≠ gRETIRED) ∧
    (((pg 196607 { cls := cHOME }).page 196607).cls ≠ cRETIRED ∧ ((pg 196607 { cls := cHOME }).page 196607).cls ≠ cFIRMWARE) ∧
    (((pg 0 { cls := cFIRMWARE }).page 0).cls = cFIRMWARE) ∧
    (refetching.mem.refetch.find? (fun e => e.1 == 49151) = some (49151, pinnedPage) ∧ refetching.stillUsed 49151 pinnedPage.use = false) ∧
    (refetchUsed.mem.refetch.find? (fun e => e.1 == 49151) = some (49151, pinnedPage) ∧
      refetchUsed.stillUsed 49151 pinnedPage.use = true ∧
      (refetchUsed.pageAgain (49151 / 49152) { pinnedPage with heat := 0, touch := 0, present := 0 }).isSome = true) ∧
    (let s : State := { z with mem := { z.mem with pcErr := [(511, [(1, 5), (2, 0)])], scrub := [(0, 64)] } }
     ChannelDue s 7 63 0 ∧ ChannelDue s 0 0 1 ∧ ChannelDue s 3 3 2 ∧ bitAt (tGet 0 s.mem.pcOut 7) 63 = false ∧ 7 ∉ s.mem.stacksOut) ∧
    (on main [pdStack 7]).stackUp 7 = true ∧ (7 ∉ main.mem.stacksOut ∧ main.power.mainOn = true) := by decide +kernel

/-! ## Models and skeins -/

def padTo (n : Nat) (l : List Byte) : List Byte := l ++ List.replicate (n - l.length) 0
def dirEntry (kind count off len : Nat) : List Byte := leBytes 16 (fields [(kind, 120), (count, 64), (off, 32), (len, 0)])
/-- A container of one stake, one fold shape of 64 rows and one course on one logical array. -/
def contHead : List Byte :=
  padTo 256 (leBytes 64 (fields [(0x43594431, 480), (2, 464), (1, 456), (1, 448), (1, 440), (1, 424), (2, 414), (2, 406), (8, 400)]) ++
    dirEntry 1 1 256 4 ++ dirEntry 2 1 512 4 ++ dirEntry 3 1 768 16 ++ dirEntry 4 1 1024 32 ++ dirEntry 5 0 1280 0 ++
    dirEntry 6 0 1792 114688 ++ dirEntry 7 0 1280 0 ++ dirEntry 8 0 1536 48) ++
  padTo 256 (leBytes 4 (1 * 2 ^ 26)) ++ padTo 256 (leBytes 4 (64 * 2 ^ 18)) ++ padTo 256 (leBytes 16 (2 ^ 114)) ++
  padTo 512 (leBytes 8 (fields [(1, 32), (1, 0)]))
def contTail : List Byte := List.replicate (208 + 114688) 0
def contOf (h : Nat) : List Byte := contHead ++ beBytes 48 h ++ contTail
def cont : List Byte := contOf (sha384 (contHead ++ contTail))

theorem contHead_length : contHead.length = 1536 := by decide +kernel
theorem cont_length (h : Nat) : (contOf h).length = 116480 := by
  rw [contOf, contTail, List.length_append, List.length_append, contHead_length, beBytes_length, List.length_replicate]

theorem cont_parses : (planAt 116480 cont {}).isSome = true := by decide +kernel
def contPlan : Plan := (planAt 116480 cont {}).get cont_parses
theorem cont_plan : parsePlan cont {} = some contPlan := by
  rw [parsePlan, cont, cont_length]; exact (Option.some_get cont_parses).symm
theorem cont_sec : planSecOf cont 8 = { kind := 8, off := 1536, len := 48 } := by decide +kernel
theorem cont_digest : contPlan.digestOk = true := by
  rw [planAt_digestOk (p := contPlan) (Option.some_get cont_parses).symm, cont_sec, beq_iff_eq]
  exact digest_in_place contHead contTail 1536 contHead_length

def loading : State :=
  { put z [(Od.modelState 5, 1), (Od.planObject 5, 3), (Od.placement 5, octSet (z.o (Od.placement 5)) 256 1 0 0x81),
      (Od.nearQuota (z.o (Od.modelOwner 5)), 10)] with store := [(3, { state := 2, bytes := cont })] }

theorem loading_taken : (loading.takeLoad 5 contPlan).isSome = true := by decide +kernel
/-- A small plan of one stake on one logical array. -/
def plan1 : Plan := { stakes := 1, folds := 1, courses := 1, accUnits := 1, arrays := 1, home := 2, transit := 1, maxRows := [64]
                      recs := [{ last := true, kvWrite := true, remote := true, remoteNs := 10, base := 1000, rowC := 10 }] }
/-- Model 5 of plan p in state k, with stake 2 on array 1. -/
def modelIn (p : Plan) (k : Nat) : State :=
  let s := put main [(Od.modelState 5, k), (Od.stakeNumbers 5, octSet (z.o (Od.stakeNumbers 5)) 16 2 0 2)]
  let s := (s.setModel 5 { plan := some p }).setStake 2 { used := true, model := 5, arrays := [1], place := [0x81], lead := true }
  s.setRes 1 0 { used := true, model := 5, stake := 2, accUnits := 1 }
def storeAt (s : State) (k : Nat) (x : StoreObj) : State := { s with store := [(k, x)] }
theorem storeAt_obj (s : State) (k : Nat) (x : StoreObj) : (storeAt s k x).storeObj k = x := by
  simp [storeAt, State.storeObj, tGet]
def tiles5 : State := storeAt (modelIn plan1 2) ((modelIn plan1 2).o (Od.planObject 5)) { state := 2 }
def commit5 : State := (modelIn plan1 2).setModel 5 { plan := some plan1, passed := true }

theorem wit_ModelsLoadAndUnload :
    (∃ p t, ReadyLoadOf loading 5 {} p t) ∧ (∃ shs, ReadyTiles tiles5 5 plan1 shs) ∧ (∃ t, ReadyLoadCommit commit5 5 plan1 t) ∧
    (let s := (modelIn plan1 3).setModel 5 { plan := some plan1, unloadAsked := true }
     s.o (Od.modelState 5) = 3 ∧ (s.model 5).unloadAsked = true) ∧
    (let s := modelIn plan1 4
     s.o (Od.modelState 5) = 4 ∧ s.slots.ledgerBad = false ∧ (s.reqs.any fun e => e.2.state == 2 && e.2.binds 5) = false ∧
       (s.steps.any fun e => e.2.model == 5) = false) ∧
    (let s := put (modelIn plan1 5) [(Od.modelCommand 5, 3)]
     s.o (Od.modelState 5) = 5 ∧ s.o (Od.modelCommand 5) = 3) ∧
    (let s := (modelIn plan1 3).setModel 5 { plan := some plan1, stuck := z.o Od.modelFailBeats }
     s.o (Od.modelState 5) = 3 ∧ s.o Od.modelFailBeats ≤ (s.model 5).stuck) := by
  refine ⟨⟨contPlan, _, by decide +kernel, by decide +kernel, by decide +kernel, ?_, cont_digest, by decide +kernel,
    (Option.some_get loading_taken).symm⟩, ⟨[], by decide +kernel⟩, ?_, by decide +kernel⟩
  · have e : (loading.storeObj (loading.o (Od.planObject 5))).bytes = cont := by
      have k : loading.o (Od.planObject 5) = 3 := by decide +kernel
      rw [k]; rfl
    rw [e]; exact cont_plan
  · have h : (placeAll plan1 ((commit5.stakesOf 5).flatMap fun n => (commit5.stake n).arrays.map fun a => (n, a)) commit5).isSome = true := by
      decide +kernel
    exact ⟨_, by decide +kernel, by decide +kernel, by decide +kernel, by decide +kernel, (Option.some_get h).symm⟩

def skeinCmd (op phase : Nat) : SkCmd := { op := op, phase := phase, tenant := 7, id := 0xABC, source := 4, slot := 511, wait := 2, started := 0 }
def skeining (op phase : Nat) : State := (modelIn plan1 3).setModel 5 { plan := some plan1, sk := some (skeinCmd op phase) }
def waited : State := put (skeining 1 2) [(Od.beatCount, 2)]
def copying : State := storeAt (skeining 1 3) 4 { state := 2 }
def skeinHeld (k state : Nat) : State :=
  put (skeining 2 0) [(Od.skeinState k, state), (Od.skeinTenant k, 7), (Od.skeinModel k, 5), (Od.skeinId k, 0xABC)]

theorem wit_SkeinsLoadAndGo :
    (((skeining 1 0).model 5).sk = some (skeinCmd 1 0)) ∧ ((waited.model 5).sk = some (skeinCmd 1 2) ∧ 0 + 2 ≤ waited.beat) ∧
    ReadySkeinCopy copying 5 (skeinCmd 1 3) plan1.base [(5242, 1), (2621, 2)] ∧
    (((skeinHeld 511 2).model 5).sk = some (skeinCmd 2 0) ∧ (skeinHeld 511 2).skeinOf 7 5 0xABC = some 511) ∧
    ((skeinHeld 0 4).o (Od.skeinState 0) = 4 ∧ (skeinHeld 0 4).o (Od.skeinRefs 0) = 0) := by decide +kernel

/-! ## Gate, steps, generation -/

/-- A DELETE request of one identifier, held for a decision on port 2. -/
def deleteBody : List Byte := beBytes 128 (fields [(6, 1016), (128, 400), (8, 368), (1, 352)]) ++ beBytes 8 77
def reqOf (r : Req) : State :=
  let s := put main [(Od.tenantState 3, 1), (Od.classState 0, 1), (Od.tenants 0, 2 ^ 256 - 1), (Od.kinds 0, 0x3F), (Od.bootStep, 11),
    (Od.inflightQuota 3, 1), (Od.bufQuota 3, 1)]
  { s with reqs := [(4, r)], gate := { s.gate with waiting := [4] } }
def delReq : Req := { tenant := 3, id := 9, ingress := 2, path := { port := 0 }, body := deleteBody, len := 136, head := (parseHead deleteBody).1
                      items := (parseHead deleteBody).2 }
def granted : State := (reqOf delReq).grant 2 4
def checked : State := (granted.gateChecks 4 (granted.boundReq (granted.req 4))).1
def cancelled : State := reqOf { delReq with cancel := some (1, 1) }
def heldReq : State := put (reqOf { delReq with state := 1, heldAt := 0 }) [(Od.beatCount, 2 ^ 32)]
def lateReq : State := put (reqOf { delReq with state := 2, cls := { e2e := 3 }, beat := 5 }) [(Od.beatCount, 8)]

theorem granted_accepts : Accepts granted 4 checked := by
  have h : (granted.gateChecks 4 (granted.boundReq (granted.req 4))).2 = none := by decide +kernel
  exact ⟨by decide +kernel, by decide +kernel, Prod.ext rfl h, by decide +kernel, by decide +kernel⟩

theorem wit_GateAndDeadlines :
    ((reqOf delReq).nextGrant 2 = some 4 ∧ ((granted.decide1 4).hasReq 4 && ((granted.decide1 4).req 4).cancel.isSome) = false) ∧
    (Accepts granted 4 checked ∧ (checked.admits 4).hasReq 4 = true ∧ ((checked.admits 4).req 4).cancel = none) ∧
    (cancelled.nextGrant 2 = some 4 ∧ ((cancelled.grant 2 4).decide1 4).hasReq 4 = true ∧
      (((cancelled.grant 2 4).decide1 4).req 4).cancel.isSome = true) ∧
    (heldReq.hasReq 4 = true ∧ (heldReq.req 4).state = 1 ∧
      (heldReq.req 4).heldAt + (heldReq.boundReq (heldReq.req 4)).cls.deferLimit ≤ heldReq.beat) ∧
    (lateReq.hasReq 4 = true ∧ (lateReq.req 4).state = 2 ∧ (lateReq.req 4).final = none ∧ (lateReq.req 4).cls.e2e ≠ 0 ∧
      (lateReq.req 4).beat + (lateReq.req 4).cls.e2e ≤ lateReq.beat) :=
  ⟨by decide +kernel, ⟨granted_accepts, by decide +kernel⟩, by decide +kernel⟩

/-- Two courses, the first neither last nor remote; key-value rows of one lane. -/
def plan2 : Plan := { plan1 with courses := 2, x := { layers := 1, heads := 1, dim := 64, lanes := 1, readers := [0] }
                                 recs := [{ base := 1000 }, { course := 1, last := true, kvWrite := true, remote := true, remoteNs := 10 }] }
/-- Step 7 of model 5 on stake 2, with one row of request 4. -/
def stepping (p : Plan) (t : Sys2Proof.Machine.Step) (z : Row) : State :=
  let s := modelIn p 3
  let s := s.setStake 2 { s.stake 2 with step := some 7 }
  { s with steps := [(7, { t with model := 5, stake := 2, state := spRUNNING, rows := [z] })]
           reqs := [(4, { delReq with state := 2, seqE := some 4095 })], seqs := [(4095, { state := 1, req := 4, model := 5 })] }
def mid : State := stepping plan2 {} { kind := 1, req := 4 }
def midSusp : State := stepping plan2 { suspend := true } { kind := 1, req := 4 }
def ending : State := stepping plan2 { course := 1 } { kind := 3, req := 4 }
def writing : State := on (stepping plan2 { course := 1 } { kind := 0, req := 4, start := 250, n := 6 }) [pdStack 0]
def wrote : Option (State × Nat) := writing.kvPageFor 4095 0 0 0 (writing.stake 2) (writing.planX 5) 1
def seqWith (y : Seq) : State := { reqOf { delReq with state := 2 } with seqs := [(0, { y with req := 4 })] }
def held6 : State := { z with prefixes := [(6, { pages := [8, 9] })] }

theorem wrote_some : wrote.isSome = true := by decide +kernel

theorem wit_StepsRunAndCommit :
    (ReadyCourse mid 7 ∧ ((mid.courseOf (mid.step_ 7)).any (·.last)) = false ∧ (mid.step_ 7).suspend = false ∧ RowsLeft mid 7 90) ∧
    (ReadyCourse midSusp 7 ∧ ((midSusp.courseOf (midSusp.step_ 7)).any (·.last)) = false ∧ (midSusp.step_ 7).suspend = true ∧
      RowsLeft midSusp 7 90) ∧
    (ReadyCourse ending 7 ∧ ((ending.courseOf (ending.step_ 7)).any (·.last)) = true ∧ ending.stepReady (ending.step_ 7) = true ∧
      RowsLeft ending 7 90) ∧
    (∃ c, ending.courseOf (ending.step_ 7) = some c ∧ ending.hasStep 7 = true ∧ (ending.step_ 7).state = spRUNNING ∧ c.remote = true ∧
      c.remoteNs + ending.o Od.remoteGraceNs < 2 ^ 33) ∧
    (∃ t p, ReadyPage writing 1 0 4095 false 0 250 6 7 t p) ∧
    (tHas held6.prefixes 6 = true ∧ (tGet {} held6.prefixes 6 : Prefix).refs = 0 ∧
      ((tGet {} held6.prefixes 6 : Prefix).pages.all fun k => (held6.page (kvPageOf k)).heat == 0) = true) ∧
    (let s := seqWith { commits := [(1, 0, 1), (2, 3, 2)] }
     (s.seq 0).commits = [(1, 0, 1), (2, 3, 2)] ∧ s.hasReq (s.seq 0).req = true ∧ s.seenUpTo 0 = true) ∧
    (let s := seqWith { commits := [(1, 0, 1)], ended := true }
     (s.seq 0).commits = [(1, 0, 1)] ∧ s.hasReq (s.seq 0).req = true ∧ s.seenUpTo 0 = true ∧ (s.seq 0).ended = true ∧
       (s.seq 0).dead = false) ∧
    (let s := seqWith { commits := [(1, 0, 1)], ended := true, dead := true }
     (s.seq 0).ended = true ∧ (s.seq 0).dead = true) := by
  refine ⟨by decide +kernel, by decide +kernel, by decide +kernel, ⟨plan2.recs.getD 1 {}, by decide +kernel⟩, ?_, by decide +kernel⟩
  have e : wrote = some ((wrote.get wrote_some).1, (wrote.get wrote_some).2) := (Option.some_get wrote_some).symm
  exact ⟨_, _, by decide +kernel, by decide +kernel, by decide +kernel, by decide +kernel, by decide +kernel, by decide +kernel,
    by decide +kernel, by decide +kernel, by decide +kernel, e, by decide +kernel⟩

theorem wit_BoundaryTakesPowerAndLimit : stby.power.stbyOn = true := by decide +kernel

/-! ## Dice, masks, vocabularies, grammars -/

/-- A dice job of array 31: a mode, its positions, sequence 4095, LAST; FP32 1.0 as TOP_P; COUNT 2. -/
def job (mode pos gram : Nat) : Nat :=
  fields [(mode, 252), (31, 246), (1, 244), (pos - 1, 240), (9, 224), (2, 194), (4095, 182), (gram, 181), (63, 175), (1, 174), (0x3F800000, 96)]
def diceOn : State := { on main [pdSpine 3] with dice := [(7, { hasKey := true, key := 5 })] }
def frame : Mask := { dice := 7, eng := 3, users := [(4095, 0)], full := true, epoch := 9 }
def diceMasked : State := { diceOn with masks := [frame] }
def perf : DiceJob := { word := job 1 1 0, result := some 3, drawn := some {} }
def die (u : Nat) (d : Dice) : State := { on main [pdSpine (u / 2)] with dice := [(u, d)] }
/-- 2 k bits, set and clear in turn. -/
def turns : Nat → Nat
  | 0 => 0
  | k + 1 => 4 * turns k + 1
def turnBits : Nat → List Bool
  | 0 => []
  | k + 1 => true :: false :: turnBits k
theorem turns_bits (k : Nat) : ((List.range (2 * k)).map fun i => bitAt (turns k) i) = turnBits k := by
  induction k with
  | zero => rfl
  | succ k ih =>
    have h0 : bitAt (turns (k + 1)) 0 = true := by simp [bitAt, turns]; omega
    have h1 : bitAt (turns (k + 1)) 1 = false := by simp [bitAt, turns]; omega
    have h2 (i : Nat) : bitAt (turns (k + 1)) (i + 1 + 1) = bitAt (turns k) i := by
      have : turns (k + 1) / 2 ^ (i + 1 + 1) = turns k / 2 ^ i := by
        rw [show i + 1 + 1 = 2 + i by omega, Nat.pow_add, ← Nat.div_div_eq_div_mul]
        congr 1; simp [turns]; omega
      simp [bitAt, this]
    rw [show 2 * (k + 1) = 2 * k + 1 + 1 by omega, List.range_succ_eq_map, List.range_succ_eq_map]
    simp only [List.map_cons, List.map_map, turnBits, ← ih]
    simp only [h0, h1, Function.comp_def, Nat.succ_eq_add_one, h2, Nat.zero_add]
theorem turns_longest (k : Nat) : longestSame (turnBits k) 1 false 1 = 1 := by
  induction k with
  | zero => rfl
  | succ k ih => simpa [turnBits, longestSame] using ih
theorem turns_take (n k : Nat) : (turnBits (n + k)).take (2 * n) = turnBits n := by
  induction n with
  | zero => simp [turnBits]
  | succ n ih =>
    rw [show n + 1 + k = (n + k) + 1 by omega, show 2 * (n + 1) = 2 * n + 1 + 1 by omega]
    simp [turnBits, ih]
theorem turns_count (n : Nat) : ((turnBits n).filter fun c => c == true).length = n := by
  induction n with
  | zero => rfl
  | succ n ih => simp [turnBits] at *; exact ih
theorem turns_healthy : healthy ((List.range 1536).map fun i => bitAt (turns 768) i) = true := by
  rw [show 1536 = 2 * 768 by rfl, turns_bits, healthy]
  rw [show (turnBits 768).take 1024 = turnBits 512 from turns_take 512 256]
  have h : longestSame (turnBits 768) 0 false 0 = 1 := by
    rw [show 768 = 767 + 1 by rfl, turnBits]; simpa [longestSame] using turns_longest 767
  have c : windowCount (turnBits 512) = 512 := turns_count 512
  rw [h, c]; decide

theorem wit_DiceMasksAndKeys :
    ReadyDice diceOn 31 [job 3 16 0] 0 { word := job 3 16 0 } ∧ ReadyDice diceMasked 31 [job 1 1 1] 0 { word := job 1 1 1 } ∧
    ((diceOn.setDiceQ 31 [perf, {}]).diceQ 31 = [perf, {}] ∧ perf.result = some 3) ∧
    (let s := { diceOn with masks := [frame, { frame with full := false, gstate := 2 }] }
     ((s.masks.filter fun f => 4 * f.dice + f.eng == 31).take 32).find? (fun f => !f.full) = some { frame with full := false, gstate := 2 } ∧
       s.pdOn (pdSpine (31 / 8)) = true) ∧
    (((die 7 { hasKey := true, blocks := 2 ^ 20 }).die_ 7).hasKey = true ∧ 2 ^ 20 ≤ ((die 7 { hasKey := true, blocks := 2 ^ 20 }).die_ 7).blocks) ∧
    ((die 0 {}).pdOn (pdSpine 0) = true ∧ (die 0 {}).o (Od.rngSourceState 0) ≠ 2 ∧
      healthy ((List.range 1536).map fun i => bitAt (turns 768) i) = true ∧ ((die 0 {}).die_ 0).hasKey = false) ∧
    ((die 7 { hasKey := true }).o (Od.rngSourceState 7) ≠ 2 ∧ ((die 7 { hasKey := true }).die_ 7).hasKey = true) ∧
    (healthy ((List.range 1536).map fun i => bitAt 0 i) = false ∧ ((die 7 { fails := 62 }).die_ 7).fails < 63) := by
  exact ⟨by decide +kernel, by decide +kernel, by decide +kernel, by decide +kernel, by decide +kernel,
    ⟨by decide +kernel, by decide +kernel, turns_healthy, by decide +kernel⟩, by decide +kernel⟩

/-- A vocabulary image of two entries: "a" and END; fallback to entry 0. -/
def vbody : List Byte :=
  padTo 256 (leBytes 64 (fields [(0x56434231, 480), (1, 464), (2, 445), (1, 427), (1, 425), (0, 407), (1, 399), (77, 320), (2, 288),
    (256, 224), (512, 192), (768, 160), (1, 128)])) ++
  padTo 256 (leBytes 16 (fields [(1, 104), (1, 84), (97, 76)]) ++ leBytes 16 (fields [(1, 125)])) ++
  padTo 256 (leBytes 8 (fields [(1, 24)]) ++ leBytes 8 (fields [(1, 23)])) ++ [97#8]
def vimg : List Byte := vbody ++ beBytes 48 (sha384 vbody)
/-- A grammar image of one state whose mask admits both entries and which stays where it is. -/
def gbody : List Byte :=
  padTo 256 (leBytes 64 (fields [(0x47524D31, 480), (1, 464), (1, 447), (0, 431), (1, 414), (2, 395), (1, 392), (0, 388), (0, 384), (77, 320),
    (256, 288), (512, 256), (512, 224), (512, 192)])) ++
  padTo 256 (leBytes 16 (fields [(1, 102)])) ++ padTo 256 [3#8]
def gimg : List Byte := gbody ++ beBytes 48 (sha384 gbody)
def knows (id n : Nat) : Bool := id == 77 && n == 2
theorem signed_ok (body : List Byte) : imageDigestOk (body ++ beBytes 48 (sha384 body)) = true := by
  rw [imageDigestOk, beNat_drop _ _ _ (sha384_lt _), List.length_append, beBytes_length, Nat.add_sub_cancel, List.take_left, beq_self_eq_true]
theorem vimg_checks : (vocabChecks true vimg).isRight = true := by decide +kernel
theorem gimg_checks : (grammarChecks true gimg knows).isRight = true := by decide +kernel
def vocab1 : Vocab := match vocabChecks true vimg with
  | .inr w => w
  | .inl _ => {}
def grammar1 : Grammar := match grammarChecks true gimg knows with
  | .inr w => w
  | .inl _ => {}
theorem vimg_is : parseVocab vimg = .inr vocab1 := by
  rw [parseVocab, show imageDigestOk vimg = true from signed_ok vbody]
  have h := vimg_checks
  unfold vocab1; revert h
  cases vocabChecks true vimg <;> simp
theorem gimg_is : parseGrammar gimg knows = .inr grammar1 := by
  rw [parseGrammar, show imageDigestOk gimg = true from signed_ok gbody]
  have h := gimg_checks
  unfold grammar1; revert h
  cases grammarChecks true gimg knows <;> simp

/-- The same vocabulary without its digest. -/
def vocab0 : Vocab := { entries := 2, endTok := 1, fb := 1, maxB := 1, id := 77, image := vbody, trieOff := 256, nodes := 2, invOff := 512
                        strOff := 768 }
def vslots : State :=
  storeAt (put (on main [pdStack 0]) [(Od.vocabState 15, 3), (Od.vocabSource 15, 3), (Od.vocabTargetSlice 15, 0), (Od.stackQuota 0, 1)]) 3 { state := 2, bytes := vimg }
def gslots : State :=
  storeAt (put (on main [pdStack 0]) [(Od.grammarSlotState 63, 1), (Od.grammarSource 63, 3), (Od.grammarTargetSlice 63, 7), (Od.stackQuota 0, 1), (Od.grammarVocabSlot 63, 15),
    (Od.vocabState 15, 2), (Od.vocabId 15, 77), (Od.vocabEntries 15, 2)]) 3 { state := 2, bytes := gimg }
def vnext (n : Nat) : State := (put z [(Od.vocabState 15, n)]).setVslot 15 { next := some { id := 5 } }
def gnext (n : Nat) : State := (put z [(Od.grammarSlotState 63, n)]).setGslot 63 { next := some { vid := 5 } }
/-- A job of request 4 on the RN die, whose vocabulary is in slot 2. -/
def tok (req : Nat) : State :=
  let s := on (reqOf { delReq with head := { kind := 1, encV := 2, question := [98#8, 97#8] } }) [84]
  { s.setVslot 2 { cur := some vocab0 } with trieQ := [{ req := req }] }

def gone : State := (tok 5).setVslot 0 { cur := some vocab0 }

theorem wit_VocabulariesAndGrammars :
    (∃ t, ReadyVocabLoad vslots 15 vocab1 t) ∧
    (((vnext 3).vslot 15).next = some { id := 5 } ∧ (vnext 3).o (Od.vocabState 15) = 3 ∧ (vnext 3).o (Od.vocabRefs 15) = 0) ∧
    ((put z [(Od.vocabState 15, 2), (Od.vocabCommand 15, 2)]).o (Od.vocabState 15) = 2 ∧
      (put z [(Od.vocabState 15, 2), (Od.vocabCommand 15, 2)]).o (Od.vocabCommand 15) = 2) ∧
    ((vnext 4).o (Od.vocabState 15) = 4 ∧ (vnext 4).o (Od.vocabRefs 15) = 0) ∧
    (∃ t, ReadyGrammarLoad gslots 63 grammar1 t) ∧
    (((gnext 1).gslot 63).next = some { vid := 5 } ∧ (gnext 1).o (Od.grammarSlotState 63) = 1) ∧
    ((put z [(Od.grammarSlotState 63, 2), (Od.grammarCommand 63, 2)]).o (Od.grammarSlotState 63) = 2 ∧
      (put z [(Od.grammarSlotState 63, 2), (Od.grammarCommand 63, 2)]).o (Od.grammarCommand 63) = 2) ∧
    ((gnext 4).o (Od.grammarSlotState 63) = 4 ∧ (gnext 4).o (Od.grammarRefs 63) = 0) ∧
    ({ z with grammars := [(7, { cur := some {} })] } : State).grammars = [(7, { cur := some {} })] ∧
    (ReadyTokenize gone 0 [0, 1] { req := 5 } 0 512 2 vocab0 ∧ gone.hasReq 5 = false) ∧
    (ReadyTokenize (tok 4) 0 [0, 1] { req := 4 } 2 512 2 vocab0 ∧ (tok 4).hasReq 4 = true ∧
      (takeBufs 0 ((tok 4).req 4).tenant 4 (cdiv (4 * (((tok 4).trieRun { req := 4 } 2 512 2 vocab0).1.length + 1)) 4096)
        (tok 4)).isSome = true) := by
  have h : (vslots.pinImage (vslots.o (Od.vocabOwner 15)) (vslots.o (Od.vocabTargetSlice 15)) 3 (slotObj 15 ((vslots.vslot 15).gen + 1)) vocab1.image).isSome = true := by decide +kernel
  have k : (gslots.pinImage (gslots.o (Od.grammarOwner 63)) (gslots.o (Od.grammarTargetSlice 63)) 4 (slotObj 63 ((gslots.gslot 63).gen + 1)) grammar1.image).isSome = true := by decide +kernel
  have gv : (fun id n => gslots.o (Od.vocabState (gslots.o (Od.grammarVocabSlot 63))) == 2 &&
      gslots.o (Od.vocabId (gslots.o (Od.grammarVocabSlot 63))) == id && gslots.o (Od.vocabEntries (gslots.o (Od.grammarVocabSlot 63))) == n) = knows := by
    have e1 : (gslots.o (Od.vocabState (gslots.o (Od.grammarVocabSlot 63))) == 2) = true := by decide +kernel
    have e2 : gslots.o (Od.vocabId (gslots.o (Od.grammarVocabSlot 63))) = 77 := by decide +kernel
    have e3 : gslots.o (Od.vocabEntries (gslots.o (Od.grammarVocabSlot 63))) = 2 := by decide +kernel
    funext id n
    rw [e1, e2, e3, knows, Bool.true_and, BEq.comm (a := 77), BEq.comm (a := 2)]
  refine ⟨⟨_, by decide +kernel, by decide +kernel, by decide +kernel, ?_, (Option.some_get h).symm⟩, by decide +kernel, by decide +kernel,
    by decide +kernel, ⟨_, by decide +kernel, by decide +kernel, by decide +kernel, ?_, (Option.some_get k).symm⟩, by decide +kernel⟩
  · have e : vslots.storeObj (vslots.o (Od.vocabSource 15)) = { state := 2, bytes := vimg } := by
      rw [show vslots.o (Od.vocabSource 15) = 3 by decide +kernel, vslots, storeAt_obj]
    rw [e]; exact vimg_is
  · have e : gslots.storeObj (gslots.o (Od.grammarSource 63)) = { state := 2, bytes := gimg } := by
      rw [show gslots.o (Od.grammarSource 63) = 3 by decide +kernel, gslots, storeAt_obj]
    rw [e, gv]; exact gimg_is

/-! ## Index, texts, search, merges -/

def ix (l : List (Nat × Nat)) (x : Index) : State := { put main l with index := x }
def groupsOn : State := on (put main [(Od.indexState, 2), (Od.indexRimSlots, 0), (Od.indexSpineSlots, 0), (Od.indexStackSlots, 0)])
  [85, 86, 87, 88, 92, 93, 94, 95]
def mounted3 (x : Index) : State := ix [(Od.indexState, 3), (Od.beatCount, 2 ^ 20)] x

theorem wit_IndexFormatsMountsUnmounts :
    (put z [(Od.indexState, 1)]).o Od.indexState = 1 ∧ ReadyMount groupsOn [] ∧
    ((put groupsOn [(Od.pdState 95, pdFAILED)]).o Od.indexState = 2 ∧
      ([85, 86, 87, 88, 92, 93, 94, 95].any fun p => (put groupsOn [(Od.pdState 95, pdFAILED)]).pdState p == pdFAILED) = true) ∧
    ReadyUnmount (mounted3 { unmount := true }) ∧
    ((mounted3 {}).mounted = true ∧ (mounted3 {}).index.ckpt + (mounted3 {}).o Od.checkpointBeats ≤ (mounted3 {}).beat) ∧
    (let s := ix [(Od.indexState, 4)] { dirLost := true }
     s.index.dirLost = true ∧ s.o Od.indexState = 4 ∧ s.index.deadDies = [] ∧ s.index.deadCh = []) := by decide +kernel

def page5 : SidePage := { num := 5, apps := [{}], stripe := 4 }
def textFull : Index :=
  { fmtText := 4, usedSegs := List.range 48, textLast := some (47 * 47616), textHead := 47 * 47616 * 1024
    text := [(1024, { bytes := [1, 2], done := true })] }
def dictAt (cmd : Nat) (o : StoreObj) : State :=
  storeAt (ix [(Od.textDictCommand 63, cmd), (Od.textDictSource 63, 8)] { dictPend := [63] }) 8 o
def dictObj : StoreObj := { state := 2, bytes := leBytes 4 0xEC30A437 ++ [0, 0] }

theorem wit_AppendsAndTextsAreWritten :
    ((mounted3 { staged := [{ at_ := 0 }] }).mounted = true ∧
      ((mounted3 { staged := [{ at_ := 0 }] }).index.staged.any fun a =>
        decide (a.at_ + (mounted3 {}).o Od.sideFlushBeats ≤ (mounted3 {}).beat)) = true) ∧
    ((mounted3 { formed := [{}, page5] }).index.formed.find? fun p => p.num == 5) = some page5 ∧
    ((mounted3 { stripe := some 9, formed := [page5] }).index.stripe = some 9 ∧
      0 + (mounted3 {}).o Od.sideStripeCloseBeats ≤ (mounted3 {}).beat ∧
      ((mounted3 { stripe := some 9, formed := [page5] }).index.formed.any fun p => p.stripe == 9) = false) ∧
    ((mounted3 { textAt := some 3 }).index.textAt = some 3 ∧ 3 + (mounted3 {}).o Od.sideFlushBeats ≤ (mounted3 {}).beat) ∧
    (mounted3 { inflight := [7, 8] }).index.inflight.contains 8 = true ∧
    ((mounted3 textFull).mounted = true ∧ 100 * (12 * textFull.fmtText - textFull.usedSegs.length) < 2 * (12 * textFull.fmtText) ∧
      (mounted3 textFull).compactable = 0 :: (List.range 46).map (· + 1) ∧
      (moveFrames (2 ^ 20) (textFull.liveFrames 0) textFull).isSome = true) ∧
    (ReadyDict (dictAt 1 dictObj) 63 ∧ leAt dictObj.bytes 0 4 = 0xEC30A437 ∧ dictObj.bytes.length ≤ 131072) ∧
    ((dictAt 2 {}).index.dictPend.contains 63 = true ∧ (dictAt 2 {}).o (Od.textDictCommand 63) = 2) := by decide +kernel

def ver1 : Version := { num := 2, ents := [{}], first := 3, flip := 4 }
def listOf (y : LList) : Index := { lists := [(70, y)] }
def side9 : SidePage := { page5 with num := 9 }

theorem wit_FlashFailuresAreContained :
    (((mounted3 { formed := [page5], stripe := some 2 }).index.formed.find? fun p => p.num == 5) = some page5 ∧
      (mounted3 { formed := [page5], stripe := some 2 }).index.stripe = some 2) ∧
    (let x : Index := { inflight := [7], textLast := some 7 }
     x.inflight.contains 7 = true ∧ x.textAfter x.textLast = some 8) ∧
    (((mounted3 (listOf { merge := some { cut := 3 } })).index.list 70).merge = some { cut := 3 }) ∧
    ReadyMain (mounted3 (listOf { vers := [ver1] })) 70 0 ∧
    (((mounted3 { sidePages := [page5, side9], stripe := some 4 }).index.sidePages.find? fun p => p.num == 9 && !p.lost) = some side9 ∧
      (mounted3 { sidePages := [page5, side9], stripe := some 4 }).index.stripe = some side9.stripe) ∧
    ((mounted3 textFull).index.text.any fun e => e.1 / 1024 == 1 && e.2.done) = true ∧
    ((dictAt 1 dictObj).storeObj 8).state = 2 ∧
    ((mounted3 {}).index.deadDies.contains (12 * 31 + 11) = false ∧ (mounted3 {}).index.deadCh.contains 31 = false) ∧
    ((mounted3 { rebuild := [77] }).index.rebuild = [77]) := by decide +kernel

def query4 : WQuery := { req := 4, k := 1, depth := 1, lists := [70] }
def win (b : Nat) (started : Bool) (done : List (Nat × Nat)) : Window := { b := b, queries := [query4], started := started, done := done }
def searchOn (kind : Nat) (w : Window) : State :=
  { on (reqOf { delReq with head := { kind := kind } }) ((List.range 32).map pdSpoke) with
    index := { listOf { vers := [ver1] } with windows := [w] } }
def opened : State := put (searchOn 2 (win 9 false [])) [(Od.indexState, 3), (Od.searchWindowBeats, 4), (Od.beatCount, 8)]
def allDone : List (Nat × Nat) := (List.range 32).map fun sp => (sp, 4)
def cached : State :=
  mounted3 { listOf { vers := [ver1], copies := [{ version := 2 }] } with windows := [{ win 9 true [] with queries := [query4] }] }

theorem wit_SearchWindowsRun :
    (opened.beat % max 1 (opened.o Od.searchWindowBeats) = 0 ∧ opened.index.lastClose ≠ opened.beat ∧ opened.mounted = true) ∧
    ((opened.index.windows.find? fun w => w.b != 0 && !w.started) = some (win 9 false []) ∧ opened.windowFits (win 9 false []) = true) ∧
    ReadyContext (searchOn 2 (win 9 true [])) 31 4 (win 9 true []) ∧
    (ReadyRimMerge (searchOn 2 (win 9 true allDone)) 4 (win 9 true allDone) query4 ∧
      (((searchOn 2 (win 9 true allDone)).mergeCounted 4 (win 9 true allDone) query4).req 4).head.kind = 2) ∧
    (ReadyRimMerge (searchOn 4 (win 9 true allDone)) 4 (win 9 true allDone) query4 ∧
      (((searchOn 4 (win 9 true allDone)).mergeCounted 4 (win 9 true allDone) query4).req 4).head.kind ≠ 2) ∧
    ((mounted3 {}).beat % 1024 = 0 ∧ (mounted3 {}).cacheUsable = true) ∧
    (((cached.index.list 70).copies.find? fun c => c.marked && !c.full) = some { version := 2 } ∧
      (cached.index.windows.any fun w => w.started && w.lists.contains 70 &&
        ((cached.index.list 70).versionAt w.b).any fun v => v.num == 2) = true) := by decide +kernel

def merging (m : Merge) : State := mounted3 (listOf { vers := [ver1], merge := some m })
def oneVer : State := mounted3 { listOf { vers := [{ ver1 with flip := 6 }] } with windows := [win 9 true []] }
def twoVers : State := mounted3 { listOf { vers := [{ ver1 with num := 3, flip := 6 }, { ver1 with num := 2 }] } with windows := [win 9 true []] }

theorem wit_MergesFlipAndRetire :
    (((merging {}).index.list 70).merge = some {}) ∧ (((merging { ready := true, ready_ := 3 }).index.list 70).merge = some { ready := true, ready_ := 3 } ∧
      3 < (merging {}).beat) ∧
    (((merging { nothing := true, cut := 4 }).index.list 70).merge = some { nothing := true, cut := 4 }) ∧
    (let s := mounted3 { retire := [(4, 9)], windows := [win 9 true []] }
     s.index.retire = (4, 9) :: [] ∧ (s.index.windows.any fun w => w.b != 0 && decide (w.b < 9)) = false) ∧
    (2 ≤ (twoVers.index.list 70).vers.length ∧ (twoVers.index.windows.any fun w => w.b != 0 &&
      decide (w.b < ((twoVers.index.list 70).vers.getD ((twoVers.index.list 70).vers.length - 2) {}).flip)) = false) ∧
    ((oneVer.index.list 70).vers.length < 2 ∧
      (oneVer.index.windows.any fun w => w.b != 0 && decide (w.b < (oneVer.index.list 70).cur.flip)) = false) := by decide +kernel

/-! ## Pool, tables, prompts -/

def poolOn (t : List (Nat × PoolTag)) : State :=
  { on main [96, pdStack 7] with pool := { up := true, tags := t, decs := [(0, fields [(0, 80), (2 ^ 20, 32), (1, 0)])] } }
/-- The header of an image of one row of dimension 32 at pool address 0: level 1 at 512, default vector at 1 024. -/
def hdrVal : Nat := fields [(0x45544231, 2016), (1, 2000), (32, 1956), (512, 1872), (1024, 1824)]
def hdr1 : List Byte := leBytes 256 (hdrVal + crc32c ((leBytes 256 hdrVal).drop 4))
def tload : State := put (poolOn []) [(Od.tableState 63, 3), (Od.poolBase 63, 0)]
def rowPage : Option (State × Nat) := (tload.tableReads hdr1).takeRowPage 63 (2 ^ 30)
theorem tload_decodes : (tload.tableReads hdr1).tableDecodes (tload.o (Od.poolBase 63)) hdr1 = true := by decide +kernel
theorem some_pair {α β : Type} {o : Option (α × β)} (h : o.isSome = true) : ∃ a b, o = some (a, b) := by
  cases o with
  | none => cases h
  | some x => exact ⟨x.1, x.2, rfl⟩
theorem rowPage_some : rowPage.isSome = true := by decide +kernel
def tnext (n : Nat) : State := (put z [(Od.tableState 63, n)]).setTslot 63 { next := some { rows := 5 } }
def filling : State := (poolOn []).setTslot 63 { cur := some { filling := [(2, 9)] } }

theorem wit_TablesAndRowCache :
    (∃ u p, ReadyTable tload 63 hdr1 (leBytes 8 l1None) u p) ∧
    ((tnext 1).o (Od.tableState 63) = 1 ∧ ((put z [(Od.tableState 63, 1)]).tslot 63).next = none ∧ z.pool.up = false) ∧
    (((tnext 3).tslot 63).next = some { rows := 5 } ∧ (tnext 3).o (Od.tableState 63) = 3 ∧ (tnext 3).o (Od.tableRefs 63) = 0) ∧
    ((put z [(Od.tableState 63, 2), (Od.tableCommand 63, 2)]).o (Od.tableState 63) = 2 ∧
      (put z [(Od.tableState 63, 2), (Od.tableCommand 63, 2)]).o (Od.tableCommand 63) = 2) ∧
    ((tnext 4).o (Od.tableState 63) = 4 ∧ (tnext 4).o (Od.tableRefs 63) = 0) ∧
    (tHas (filling.table 63).filling 2 = true ∧ filling.pool.up = true) ∧ (put z [(Od.beatCount, 1024)]).beat % 1024 = 0 := by
  obtain ⟨u, p, e⟩ := some_pair rowPage_some
  have h : hdrOk hdr1 = true ∧
      ((l1Entries hdr1 (leBytes 8 l1None)).any fun e => e != l1None && !(tload.tableReads hdr1).decoded (tload.o (Od.poolBase 63) + e) 32768) =
        false := by decide +kernel
  refine ⟨⟨u, p, ?_⟩, by decide +kernel⟩
  exact ⟨by decide +kernel, by decide +kernel, by decide +kernel, by decide +kernel, tload_decodes, e, h⟩

/-- Request 4 re-ranks one candidate by one feature of table 63, whose row 0 it takes. -/
def rerank : Req :=
  { delReq with head := { kind := 3 }, state := 2, stage := 10, levels := [0, 0, 0, 0]
                cls := { ladders := [0, 0, (2 ^ 28 + 5 * 2 ^ 22) * 2 ^ 96, 0] }
                fsets := [(5, { on := true, feats := [fields [(63, 122), (2, 120)]] })], cands := [{ taddr := 1024, tlen := 2 }] }
def gathering : State :=
  let s := poolOn [(4095, { req := 4, table := 63, off := 64 })]
  { s.setTslot 63 { cur := some { rows := 1, dim := 32, l1 := [(0, 64)] } } with reqs := [(4, rerank)] }
def quarantined : State := poolOn [(4095, { quar := true })]

theorem wit_PoolReadsEnd :
    (ReadyTag gathering 4095 { req := 4, table := 63, off := 64 } ∧ (gathering.freeTag 4095).wants 4 63 64 = true) ∧
    (tHas quarantined.pool.tags 4095 = true ∧ (tGet {} quarantined.pool.tags 4095 : PoolTag).quar = true) ∧
    ReadyTag (poolOn [(0, {})]) 0 {} ∧ (poolOn []).pdOn 96 = true := by decide +kernel

def textOn (x : Index) : State := { on (reqOf rerank) ((List.range 32).map pdSpoke) with index := x }
def there : Index := { text := [(1024, { bytes := [1, 2], text := [3, 4], done := true })] }
def packing : State :=
  reqOf { rerank with stage := 15, seqE := some 9, gtoks := some [1, 2], order := [0], cands := [{ gtoks := some [3] }] }

theorem wit_TextsFeaturesAndPrompts :
    (ReadyText (textOn {}) 4 0 ∧ (textOn {}).readText 1024 2 = (4, [])) ∧
    (ReadyText (textOn there) 4 0 ∧ (textOn there).readText 1024 2 = (0, [3, 4]) ∧
      (takeBufs (if (textOn there).textSpoke (rerank.cands.getD 0 {}) < 16 then 0 else 1) 3 4 (cdiv 2 4096) (textOn there)).isSome = true) ∧
    ReadyBag gathering 4 0 0 ∧ ReadyPack packing 4 9 [1, 2] := by decide +kernel

/-! ## Request port, host port -/

def ethOn : State :=
  let s := on (put main [(Od.eth1Ipv4, 0x01020304), (Od.eth1Vlan, 0xFFFF), (Od.bootStep, 11), (Od.key1 3, 7), (Od.bufQuota 3, 4)]) [89]
  { s with power := { s.power with ethUp := 3 } }
def netIn (kind : Nat) : Net := { kind := kind, dst := 0x01020304, dport := ethOn.o Od.reqUdpPort, src := 0x05060708, sport := 777 }
/-- A message of tenant 3 under key slot 1. -/
def msgOf (typ shift id frag count : Nat) (p : List Byte) : List Byte :=
  beBytes 32 (fields [(0x5638, 240), (1, 232), (typ, 224), (3, 216), (shift, 212), (1, 211), (p.length, 192), (id, 160), (frag, 144),
    (count, 128)]) ++ p
def signed (m : List Byte) : List Byte := m ++ beBytes 32 (hmac256 7 m)
def rxOf (bytes : List Byte) : State := { ethOn with rx := [(1, [{ net := netIn 0, bytes := bytes }, {}])] }
def frag1 : List Byte := msgOf 1 10 9 1 2 [5, 6]
def cancel1 : List Byte := msgOf 2 0 9 0 0 []
def free1 : List Byte := msgOf 3 0 0 0 0 (beBytes 4 0x01030005)
def fetch1 : List Byte := msgOf 4 0 0 0 0 (beBytes 4 0x01030005)

theorem signed_authentic (s : State) (m : List Byte) (hk : s.o (if mKey (mHead (signed m)) = 0 then Od.key0 (mTenant (mHead (signed m)))
    else Od.key1 (mTenant (mHead (signed m)))) = 7) (hl : mLen (mHead (signed m)) + 32 = m.length) : s.authentic (signed m) = true := by
  unfold State.authentic
  simp only [hk, hl]
  have h1 : (signed m).take m.length = m := List.take_left' rfl
  have h2 : beAt (signed m) m.length 32 = hmac256 7 m := by
    have := beAt_beBytes m [] 32 (hmac256 7 m) m.length rfl (hmac256_lt _ _)
    rwa [List.append_nil] at this
  rw [h1, h2]; simp

theorem ready_msg (typ : Nat) (m : List Byte) (ht : mType (mHead (signed m)) = typ)
    (hk : ethOn.o (if mKey (mHead (signed m)) = 0 then Od.key0 (mTenant (mHead (signed m))) else Od.key1 (mTenant (mHead (signed m)))) = 7)
    (hl : mLen (mHead (signed m)) + 32 = m.length) : ReadyMsg (rxOf (signed m)) 1 typ { net := netIn 0, bytes := signed m } :=
  ⟨rfl, ht, signed_authentic _ _ hk hl⟩

def frag1D : Datagram := { net := netIn 0, bytes := signed frag1 }
def asm1 : Assembly := { tenant := 3, id := 9, shift := 10, count := 2, frags := [(0, [1])] }
def joining : State := { rxOf (signed frag1) with assemblies := [asm1] }
def taken : Nat ⊕ (State × List Nat) :=
  ((rxOf (signed frag1)).rxPop 1).takeAssembly (mTenant (mHead (signed frag1))) (mCount (mHead (signed frag1)) * 2 ^ mShift (mHead (signed frag1)))
theorem taken_right : taken.isRight = true := by decide +kernel
theorem right_pair {α β γ : Type} {o : α ⊕ (β × γ)} (h : o.isRight = true) : ∃ a b, o = .inr (a, b) := by
  cases o with
  | inl => cases h
  | inr x => exact ⟨x.1, x.2, rfl⟩

theorem wit_DatagramsBecomeRequests :
    (ReadyArrival ethOn 1 (netIn 0) ∧ (netIn 0).dport = ethOn.o Od.reqUdpPort ∧ ethOn.o Od.bootStep = 11 ∧ readable (signed frag1) = true ∧
      (tGet [] ethOn.rx 1).length < 4096) ∧
    (ReadyArrival ethOn 1 (netIn 3) ∧ ReadyArrival ethOn 1 (netIn 1)) ∧
    ((rxOf []).rxHead 1 = some { net := netIn 0, bytes := [] } ∧ (rxOf []).authentic [] = false) ∧
    (ReadyMsg (rxOf (signed frag1)) 1 1 frag1D ∧
      (((rxOf (signed frag1)).rxPop 1).idWin (mTenant (mHead frag1D.bytes))).look (mId (mHead frag1D.bytes)) = 0 ∧
      ((rxOf (signed frag1)).assemblies.find? fun a => a.tenant == mTenant (mHead frag1D.bytes) && a.id == mId (mHead frag1D.bytes)) = none ∧
      ∃ u bs, ((rxOf (signed frag1)).rxPop 1).takeAssembly (mTenant (mHead frag1D.bytes))
        (mCount (mHead frag1D.bytes) * 2 ^ mShift (mHead frag1D.bytes)) = .inr (u, bs)) ∧
    (ReadyMsg joining 1 1 frag1D ∧ ((joining.rxPop 1).idWin (mTenant (mHead frag1D.bytes))).look (mId (mHead frag1D.bytes)) = 0 ∧
      (joining.assemblies.find? fun a => a.tenant == mTenant (mHead frag1D.bytes) && a.id == mId (mHead frag1D.bytes)) = some asm1 ∧
      asm1.shift = mShift (mHead frag1D.bytes) ∧ asm1.count = mCount (mHead frag1D.bytes) ∧
      tHas asm1.frags (mFrag (mHead frag1D.bytes)) = false) ∧
    (tIns (mFrag (mHead frag1D.bytes)) (mPayload frag1D.bytes) []).length < asm1.count ∧
    ((put joining [(Od.beatCount, 2 ^ 33)]).assemblies.find? (fun a => a.tenant == 3 && a.id == 9) = some asm1 ∧
      asm1.start + (put joining [(Od.beatCount, 2 ^ 33)]).o Od.reassemblyBeats ≤ (put joining [(Od.beatCount, 2 ^ 33)]).beat) ∧
    (let s := put z [(Od.foreignFreeLimit, 2), (Od.foreignFrees 255, 2), (Od.tenantState 255, 1)]
     s.o Od.foreignFreeLimit ≠ 0 ∧ s.o Od.foreignFreeLimit ≤ s.o (Od.foreignFrees 255) ∧ s.o (Od.tenantState 255) = 1) := by
  refine ⟨by decide +kernel, by decide +kernel, by decide +kernel,
    ⟨ready_msg 1 frag1 (by decide +kernel) (by decide +kernel) (by decide +kernel), by decide +kernel, by decide +kernel, right_pair taken_right⟩,
    ⟨⟨rfl, by decide +kernel, signed_authentic joining frag1 (by decide +kernel) (by decide +kernel)⟩, by decide +kernel⟩, by decide +kernel⟩

/-- Function 255 with a command waiting, all virtual functions there. -/
def fnOn (f : Nat) (x : Fn) : State :=
  { on main [90] with pcie := { vfEnable := true, numVfs := 255, fns := [(f, x)] } }
def known (r : Req) : State := { reqOf r with idWins := [(3, { high := some 9, recs := [(9, {})] })] }
def bufOut : State := (put z [(Od.beatCount, 2 ^ 33)]).setBuf 65535 { state := 2, owner := 3, gen := 1 }

theorem wit_CancelFreeAndFetch :
    ReadyMsg (rxOf (signed cancel1)) 1 2 { net := netIn 0, bytes := signed cancel1 } ∧
    (∀ typ ∈ [2, 3, 4], ReadyCmd (fnOn 255 { cmds := [{ typ := typ, id := 9, len := 4 }] }) 255 typ { typ := typ, id := 9, len := 4 } []) ∧
    (((known { delReq with state := 2 }).idWin 3).look 9 = 1 ∧
      ((known { delReq with state := 2 }).reqs.find? fun e => e.2.tenant == 3 && e.2.id == 9) = some (4, { delReq with state := 2 })) ∧
    ((z.idWin 3).look 9 = 0 ∧ z.preCancelled 3 9 = false) ∧
    (let s : State := { put z [(Od.beatCount, 2 ^ 33)] with preCancels := [{ tenant := 255, id := 9 }] }
     (s.preCancels.any fun p => p.tenant == 255 && p.id == 9 && decide (p.beat + s.o Od.reassemblyBeats ≤ s.beat)) = true) ∧
    ReadyMsg (rxOf (signed free1)) 1 3 { net := netIn 0, bytes := signed free1 } ∧ bufOut.released 3 0x0103FFFF = true ∧
    ReadyMsg (rxOf (signed fetch1)) 1 4 { net := netIn 0, bytes := signed fetch1 } ∧
    ((bufOut.buf 65535).state = 2 ∧ (bufOut.buf 65535).rel + bufOut.o Od.outputRetainBeats ≤ bufOut.beat) := by
  exact ⟨ready_msg 2 cancel1 (by decide +kernel) (by decide +kernel) (by decide +kernel), by decide +kernel, by decide +kernel, by decide +kernel,
    by decide +kernel, ready_msg 3 free1 (by decide +kernel) (by decide +kernel) (by decide +kernel), by decide +kernel,
    ready_msg 4 fetch1 (by decide +kernel) (by decide +kernel) (by decide +kernel), by decide +kernel⟩

def ringOn : State := put (fnOn 255 { enable := true, head := 500 }) [(Od.bootStep, 11)]
def fnCtl : Nat := fields [(1, 31), (16, 16), (4, 8), (3, 0)]

theorem wit_RingsAndFunctions :
    ringOn.fnSeen 255 = true ∧ (ReadyTail ringOn 255 511 ∧ ReadyTail ringOn 255 244) ∧
    (ringOn.fnSeen 255 = true ∧ 256 < (245 + 512 - (ringOn.fn 255).head) % 512) ∧
    ((reqOf { delReq with state := 3 }).hasReq 4 = true ∧ ((reqOf { delReq with state := 3 }).req 4).state = 3) ∧
    ReadyEnable (fnOn 255 {}) 255 fnCtl 4096 0 ∧ bitAt 0 31 = false ∧ (ringOn.fn 255).waitQ.length < 64 ∧ ringOn.pdOn 90 = true := by
  decide +kernel

theorem wit_HostPathResets :
    ringOn.pdOn 90 = true ∧ (put main [(Od.pcieLink, 65537)]).o Od.pcieLink ≠ 0 ∧ (ringOn.fnSeen 255 = true ∧ ringOn.fnSeen 0 = true) ∧
    ((fnOn 255 { ready := false }).pdOn 90 = true ∧ ((fnOn 255 { ready := false }).fn 255).ready = false) ∧
    (ringOn.o Od.pcieLink = 0 ∧ bitAt ringOn.dict.mbStatus 31 = false) := by decide +kernel

/-! ## Peer links and margins -/

def up1 : State := put (modelIn {} 3) [(Od.peerState 7, 2), (Od.peerLanes 7, 8)]
def peerHead (kind stake ctr : Nat) : BitVec 128 := BitVec.ofNat 128 (fields [(kind, 108), (stake, 99), (0, 67), (1, 62), (ctr, 58)])
def startIn : State := up1.setStake 3 { used := true, lead := false, segs := 2 }
def courseIn : State := (up1.setStake 2 { (up1.stake 2) with step := some 4 }).setStep 4 { model := 5, state := 2, stake := 2 }

theorem wit_PeerFlitsActAndLinksRetrain :
    ReadyStart startIn 7 (peerHead 1 3 0).toNat 1 ∧
    (ReadyFlit up1 7 2 (peerHead 2 2 15).toNat ∧ ReadyEpoch up1 (peerHead 2 2 15).toNat ∧
      up1.residentOf (fStake (peerHead 2 2 15).toNat) (fArray (peerHead 2 2 15).toNat) = some 0) ∧
    (ReadyFlit up1 7 2 (peerHead 2 511 15).toNat ∧ ¬ ReadyEpoch up1 (peerHead 2 511 15).toNat) ∧
    (ReadyFlit up1 7 3 (peerHead 3 2 0).toNat ∧ ReadyEpoch up1 (peerHead 3 2 0).toNat ∧
      up1.residentOf (fStake (peerHead 3 2 0).toNat) (fArray (peerHead 3 2 0).toNat) = some 0) ∧
    (ReadyFlit courseIn 7 4 (peerHead 4 2 0).toNat ∧ ReadyEpoch courseIn (peerHead 4 2 0).toNat ∧
      (courseIn.stake (fStake (peerHead 4 2 0).toNat)).step = some 4) ∧
    ReadyFlit up1 7 5 (peerHead 5 0 0).toNat ∧ up1.o (Od.peerState 7) = 2 ∧
    (let s := put z [(Od.peerState 0, 3), (Od.peerLanes 0, 1)]
     s.o (Od.peerState 0) = 3 ∧ s.o (Od.peerLanes 0) ≠ 0) ∧
    (put z [(Od.peerState 0, 1)]).o (Od.peerState 0) = 1 ∧ (put z [(Od.peerState 7, 3)]).o (Od.peerState 7) = 3 ∧
    (let s := put (on main [97]) [(Od.peerEnable 7, 1)]
     s.pdOn 97 = true ∧ s.o (Od.peerEnable 7) = 1 ∧ s.o (Od.peerState 7) ≤ 1 ∧ 8 ≠ 0 ∧ 1 ≠ 0) := by decide +kernel

theorem wit_AgeingSamplesPlanMargins :
    ReadySample (on main [pdArray 0]) 0 ∧ (ReadySample (on main [pdSpine 5]) 37 ∧ pdMonitored 37 = pdSpine 5) ∧
    ((z.o Od.marginFloorMv : Int) + 9 < (z.o Od.marginFloorMv : Int) + 10 ∧ z.o (Od.supplyMv 37) < supplyMax) := by decide +kernel

/-! ## The chain and the beat -/

/-- Both links up; the module has address a. -/
def chainAt (a : Nat) : State := put stby [(Od.linkState, 3), (Od.chainAddress, a), (Od.chainState, if a = 0 then 0 else 1)]
def measured (s : State) : State := { s with chain := { s.chain with measured := true } }
def chainFrame (t dst len : Nat) : BitVec 128 := BitVec.ofNat 128 (frameHead t dst 0 true 7 9 11 len)
def downLink (s : State) : State := s.setO Od.linkState 0
def heldAddr : State := { put (downLink (chainAt 5)) [(Od.chainState, 2), (Od.beatCount, 2 ^ 33)] with chain := { hold := 1 } }

theorem wit_ChainForwardsAndEnumerates :
    (∀ up : Bool, ReadyLink (chainAt 5) (if up then 1 else 0)) ∧
    (∀ t ∈ [2, 5, 6, 8], (true && frameOk (chainFrame t 126 2).toNat [1, 2]) = true ∧ fType (chainFrame t 126 2).toNat ≠ 1 ∧
      fType (chainFrame t 126 2).toNat ≠ 7 ∧ (chainAt 5).forwards (chainFrame t 126 2).toNat = true) ∧
    ((measured (chainAt 0)).chain.measured = true ∧ 125 + 1 ≤ 126) ∧ (chainAt 0).chain.measured = false ∧
    ((chainAt 5).chain.measured = false ∧ (chainAt 5).chain.enumWait = none ∧ (chainAt 5).o Od.chainState ≠ 2) ∧
    (stby.power.stbyOn = true ∧ stby.linkUp 0 = false ∧ stby.linkUp 1 = false) ∧
    (heldAddr.o Od.chainState = 2 ∧ heldAddr.linkUp 0 = false ∧ heldAddr.chain.hold + heldAddr.o Od.addressHoldBeats ≤ heldAddr.beat) := by
  decide +kernel

def word1 (count period : Nat) : BitVec 64 := BitVec.ofNat 64 (beatWord count period false)
def lockedAt (n : Nat) : State := put stby [(Od.beatState, 2), (Od.beatCount, n)]
def held3 : State := put stby [(Od.beatState, 3), (Od.holdoverBeats, 2 ^ 32 - 1)]

theorem wit_BeatWordsLockAndHold :
    (ReadyBeat stby ∧ stby.o Od.beatState = 0 ∧ wordOk (word1 0 2).toNat = true ∧ wordOk (word1 (2 ^ 48 - 1) 100).toNat = true) ∧
    (ReadyBeat (lockedAt 6) ∧ (lockedAt 6).o Od.beatState = 2 ∧ bwCount (word1 7 20).toNat = (lockedAt 6).beat + 1 ∧
      NearPrediction (lockedAt 6) (-((lockedAt 6).periodUs * 10000 : Nat)) ∧ wordOk (word1 7 20).toNat = true ∧
      bwHoldover (word1 7 20).toNat = false) ∧
    (wordOk 0 = false ∧ wordOk (word1 7 1).toNat = false ∧ wordOk (word1 7 101).toNat = false ∧
      2 ≤ ({ lockedAt 6 with chain := { invalid := 2 } } : State).chain.invalid) ∧
    (held3.o Od.beatState = 3 ∧ held3.o Od.holdoverExpired = 0 ∧ held3.o Od.holdoverLimit ≤ held3.o Od.holdoverBeats) := by decide +kernel

/-! ## The dictionary and the session lock -/

/-- An operation word; a message of session 7, handle 9, tag 11 to address 5; what waits on a path. -/
def opWord (op key param : Nat) : Nat := op * 2 ^ 56 + key * 2 ^ 32 + param
def dPay (w : Nat) (data : List Byte) : List Byte := beBytes 8 w ++ data
def dHead (n : Nat) : BitVec 128 := BitVec.ofNat 128 (frameHead 5 5 1 false 7 9 11 n)
def dictOn : State := put main [(Od.linkState, 1), (Od.bootStep, 11), (Od.chainAddress, 5)]
def locked1 : State := { put dictOn [(Od.lockState, 1), (Od.lockHandle, 9), (Od.lockRemaining, 500)] with dict := { lockSession := 7, lease := 1000 } }
/-- The same message waiting in the mailbox. -/
def mailed (s : State) (w : Nat) (data : List Byte) : State :=
  let bs := beBytes 16 (dHead (dPay w data).length).toNat ++ dPay w data
  { s with dict := { s.dict with mbStatus := 2 ^ 31, mbReq := bs, mbReqLen := bs.length } }
/-- The message a chain frame of the word and data gives. -/
def chainMsg (w : Nat) (data : List Byte) : DMsg := { p := 0, session := 7, handle := 9, tag := 11, word := w, data := data }
def mailMsg (w : Nat) (data : List Byte) : DMsg := { chainMsg w data with p := 1 }
def withSegs (g : Seg) : State := { dictOn with dict := { dictOn.dict with chain := { session := some 7, seg := some g } } }

def readW : Nat := opWord 1 Od.chainAddress 0
def noneW : Nat := opWord 1 0x0FFF01 0
def writeW : Nat := opWord 2 Od.segTimeoutBeats 0
def stageW : Nat := opWord 2 Od.reqUdpPort 0
def roW : Nat := opWord 2 Od.chainAddress 0

theorem wit_ObjectsAreReadAndWritten :
    (ReadyDMsg dictOn 1 0 (dHead 8) (dPay readW []) 15 (chainMsg readW []) ∧
      (dictOn.opened (chainMsg readW [])).lookup (chainMsg readW []) = .inr ⟨0x01, 0x01, .u8, .ro, .const 0⟩ ∧
      (dictOn.opened (chainMsg readW [])).hasRight 0 1 = true ∧ (chainMsg readW []).key % 256 ≠ 0) ∧
    (ReadyDMsg (mailed dictOn readW []) 1 1 0 [] 0 (mailMsg readW []) ∧
      ((mailed dictOn readW []).opened (mailMsg readW [])).hasRight 1 1 = true) ∧
    (ReadyDMsg dictOn 1 0 (dHead 8) (dPay noneW []) 0 (chainMsg noneW []) ∧
      (dictOn.opened (chainMsg noneW [])).lookup (chainMsg noneW []) = .inl 2) ∧
    (let m := chainMsg writeW (beBytes 4 77)
     ReadyDMsg dictOn 2 0 (dHead 12) (dPay writeW (beBytes 4 77)) 0 m ∧
       (∃ r : ObjRow, (dictOn.opened m).lookup m = .inr r ∧ r.ty ≠ .blob ∧ (dictOn.opened m).writeGate m m.key r = none ∧
         ((dictOn.opened m).writeVal m m.key r m.data).2.status = 0)) ∧
    (let m := chainMsg stageW (beBytes 2 4000)
     ReadyDMsg locked1 2 0 (dHead 10) (dPay stageW (beBytes 2 4000)) 0 m ∧
       (∃ r : ObjRow, (locked1.opened m).lookup m = .inr r ∧ r.ty ≠ .blob ∧ (locked1.opened m).writeGate m m.key r = none ∧
         ((locked1.opened m).writeVal m m.key r m.data).2.status = 1)) ∧
    (let m := chainMsg roW [1]
     ReadyDMsg dictOn 2 0 (dHead 9) (dPay roW [1]) 0 m ∧
       (∃ r : ObjRow, (dictOn.opened m).lookup m = .inr r ∧ r.ty ≠ .blob ∧ r.acc = .ro)) ∧
    (ObjTy.u32 ≠ .blob ∧ ([1, 2, 3] : List Byte).length ≠ ObjTy.u32.bytes) ∧
    (let m := chainMsg stageW (beBytes 2 4000)
     m.bcast = false ∧ m.p = 0 ∧ dictOn.hasRight m.p (writeRights Od.reqUdpPort ⟨1, 1, .u16, .rwl, .const 47100⟩) = true ∧
       Od.reqUdpPort ≠ Od.taLevel ∧ dictOn.lockedBy m = false) := by
  refine ⟨by decide +kernel, by decide +kernel, by decide +kernel, ⟨by decide +kernel, ?_⟩, ⟨by decide +kernel, ?_⟩, ⟨by decide +kernel, ?_⟩,
    by decide +kernel, by decide +kernel⟩
  · exact ⟨⟨36, 36, .u32, .rw, .const 100000⟩, by decide +kernel⟩
  · exact ⟨⟨1, 1, .u16, .rwl, .const 47100⟩, by decide +kernel⟩
  · exact ⟨⟨0x01, 0x01, .u8, .ro, .const 0⟩, by decide +kernel⟩

def taking : Seg := { key := 0x51F002, total := 2049, data := List.replicate 2049 3 }
def sending : Seg := { isWrite := true, key := 0x70A004, total := 2049, data := [1], next := 1 }


theorem wit_SegmentsTransferObjects :
    (let m := chainMsg (opWord 3 0x51F002 0) []
     ReadyDMsg (withSegs taking) 3 0 (dHead 8) (dPay m.word []) 0 m ∧ (∃ r : ObjRow,
       (((withSegs taking).opened m).dropSeg m.p).lookup m = .inr r ∧ r.ty = .blob ∧ r.acc ≠ .wo)) ∧
    (∀ n ∈ [0, 2], let m := chainMsg (opWord 4 0 n) []
     ReadyDMsg (withSegs taking) 4 0 (dHead 8) (dPay m.word []) 0 m ∧ (((withSegs taking).opened m).path m.p).seg = some taking ∧
       taking.isWrite = false ∧ m.param < cdiv taking.total segBytes) ∧
    (let m := chainMsg (opWord 5 0x70A004 0) (beBytes 8 2049)
     ReadyDMsg locked1 5 0 (dHead 16) (dPay m.word m.data) 0 m ∧ (∃ r : ObjRow,
       ((locked1.opened m).dropSeg m.p).lookup m = .inr r ∧ ((locked1.opened m).dropSeg m.p).writeGate m m.key r = none) ∧
       m.data.length = 8 ∧ m.key ≠ Od.storeData ∧ m.key ≠ Od.updateImage ∧ beNat m.data ≠ 0) ∧
    (let m := chainMsg (opWord 6 0 1) (List.replicate 1024 7)
     ReadyDMsg (withSegs sending) 6 0 (dHead 1032) (dPay m.word m.data) 0 m ∧ (((withSegs sending).opened m).path m.p).seg = some sending ∧
       sending.isWrite = true ∧ m.param = sending.next ∧ m.data.length = segBytes ∧ sending.next + 1 < cdiv sending.total segBytes ∧
       sending.key ≠ Od.updateImage) ∧
    (∀ n ∈ [0, 2], let m := chainMsg (opWord 6 0 n) [7]
     ReadyDMsg (withSegs sending) 6 0 (dHead 9) (dPay m.word m.data) 0 m ∧ (((withSegs sending).opened m).path m.p).seg = some sending ∧
       m.param < cdiv sending.total segBytes ∧ m.param ≠ sending.next) ∧
    (let m := chainMsg (opWord 7 0 0) []
     ReadyDMsg (withSegs sending) 7 0 (dHead 8) (dPay m.word []) 0 m ∧ (((withSegs sending).opened m).path m.p).cut ≠ some m.key) ∧
    (let m := chainMsg (opWord 4 0x51F002 0) []
     let s : State := { dictOn with dict := { dictOn.dict with chain := { session := some 7, cut := some 0x51F002 } } }
     ReadyDMsg s 4 0 (dHead 8) (dPay m.word []) 0 m ∧ ((s.opened m).path m.p).seg = none ∧ ((s.opened m).path m.p).cut = some m.key) ∧
    (∀ p : Fin 2, ((z.withSeg p.val { sending with idle := 2 ^ 32 }).path p.val).seg = some { sending with idle := 2 ^ 32 } ∧
      (z.withSeg p.val { sending with idle := 2 ^ 32 }).o Od.segTimeoutBeats ≤ ({ sending with idle := 2 ^ 32 } : Seg).idle) := by
  refine ⟨⟨by decide +kernel, ?_⟩, by decide +kernel, ⟨by decide +kernel, ?_, by decide +kernel⟩, by decide +kernel, by decide +kernel,
    by decide +kernel, by decide +kernel⟩
  · exact ⟨⟨2, 2, .blob, .ro, .none⟩, by decide +kernel⟩
  · exact ⟨⟨4, 4, .blob, .rwl, .none⟩, by decide +kernel⟩

def lockW (n : Nat) : Nat := opWord 8 0 n

theorem wit_LockSubOperations :
    (ReadyDMsg dictOn 81 0 (dHead 8) (dPay (lockW 1) []) 0 (chainMsg (lockW 1) []) ∧
      (dictOn.opened (chainMsg (lockW 1) [])).hasRight 0 4 = true ∧ (dictOn.opened (chainMsg (lockW 1) [])).o Od.lockState = 0) ∧
    (let s := put dictOn [(Od.lockState, 2)]
     ReadyDMsg s 81 0 (dHead 8) (dPay (lockW 1) []) 0 (chainMsg (lockW 1) []) ∧ (s.opened (chainMsg (lockW 1) [])).o Od.lockState ≠ 0 ∧
       ((s.opened (chainMsg (lockW 1) [])).holdsLock 0 && (s.opened (chainMsg (lockW 1) [])).dict.lockSession == 7) = false) ∧
    (∀ n ∈ [2, 3, 4, 5], ReadyDMsg locked1 (80 + n) 0 (dHead 8) (dPay (lockW n) []) 15 (chainMsg (lockW n) []) ∧
      ReadyHolder locked1 (chainMsg (lockW n) [])) ∧
    ReadyDMsg (put dictOn [(Od.lockState, 2)]) 86 0 (dHead 8) (dPay (lockW 6) []) 0 (chainMsg (lockW 6) []) ∧
    ((put locked1 [(Od.lockRemaining, 0)]).o Od.lockState ≠ 0 ∧ (put locked1 [(Od.lockRemaining, 0)]).o Od.lockRemaining = 0) := by
  decide +kernel

def fixedSet (ws : List SWrite) : FixedSet := { writes := ws, handle := 9, session := 7, tag := 11, word := lockW 3 }
def fixedIn (ws : List SWrite) : State := { locked1 with dict := { locked1.dict with fixed := [fixedSet ws] } }

theorem right_one {α β : Type} {o : α ⊕ β} (h : o.isRight = true) : ∃ a, o = .inr a := by
  cases o with
  | inl => cases h
  | inr x => exact ⟨x, rfl⟩

theorem wit_CommitIsAllOrNothing :
    ((fixedIn [{ key := Od.reqUdpPort, val := 4000 }]).dict.fixed = [fixedSet [{ key := Od.reqUdpPort, val := 4000 }]] ∧
      (∃ t, trySet [{ key := Od.reqUdpPort, val := 4000 }] { locked1 with dict := { locked1.dict with fixed := [] } } = .inr t)) ∧
    ((fixedIn [{ key := Od.reqUdpPort, val := 4000 }, { key := Od.sbFunction 0, val := 200 }]).dict.fixed ≠ [] ∧
      trySet [{ key := Od.reqUdpPort, val := 4000 }, { key := Od.sbFunction 0, val := 200 }]
        { locked1 with dict := { locked1.dict with fixed := [] } } = .inl 2) := by
  refine ⟨⟨rfl, right_one (by decide +kernel)⟩, by decide +kernel, by decide +kernel⟩

/-! ## The queue, invariants, numbers and frames -/

def waits : State := { stby with pending := [.upstreamLinkUp, .syncMarkFall] }
/-- Whether a command answers a next state. -/
def goesOn (c : Instr) (s : State) : Bool := match exec c s with
  | .next _ => true
  | _ => false
theorem goesOn_next {c : Instr} {s : State} (h : goesOn c s = true) : ∃ t : State, exec c s = .next t := by
  unfold goesOn at h
  split at h
  next t e => exact ⟨t, e⟩
  next => cases h
def stepsOn (s : State) : Bool := match step s with
  | .next _ => true
  | _ => false

theorem wit_StepTakesTheFrontCommand : waits.pending = .upstreamLinkUp :: [.syncMarkFall] ∧ z.pending = [] := by decide +kernel
theorem wit_EveryStepTakesExactlyOneCommand : waits.pending = .upstreamLinkUp :: [.syncMarkFall] := rfl
theorem wit_ObjectsHoldWhatIsWritten : main.objWf = true ∧ cool.objWf = true ∧ Od.bootStep ≠ Od.linkState := by decide +kernel
theorem wit_ObjectTableStaysCanonical : waits.objWf = true ∧ stepsOn waits = true := by decide +kernel
theorem wit_MemoryTiersStayCanonical : waits.mem.wf = true ∧ stepsOn waits = true := by decide +kernel
theorem wit_PostToFullMailboxIsDropped : 32 ≤ ((mail (List.replicate 32 (1, 2)) false).mbox 143 7).entries.length := by decide +kernel
theorem wit_CodesAndTheirDistance : 8 ∣ (List.replicate 256 f32one).length ∧ 255 < (List.replicate 256 f32one).length ∧
    15 < 8 * ([0x80#8, 0x01#8] : List Byte).length := by decide +kernel
theorem wit_MxElementsAndScales :
    (1 ≤ 1 ∧ 1 ≤ 6 ∧ 6 ≤ 6 ∧ 254 ≤ 254) ∧ (255 < 2 ^ fmtBits 1 ∧ decElem 1 0xFF = .nan ∧ 15 < 2 ^ fmtBits 5) ∧
    convInt8 false none (.fin true 200 0) = .code 129 ∧ Val.fin true 200 0 ≠ .nan ∧ 128 ≤ rneShift 2 ((0 : Int) + 6) ∧
    convInt8 true (some 5) (.fin true 1 (-7)) ≠ .code 0x80 := by decide +kernel
theorem wit_SubindexZeroIsTheHighest :
    (objFam? ((chainMsg (opWord 1 0x300000 0) []).key / 256)).isSome = true ∧ (chainMsg (opWord 1 0x300000 0) []).key % 256 = 0 ∧
    dictOn.o Od.bootStep = 11 ∧ standbyIndex 0x1000 = true ∧ dictOn.hasRight 0 1 = true := by decide +kernel
theorem wit_FloatRoundingIsExactOnFloats :
    ([0x00000001#32, 0x807FFFFF#32, 0x7F7FFFFF#32, 0xFF800000#32, 0x80000000#32].all fun x => !isNan32 x) = true ∧
    isNan32 0x7FC00001#32 = true ∧ ((val32 0x3F800000#32).add (val32 0xBF800000#32)).isZero = true := by decide +kernel
theorem wit_HeadersAndBeatWordsReadBack :
    ((8 < 2 ^ 4 ∧ 127 < 2 ^ 7 ∧ 65535 < 2 ^ 16 ∧ 1032 < 2 ^ 11) ∧ (1 ≤ 8 ∧ 8 ≤ 8 ∧ ([] : List Byte).length ≤ 1032)) ∧
    (2 ^ 48 - 1 < 2 ^ 48 ∧ 127 < 2 ^ 7) := by decide
theorem wit_DomainEpochsAdvance : 97 < 98 ∧ pdRETAINED < 8 ∧ 0 < 98 ∧ 0 ≠ 97 := by decide
def movingIn : State :=
  put { z with mem := { near := [], stack := [(195 * 2 ^ 21 + 31 * 2 ^ 16, 7)], pages := [(195, { cls := cPINNED })]
                        grans := [(5, { state := gMIGRATING, page := 195, piece := 31 })]
                        queues := [(0, [{ page := 195, piece := 31, gran := 5 }])] } } []
theorem wit_MigrationCopiesItsPiece : ReadyCopy movingIn 0 { page := 195, piece := 31, gran := 5 } [] := by decide +kernel
theorem wit_CommandsThatLeaveWork :
    goesOn (.frameRepeat true (chainFrame 2 126 2) [1, 2] true) (chainAt 5) ∧ goesOn (.enumerate 0 0) (measured (chainAt 0)) ∧
    goesOn (.probe 3) (chainAt 5) ∧ goesOn (.echo 4 3) (chainAt 5) ∧ goesOn (.pathDown 3) (chainAt 5) ∧ goesOn .upstreamLinkUp stby ∧
    goesOn (.upstreamLinkDown true true) (chainAt 5) ∧ goesOn .addressHoldExpiry heldAddr ∧ goesOn .downstreamLinkUp stby ∧
    goesOn (.downstreamLinkDown true true) (chainAt 5) ∧ goesOn (.beatWord (word1 7 20) 0 0) (lockedAt 6) ∧
    goesOn .beatMarkerMissing (lockedAt 6) ∧ goesOn (.segRead 0 0 [] 0) z ∧ goesOn (.segAbort 0 0 [] 0) z ∧ goesOn (.lockAcquire 0 0 [] 0) z ∧
    goesOn (.lockRenew 0 0 [] 0) z ∧ goesOn (.lockCommit 0 0 [] 0) z ∧ goesOn (.lockAbort 0 0 [] 0) z ∧ goesOn (.lockRelease 0 0 [] 0) z ∧
    goesOn (.lockBreak 0 0 [] 0) z ∧ goesOn (.segTimeout 0) z ∧ goesOn .lockLeaseExpiry z ∧
    goesOn .syncMarkFall pinned ∧ goesOn (.pinHoldEnd 11) pinned ∧ goesOn (.faultPulseEnd true) pinned ∧ goesOn (.uartTapRestart [1]) pinned ∧
    goesOn .tapReset pinned ∧ goesOn .bypass pinned ∧ goesOn .idcode pinned ∧ goesOn (.samplePreload 0 0) pinned ∧ goesOn .extest pinned ∧
    goesOn .clamp pinned ∧ goesOn .highz pinned ∧ goesOn (.spineFlitResend 0 0) main ∧ goesOn (.d2dFlitRetry 0 0) main ∧
    goesOn (.peerFlitCrcFail 7) up1 ∧ goesOn (.peerLaneFault 7 1 7) up1 ∧ goesOn (.peerRetrainDone 7 0 0) up1 ∧
    goesOn (.submissionEntryWrite 255 0 []) ringOn ∧ goesOn (.functionReady 0 3 4) ringOn ∧ goesOn (.mbGo []) ringOn := by decide +kernel

theorem wit_IssuedInstructionsStayInTheirArray :
    (∀ w ∈ [0x20, 0x21, 0x30, 0x40, 0x41, 0x42], let p := compOn 0 (iw w []) [];
      (p.2.headOf 0 w).isSome = true ∧ bitAt p.1.word 111 = false) ∧
    (∀ c ∈ [Instr.estate 0, .smres 0, .tksub 0, .wait 0, .signal 0, .fence 0], goesOn c (compOn 0 (iw 0x20 []) []).2 = true) := by
  decide +kernel

/-! ## Well-formed commands: an ill-formed one for each check, which the check refuses -/

theorem test_ill_formed :
    (Instr.beatBoundary [] [(0, 32)] 0 0).wf = false ∧ (Instr.startUpStepAdvance 0 [98] 0 []).wf = false ∧
    (Instr.keeperHeartbeat 0 (2 ^ 64)).wf = false ∧ (Instr.spineOwnerWrite 0 (2 ^ 64)).wf = false ∧
    (Instr.mboxStatusWrite 0 0 (2 ^ 64)).wf = false ∧ (Instr.postWindowWrite 0 0 0 3 0).wf = false ∧
    (Instr.postWindowWrite 0 0 0 1 256).wf = false ∧ (Instr.bundle 0 0 (2 ^ 128) [] [] []).wf = false ∧
    (Instr.bundle 0 0 0 [(4096, 0)] [] []).wf = false ∧ (Instr.bundle 0 0 0 [] [(65536, 0)] []).wf = false ∧
    (Instr.bundleWordWrite 0 0 32 0).wf = false ∧ (Instr.patrolScrubPass 0 [(64, 1)] []).wf = false ∧
    (Instr.patrolScrubPass 0 [] [(24576, 1)]).wf = false ∧ (Instr.modelLoad 0 { sampling := [32] }).wf = false ∧
    (Instr.modelLoad 0 { readers := [32] }).wf = false ∧ (Instr.diceJob 0 [2 ^ 256]).wf = false ∧
    (Instr.rngConditionedKey 0 (2 ^ 1536)).wf = false ∧ (Instr.tokenizeJob 0 [32]).wf = false := by decide +kernel

theorem test_ill_formed_mailboxes_and_messages :
    (Instr.sidePageProgramDone 0 16 0).wf = false ∧ (Instr.programFailure 0 0 0 8).wf = false ∧ (Instr.textReadDone 0 0 16 0).wf = false ∧
    (Instr.readReconstruct 0 0 0 0 0 true 16 0).wf = false ∧ (Instr.dieFailure 0 0 0 0 8).wf = false ∧
    (Instr.channelFailure 0 16 0).wf = false ∧ (Instr.contextDone 0 0 0 8).wf = false ∧ (Instr.poolReadReply 0 [1]).wf = false ∧
    (Instr.submissionEntryWrite 0 16383 [1, 2]).wf = false ∧ (Instr.uartTapRestart [1]).wf = false ∧ (Instr.poolLinkUp 64 17).wf = false ∧
    (Instr.peerStepStart 0 0 (2 ^ 48) 0).wf = false ∧ (Instr.peerData 0 0 (List.replicate 241 0) 0 0 [] false).wf = false := by
  decide +kernel

theorem test_too_long_messages :
    (List.all [Instr.frameRepeat true 0 (List.replicate 2048 0) true, .dictRead 0 0 (List.replicate 2048 0) 0,
      .dictWrite 0 0 (List.replicate 2048 0) 0, .segReadInit 0 0 (List.replicate 2048 0) 0, .segRead 0 0 (List.replicate 2048 0) 0,
      .segWriteInit 0 0 (List.replicate 2048 0) 0, .segWrite 0 0 (List.replicate 2048 0) 0, .segAbort 0 0 (List.replicate 2048 0) 0,
      .lockAcquire 0 0 (List.replicate 2048 0) 0, .lockRenew 0 0 (List.replicate 2048 0) 0, .lockCommit 0 0 (List.replicate 2048 0) 0,
      .lockAbort 0 0 (List.replicate 2048 0) 0, .lockRelease 0 0 (List.replicate 2048 0) 0, .lockBreak 0 0 (List.replicate 2048 0) 0,
      .mbGo (List.replicate 4097 0)] fun c => !c.wf) = true := by decide +kernel

theorem test_well_formed :
    (Instr.bundleWordWrite 31 143 16 (2 ^ 128 - 1)).wf = true ∧ (Instr.postWindowWrite 0 143 112 16 0).wf = true ∧
    (Instr.submissionEntryWrite 0 16382 [1, 2]).wf = true ∧ (Instr.rngConditionedKey 7 (2 ^ 1536 - 1)).wf = true := by decide +kernel

/-! ## Worked examples of the spec, and single steps -/

/-- What a command does to a state, as a check. -/
def does (c : Instr) (s : State) (p : State → Bool) : Bool := match exec c s with
  | .next t => p t
  | _ => false

/-- 02_numeric_formats.md, the block of MXFP4 output worked out there: 13.0, 2.9, -0.7, -0.2, 0.75, 2.5 in FP32. -/
theorem test_mxfp4_block :
    convBlock 5 false (List.replicate 6 none)
      ([0x41500000#32, 0x4039999A#32, 0xBF333333#32, 0xBE4CCCCD#32, 0x3F400000#32, 0x40200000#32].map val32) =
      (0x80, [0x7, 0x3, 0x9, 0x8, 0x1, 0x2]) := by decide +kernel

/-- 09_generation.md, "A timed answer": under 96 000 cycles a chunk of the generator holds 80 positions, one of the draft model 288. -/
theorem test_chunks_of_the_timed_answer :
    ((chunks 512 2720).find? fun p => decide (16000 + 896 * p ≤ 96000)) = some 80 ∧
    ((chunks 512 2720).find? fun p => decide (2400 + 320 * p ≤ 96000)) = some 288 := by decide +kernel

/-- 08_admission_and_deadlines.md, the energy of its example: 1 006 mJ is encoded as 257 536. -/
theorem test_energy_of_the_example : energyBits 0x447B8000#32 = 257536 := by decide +kernel

/-- 20_faults_ageing_record.md, the example of A13: V_min 772 mV at 795 mV gives margin 23, and the supply goes to 820 mV. -/
theorem test_margin_of_the_example :
    does (.ageingSample 13 772 700 0) (put (on main [pdArray 13]) [(Od.supplyMv 13, 795)]) (fun t =>
      t.o (Od.marginMv 13) == 23 && (t.aged_ 13).pending == some 820 && t.o Od.marginChanges == 1 && t.o (Od.supplyMv 13) == 795) = true := by
  decide +kernel

/-- R50. -/
theorem test_hamming : hamming 8 0xF0 0x0F = 8 ∧ hamming 8 0xF0 0xF1 = 1 ∧ hamming 8 0x55 0x55 = 0 := by decide

/-- R149: a write to MBOX_POP of an empty mailbox has no effect; one of a mailbox that is not empty removes the head entry. -/
theorem test_mbox_pop_empty : does (.mboxPop 143 7) z (fun t => t == z) = true := by decide +kernel
theorem test_mbox_pop_head : does (.mboxPop 143 7) (mail [(1, 2), (3, 4)] true) (fun t =>
    t.mbox 143 7 == { entries := [(3, 4)], overrun := true }) = true := by decide +kernel

/-- R152: a post to a mailbox of 32 entries is dropped and counted. -/
theorem test_post_window_full :
    does (.postWindowWrite 16 143 112 16 9) ((on main [pdCore 16, pdCore 143]).setMbox 143 7 { entries := List.replicate 32 (1, 2) }) (fun t =>
      (t.mbox 143 7).entries.length == 32 && (t.mbox 143 7).overrun && t.o Od.mailboxOverflowCount == 1) = true := by decide +kernel

/-- R518: a frame to the module's own address is not forwarded; R521: ECHO and PROBE never are. -/
theorem test_repeater_keeps_own :
    does (.frameRepeat false (chainFrame 5 5 2) [1, 2] true) (chainAt 5) (fun t => t == chainAt 5) = true ∧
    does (.frameRepeat false (chainFrame 3 9 2) [1, 2] true) (chainAt 5) (fun t => t == chainAt 5) = true := by decide +kernel

/-- R522: HOP 125 gives address 126, the last one; R524: HOP 126 gives none. -/
theorem test_enumerate_last :
    does (.enumerate 125 77) (measured (put (chainAt 0) [(Od.upstreamDelay, 5)])) (fun t => t.o Od.chainAddress == 126 && t.o Od.beatDelay == 82)
      = true := by decide +kernel
theorem test_enumerate_beyond :
    does (.enumerate 126 77) (measured (chainAt 0)) (fun t => t.o Od.chainAddress == 0 && t.o Od.chainState == 0) = true := by decide +kernel

/-- R525: a module in HOLD keeps its address when the delay is within 10 ns; 10 001 ps further off it takes address 0. -/
def holding : State := { put (chainAt 5) [(Od.chainState, 2)] with chain := { oldDelay := 50000 } }
theorem test_echo_keeps_address : does (.echo 60000 4) holding (fun t => t.o Od.chainAddress == 5 && t.o Od.chainState == 1) = true := by
  decide +kernel
theorem test_echo_drops_address : does (.echo 60001 4) holding (fun t => t.o Od.chainAddress == 0 && t.o Od.chainState == 0) = true := by
  decide +kernel

/-- R528: a word 1 % of the period early is valid in LOCKED, one picosecond earlier is not. -/
theorem test_beat_word_near : does (.beatWord (word1 7 10) (-100000) 0) (lockedAt 6) (fun t =>
    t.o Od.beatWordErrors == 0 && t.chain.invalid == 0) = true := by decide +kernel
theorem test_beat_word_early : does (.beatWord (word1 7 10) (-100001) 0) (lockedAt 6) (fun t =>
    t.o Od.beatWordErrors == 1 && t.chain.invalid == 1 && t.o Od.beatState == 2) = true := by decide +kernel

/-- R526: the first valid word in UNLOCKED begins LOCKING. -/
theorem test_first_word_locks_on : does (.beatWord (word1 7 10) 0 0) stby (fun t => t.o Od.beatState == 1) = true := by decide +kernel

/-- R543, R544: LOCK_BREAK over the chain breaks the mailbox's lock and counts it. -/
theorem test_lock_break :
    does (.lockBreak 0 (dHead 8) (dPay (lockW 6) []) 0) (put dictOn [(Od.lockState, 2), (Od.lockHandle, 3)]) (fun t =>
      t.o Od.lockState == 0 && t.o Od.lockHandle == 0 && t.o Od.lockBreaks == 1 && t.o Od.prevBroken == 1) = true := by decide +kernel

/-- R540: the last segment of a snapshot of 2 049 bytes holds one byte. -/
theorem test_last_segment_is_short :
    does (.segRead 0 (dHead 8) (dPay (opWord 4 0 2) []) 0) (withSegs taking) (fun t =>
      (t.dict.chain.kept.map fun r => r.data) == [[3]]) = true := by decide +kernel

/-- R541: an RWL object is staged, not written, by the lock's holder; without the lock the answer is LOCK_REQUIRED (0x05). -/
theorem test_staged_write :
    does (.dictWrite 0 (dHead 10) (dPay stageW (beBytes 2 4000)) 0) locked1 (fun t =>
      t.o Od.reqUdpPort == 47100 && t.dict.staged.map (·.val) == [4000] && t.o Od.lockStaged == 1) = true := by decide +kernel
theorem test_lock_required :
    does (.dictWrite 0 (dHead 10) (dPay stageW (beBytes 2 4000)) 0) dictOn (fun t =>
      t.dict.staged == [] && (t.dict.chain.kept.map fun r => r.word / 2 ^ 56) == [5]) = true := by decide +kernel

/-- R591: a wake that completes leaves the epoch; a domain that leaves ON takes the next. -/
theorem test_epoch_on_leaving :
    (on main [84]).o (Od.pdEpoch 84) = 0 ∧ ((on main [84]).setPdState 84 pdRESET).o (Od.pdEpoch 84) = 1 ∧
    ((waking 84).setPdState 84 pdON).o (Od.pdEpoch 84) = 0 := by decide +kernel

/-- R569: the third failed attempt makes a domain FAILED; the second does not. -/
theorem test_third_attempt_fails :
    does (.domainFailure 10 true) ((waking 10).setPd 10 { attempts := 2 }) (fun t => t.pdState 10 == pdFAILED) = true ∧
    does (.domainFailure 10 true) ((waking 10).setPd 10 { attempts := 1 }) (fun t => t.pdState 10 != pdFAILED) = true := by decide +kernel

/-- R580: 1.15 times the limit is no overstep, a watt above it is. -/
theorem test_power_comparator_above :
    does (.fastPowerComparator 2071) (put main [(Od.powerLimitW, 1800)]) (fun t => t != put main [(Od.powerLimitW, 1800)]) = true := by
  decide +kernel
theorem test_power_comparator_at_limit :
    does (.fastPowerComparator 2070) (put main [(Od.powerLimitW, 1800)]) (fun t => t == put main [(Od.powerLimitW, 1800)]) = true := by
  decide +kernel

/-- R504, R508: 5 good lanes give a link of 4. -/
theorem test_lane_width : laneWidth 8 = 8 ∧ laneWidth 7 = 4 ∧ laneWidth 4 = 4 ∧ laneWidth 3 = 2 ∧ laneWidth 1 = 1 ∧ laneWidth 0 = 0 := by decide

/-- R507: a flit of an old epoch is dropped and counted. -/
theorem test_stale_flit :
    does (.peerIncrement 7 (BitVec.ofNat 128 (fields [(3, 108), (2, 99), (1, 67), (1, 62)]))) up1 (fun t =>
      t.o (Od.peerStale 7) == 1 && t.arrs == up1.arrs && t.incrs == up1.incrs) = true := by decide +kernel

/-- The model's idle step (log entry 6). -/
theorem test_idle : stepsOn z = true ∧ z.pending = [] := by decide +kernel

end Sys2Proof.Tests
end

section
/-!
PROOFS of the family 00_scope.md: the objects of the dictionary as registers (R15 to R17), what reset leaves in them, and what
subindex 00 answers.  Two canonical tables that read alike are equal; the write laws of objects follow from what a write reads as.
-/
namespace Sys2Proof.Machine

/-! ## Canonical tables are determined by what they read -/

section
variable {α : Type}

/-- A table of rising keys lists none below its bound. -/
theorem tGet_of_lt_risingFrom (d : α) {t : Tbl α} {n k : Nat} (h : risingFrom n t = true) (hk : k < n) : tGet d t k = d := by
  induction t generalizing n with
  | nil => rfl
  | cons e t ih =>
    obtain ⟨j, w⟩ := e
    simp only [risingFrom, Bool.and_eq_true, decide_eq_true_eq] at h
    obtain ⟨hnj, ht⟩ := h
    rw [tGet_cons, if_neg (by omega), ih ht (by omega)]

/-- Of two tables of rising keys that read alike, neither starts with a key below the other's that is listed off its default. -/
theorem head_le_of_reads_alike {d : Nat → α} {i j : Nat} {v w : α} {t u : Tbl α} (hu : risingFrom (j + 1) u = true)
    (hv : v ≠ d i) (h : tGet (d i) ((i, v) :: t) i = tGet (d i) ((j, w) :: u) i) : j ≤ i := by
  refine Nat.le_of_not_lt fun hij => ?_
  rw [tGet_cons, if_pos rfl, tGet_cons, if_neg (show ¬j = i by omega), tGet_of_lt_risingFrom _ hu (by omega)] at h
  exact hv h

/-- Tables of rising keys with no entry at its default are equal when they read alike at every key. -/
theorem eq_of_risingFrom_of_reads_alike {d : Nat → α} {t u : Tbl α} {n : Nat} (ht : risingFrom n t = true)
    (hu : risingFrom n u = true) (dt : ∀ e ∈ t, e.2 ≠ d e.1) (du : ∀ e ∈ u, e.2 ≠ d e.1)
    (h : ∀ k : Nat, tGet (d k) t k = tGet (d k) u k) : t = u := by
  induction t generalizing n u with
  | nil =>
    cases u with
    | nil => rfl
    | cons f u => exact absurd (by simpa [tGet_cons] using (h f.1).symm) (du f List.mem_cons_self)
  | cons e t ih =>
    cases u with
    | nil => exact absurd (by simpa [tGet_cons] using h e.1) (dt e List.mem_cons_self)
    | cons f u =>
      obtain ⟨i, v⟩ := e
      obtain ⟨j, w⟩ := f
      simp only [risingFrom, Bool.and_eq_true, decide_eq_true_eq] at ht hu
      obtain ⟨-, ht⟩ := ht
      obtain ⟨-, hu⟩ := hu
      have hji : j ≤ i := head_le_of_reads_alike hu (dt _ List.mem_cons_self) (h i)
      have hij : i ≤ j := head_le_of_reads_alike ht (du _ List.mem_cons_self) (h j).symm
      obtain rfl : i = j := by omega
      have hvw : v = w := by simpa [tGet_cons] using h i
      have htu : t = u := by
        refine ih ht hu (fun e he => dt e (List.mem_cons_of_mem _ he)) (fun e he => du e (List.mem_cons_of_mem _ he)) fun k => ?_
        by_cases hk : k = i
        · rw [tGet_of_lt_risingFrom _ ht (by omega), tGet_of_lt_risingFrom _ hu (by omega)]
        · simpa [tGet_cons, Ne.symm hk] using h k
      rw [hvw, htu]

variable [DecidableEq α]

/-- The canonical form is canonical: canonical tables that read alike are equal. -/
theorem tWf_ext {d : Nat → α} {t u : Tbl α} (ht : tWf d t = true) (hu : tWf d u = true)
    (h : ∀ k : Nat, tGet (d k) t k = tGet (d k) u k) : t = u := by
  obtain ⟨rt, dt⟩ := (tWf_iff d t).1 ht
  obtain ⟨ru, du⟩ := (tWf_iff d u).1 hu
  exact eq_of_risingFrom_of_reads_alike rt ru dt du h

theorem tSet_tSet_same {d : Nat → α} {t : Tbl α} (k : Nat) (v w : α) (h : tWf d t = true) :
    tSet (d k) (tSet (d k) t k v) k w = tSet (d k) t k w := by
  refine tWf_ext (tWf_tSet k w (tWf_tSet k v h)) (tWf_tSet k w h) fun i => ?_
  by_cases hi : i = k
  · subst hi
    rw [tGet_tSet_same, tGet_tSet_same]
  · rw [tGet_tSet_ne _ _ _ _ hi, tGet_tSet_ne _ _ _ _ hi, tGet_tSet_ne _ _ _ _ hi]

theorem tSet_tSet_comm {d : Nat → α} {t : Tbl α} {j k : Nat} (v w : α) (h : tWf d t = true) (hjk : j ≠ k) :
    tSet (d k) (tSet (d j) t j v) k w = tSet (d j) (tSet (d k) t k w) j v := by
  refine tWf_ext (tWf_tSet k w (tWf_tSet j v h)) (tWf_tSet j v (tWf_tSet k w h)) fun i => ?_
  by_cases hk : i = k
  · subst hk
    rw [tGet_tSet_same, tGet_tSet_ne _ _ _ _ hjk.symm, tGet_tSet_same]
  · rw [tGet_tSet_ne _ _ _ _ hk]
    by_cases hj : i = j
    · subst hj
      rw [tGet_tSet_same, tGet_tSet_same]
    · rw [tGet_tSet_ne _ _ _ _ hj, tGet_tSet_ne _ _ _ _ hj, tGet_tSet_ne _ _ _ _ hk]

end

/-! ## Writing objects -/

/-- A write of an object touches nothing the module works on. -/
theorem State.setO_sameWork (s : State) (k v : Nat) : SameWork s (s.setO k v) := by
  constructor <;> rfl

theorem State.setO_setO_same {s : State} (k v w : Nat) (h : s.objWf = true) : (s.setO k v).setO k w = s.setO k w :=
  congrArg (fun od => { s with od := od }) (tSet_tSet_same k _ _ h)

theorem State.setO_setO_comm {s : State} {j k : Nat} (v w : Nat) (h : s.objWf = true) (hjk : j ≠ k) :
    (s.setO j v).setO k w = (s.setO k w).setO j v :=
  congrArg (fun od => { s with od := od }) (tSet_tSet_comm _ _ h hjk)

/-- Settles O48: a write is read back modulo the object's width, and the write laws hold as equal states because canonical tables
that read alike are equal. -/
theorem objectsHoldWhatIsWritten : Obligations.ObjectsHoldWhatIsWritten := by
  refine ⟨fun s k v => ⟨s.o_setO_same k v, fun _ hj => s.o_setO_ne v hj, s.setO_sameWork k v⟩, ?_, ?_⟩
  · exact fun _ k v w h => State.setO_setO_same k v w h
  · exact fun _ _ _ v w h hjk => State.setO_setO_comm v w h hjk

/-! ## The state after reset -/

/-- Nothing is listed after reset, so every object reads its Default (R15). -/
@[simp] theorem State.o_reset (k : Nat) : State.reset.o k = odDefault k := rfl

/-- Every domain's PD_STATE has the Default OFF. -/
theorem odDefault_pdState : ∀ p < 98, odDefault (Od.pdState p) = pdOFF := by decide +kernel

theorem State.pdState_reset {p : Nat} (hp : p < 98) : State.reset.pdState p = pdOFF := odDefault_pdState p hp

/-- Settles O47: every object reads its Default, and the Defaults named are those of the object tables. -/
theorem resetLeavesDefaults : Obligations.ResetLeavesDefaults := by
  unfold Obligations.ResetLeavesDefaults
  refine ⟨State.o_reset, ?_, ?_, ?_, ?_, ?_, ?_, ?_, ?_, ?_, ?_, ?_, ?_, ?_, ?_, ?_, ?_, ?_, ?_, ?_,
    fun _ => State.pdState_reset, rfl, tWf_nil _, State.reset_mem_wf, fun _ => ⟨tGet_nil _ _, tGet_nil _ _⟩⟩
  all_goals
    rw [State.o_reset]
    decide +kernel

/-! ## Subindex 00 -/

/-- Every family of the map names its highest subindex: it fits a U8, a row defines it, and no row reaches above it (R17, R547). -/
theorem objFams_sub0_highest :
    ∀ f ∈ objFams, f.sub0 < 256 ∧ (f.row? f.sub0).isSome = true ∧ ∀ r ∈ f.rows, r.hi ≤ f.sub0 := by
  decide +kernel

theorem objFam?_mem {idx : Nat} {f : ObjFam} (h : objFam? idx = some f) : f ∈ objFams := List.mem_of_find?_eq_some h

/-- A family has no row for a subindex above every row's last. -/
theorem ObjFam.row?_eq_none_of_lt {f : ObjFam} {m n : Nat} (h : ∀ r ∈ f.rows, r.hi ≤ m) (hn : m < n) : f.row? n = none := by
  refine List.find?_eq_none.2 fun r hr hrow => ?_
  rw [Bool.and_eq_true, Nat.ble_eq, Nat.ble_eq] at hrow
  have := h r hr
  omega

/-- The object that subindex 00 of a family is. -/
def ObjFam.row0 (f : ObjFam) : ObjRow := ⟨0, 0, .u8, .ro, .const f.sub0⟩

/-- What is served and names subindex 00 finds the family's own U8 (R17, R539). -/
theorem State.lookup_sub0 {s : State} {m : DMsg} {f : ObjFam} (hf : objFam? (m.key / 256) = some f) (h0 : m.key % 256 = 0)
    (hs : s.o Od.bootStep = 11 ∨ standbyIndex (m.key / 256) = true) : s.lookup m = .inr f.row0 := by
  have hserved : ¬(s.o Od.bootStep ≠ 11 ∧ (!standbyIndex (m.key / 256)) = true) := by
    rcases hs with h | h <;> simp [h]
  simp only [State.lookup, if_neg hserved, hf, h0, if_pos]
  rfl

/-- A U8 travels as its one byte (R664). -/
theorem encodeVal_row0 (f : ObjFam) (v : Nat) : encodeVal f.row0 v = [BitVec.ofNat 8 v] := rfl

/-- A READ of subindex 00 with the right answers the family's byte and changes nothing. -/
theorem State.doRead_sub0 {s : State} {m : DMsg} {f : ObjFam} (hl : s.lookup m = .inr f.row0) (h0 : m.key % 256 = 0)
    (hr : s.hasRight m.p 1 = true) : s.doRead m = (s, some { data := [BitVec.ofNat 8 f.sub0] }) := by
  have hopen : ¬(f.row0.ty = .blob ∨ f.row0.acc = .wo) := by simp [ObjFam.row0]
  simp only [State.doRead, hl, if_neg hopen, hr, h0, encodeVal_row0, Bool.not_true, Bool.false_eq_true, if_false, if_true]
  rfl

/-- Settles O54: the message finds the family's own U8, and the map's families all name their highest subindex. -/
theorem subindexZeroIsTheHighest : Obligations.SubindexZeroIsTheHighest := by
  intro s m f hf h0 hs
  obtain ⟨hbyte, hrow, hhi⟩ := objFams_sub0_highest f (objFam?_mem hf)
  have hl := State.lookup_sub0 hf h0 hs
  exact ⟨f.row0, hl, rfl, rfl, State.doRead_sub0 hl h0, hbyte, hrow, fun _ => ObjFam.row?_eq_none_of_lt hhi⟩

end Sys2Proof.Machine
end

section
/-!
PROOFS of the family 01_overview.md: merges (R416 to R422).  A command on a list answers what its definition does on the branch its
conditions choose; that a sweep's bookkeeping leaves every list's merge and versions alone is the one fact about lists.
-/
namespace Sys2Proof.Machine

/-! ## Reading a list -/

@[simp] theorem State.list_setList (s : State) (l k : Nat) (y : LList) :
    (s.setList l y).index.list k = if k = l then y else s.index.list k := tGet_tSet _ _ _ _ _

/-- Reading a table whose entries are all changed by a function that keeps the default. -/
theorem tGet_map {α : Type} {d : α} {f : α → α} (hd : f d = d) (t : Tbl α) (k : Nat) :
    tGet d (t.map fun e => (e.1, f e.2)) k = f (tGet d t k) := by
  induction t with
  | nil => exact hd.symm
  | cons e t ih =>
    rw [List.map_cons, tGet_cons, tGet_cons, ih]
    split <;> rfl

/-! ## Programs completed -/

@[simp] theorem State.index_programmed (s : State) (c : Nat) : (s.programmed c).index = s.index := rfl

/-- PAGES_PROGRAMMED lies above BEAT_COUNT on every channel. -/
@[simp] theorem State.beat_programmed (s : State) (c : Nat) : (s.programmed c).beat = s.beat := by
  have hne : Od.beatCount ≠ Od.pagesProgrammed c := by
    simp only [Od.beatCount, Od.pagesProgrammed]
    omega
  exact s.o_setO_ne _ hne

/-- Programming the pages of n stripes of k pages each leaves the beat alone. -/
theorem State.beat_programmed_stripes (s : State) (chan : Nat → Nat → Nat) (n k : Nat) :
    (applyAll (fun s t => applyAll (fun s j => s.programmed (chan t j)) s (List.range k)) s (List.range n)).beat = s.beat :=
  applyAll_frame State.beat (fun u _ => applyAll_frame State.beat (fun v _ => v.beat_programmed _) u _) s _

/-! ## The sweep (R421) -/

/-- The sweep's bookkeeping changes of a list at most whether it counts as swept. -/
theorem State.list_sweepStep (s : State) (l k : Nat) :
    ∃ b, (s.sweepStep l).index.list k = { s.index.list k with swept := b } := by
  have hset : ∃ b, (s.setList l { s.index.list l with swept := true }).index.list k = { s.index.list k with swept := b } := by
    rw [State.list_setList]
    split
    case isTrue hk => exact ⟨true, by rw [hk]⟩
    case isFalse => exact ⟨_, rfl⟩
  obtain ⟨b, hb⟩ := hset
  simp only [State.sweepStep]
  split
  case isTrue =>
    refine ⟨false, (tGet_map (f := fun y : LList => { y with swept := false }) rfl _ k).trans ?_⟩
    exact congrArg (fun y : LList => { y with swept := false }) hb
  case isFalse => exact ⟨b, hb⟩

/-- A raised side floor: the list's merge is over, and its current version's floor is the cut. -/
theorem State.list_raiseFloor (s : State) (l cut : Nat) :
    ((s.raiseFloor l cut).index.list l).merge = none ∧ ((s.raiseFloor l cut).index.list l).cur.floor = cut := by
  rw [State.raiseFloor, State.list_setList, if_pos rfl]
  cases (s.index.list l).vers <;> exact ⟨rfl, rfl⟩

/-! ## The commands -/

/-- MERGE_PROGRAMMED on a merge under way that writes: it is ready from this beat. -/
theorem mergeProgrammed_ready {s : State} {l : Nat} {m : Merge} (hm : (s.index.list l).merge = some m) (hr : m.ready = false)
    (hn : m.nothing = false) :
    Runs (.mergeProgrammed l) s fun u => (u.index.list l).merge = some { m with ready := true, ready_ := s.beat } := by
  refine ⟨_, rfl, ?_⟩
  simp only [hm, hr, hn, Bool.or_self, Bool.false_eq_true, if_false, State.list_setList, if_pos, State.beat_programmed_stripes]

/-- LIST_FLIP at a boundary after the merge was programmed. -/
theorem exec_listFlip {s : State} {l : Nat} {m : Merge} (hm : (s.index.list l).merge = some m) (hr : m.ready = true)
    (hn : m.nothing = false) (hb : m.ready_ < s.beat) :
    exec (.listFlip l) s = .next ((s.flipList l m).sweepStep l).pumpStaging := by
  have hlate : decide (s.beat ≤ m.ready_) = false := decide_eq_false (by omega)
  change execListFlip l s = _
  simp only [execListFlip, hm, hr, hn, hlate, Bool.not_true, Bool.or_self, Bool.false_eq_true, if_false]

/-- SIDE_FLOOR_RAISE on a merge with nothing to write. -/
theorem exec_sideFloorRaise {s : State} {l : Nat} {m : Merge} (hm : (s.index.list l).merge = some m) (hn : m.nothing = true) :
    exec (.sideFloorRaise l) s = .next ((s.raiseFloor l m.cut).sweepStep l) := by
  change execSideFloorRaise l s = _
  simp only [execSideFloorRaise, hm, hn, Bool.not_true, Bool.false_eq_true, if_false]

theorem sideFloorRaise_floor {s : State} {l : Nat} {m : Merge} (hm : (s.index.list l).merge = some m) (hn : m.nothing = true) :
    Runs (.sideFloorRaise l) s fun u => (u.index.list l).merge = none ∧ (u.index.list l).cur.floor = m.cut := by
  refine ⟨_, exec_sideFloorRaise hm hn, ?_⟩
  obtain ⟨b, hsweep⟩ := (s.raiseFloor l m.cut).list_sweepStep l l
  rw [hsweep]
  exact s.list_raiseFloor l m.cut

/-- TOMBSTONE_RETIRE once no window is older than the sweep's last flip. -/
theorem exec_tombstoneRetire {s : State} {cut flip : Nat} {rest : List (Nat × Nat)} (hr : s.index.retire = (cut, flip) :: rest)
    (hw : (s.index.windows.any fun w => w.b != 0 && decide (w.b < flip)) = false) :
    exec .tombstoneRetire s = .next (s.retireTombs cut rest).pumpStaging := by
  change execTombstoneRetire s = _
  simp only [execTombstoneRetire, hr, hw, Bool.false_eq_true, if_false]

/-- VERSION_RELEASE once no window reads the list's oldest version. -/
theorem exec_versionRelease {s : State} {l : Nat}
    (hw : (s.index.windows.any fun w => w.b != 0 &&
      decide (w.b < ((s.index.list l).vers.getD ((s.index.list l).vers.length - 2) {}).flip)) = false) :
    exec (.versionRelease l) s =
      .next (if (s.index.list l).vers.length < 2 then s.dropMerged l else s.dropVersion l).tidySidePages.pumpStaging := by
  change execVersionRelease l s = _
  simp only [execVersionRelease, hw, Bool.false_eq_true, if_false]

/-- The version before a list's oldest is, with no two versions, its current one. -/
theorem LList.getD_vers_eq_cur {y : LList} (h : y.vers.length < 2) : y.vers.getD (y.vers.length - 2) {} = y.cur := by
  rw [show y.vers.length - 2 = 0 by omega, LList.cur]
  cases y.vers <;> rfl

/-- Settles O29: each command takes the branch its conditions choose; MERGE_PROGRAMMED's page counts leave the beat alone, and a
sweep's bookkeeping leaves the raised floor alone. -/
theorem mergesFlipAndRetire : Obligations.MergesFlipAndRetire := by
  refine ⟨fun _ _ _ => mergeProgrammed_ready, fun _ _ _ => exec_listFlip, fun _ _ _ => sideFloorRaise_floor,
    fun _ _ _ _ => exec_tombstoneRetire, fun s l hlen hw => ?_, fun s l hlen hw => ?_⟩
  · rw [exec_versionRelease hw, if_neg (by omega)]
  · rw [← LList.getD_vers_eq_cur hlen] at hw
    rw [exec_versionRelease hw, if_pos hlen]

end Sys2Proof.Machine
end

section
/-!
PROOFS of the family 02_numeric_formats.md: rounding an FP32 value to FP32 (R47, R48, R53 to R55), binary codes and their distance
(R50), MX elements, scale bytes and conversion to MXINT8 (R41, R45, R46).  A code of a format is its magnitude code with its sign;
encoding the value it decodes to gives the magnitude code back, and every bit fact goes through `Nat.testBit`.
-/
namespace Sys2Proof.Machine

/-! ## Bits of a number (R9) -/

theorem bitAt_eq_testBit (v i : Nat) : bitAt v i = v.testBit i := by
  rw [Nat.testBit_eq_decide_div_mod_eq]
  rfl

/-! ## Decoding a code of a format (R44, R47) -/

/-- Decoding goes by the magnitude: a subnormal, a normal value, the infinity just above the largest finite code, or a NaN. -/
theorem Fmt.dec_cases (f : Fmt) (c : Nat) :
    (c % 2 ^ f.sb ≤ f.maxC ∧ c % 2 ^ f.sb / 2 ^ f.mb = 0 ∧
      f.dec c = .fin (bitAt c f.sb) (c % 2 ^ f.sb % 2 ^ f.mb) (1 - (f.bias : Int) - f.mb)) ∨
    (c % 2 ^ f.sb ≤ f.maxC ∧ c % 2 ^ f.sb / 2 ^ f.mb ≠ 0 ∧
      f.dec c = .fin (bitAt c f.sb) (2 ^ f.mb + c % 2 ^ f.sb % 2 ^ f.mb)
        (((c % 2 ^ f.sb / 2 ^ f.mb : Nat) : Int) - f.bias - f.mb)) ∨
    (f.hasInf = true ∧ c % 2 ^ f.sb = f.maxC + 1 ∧ f.dec c = .inf (bitAt c f.sb)) ∨
    (f.maxC < c % 2 ^ f.sb ∧ f.dec c = .nan) := by
  by_cases hle : c % 2 ^ f.sb ≤ f.maxC
  · by_cases hex : c % 2 ^ f.sb / 2 ^ f.mb = 0
    · exact .inl ⟨hle, hex, by simp only [Fmt.dec, if_pos hle, if_pos hex]⟩
    · exact .inr (.inl ⟨hle, hex, by simp only [Fmt.dec, if_pos hle, if_neg hex]⟩)
  · by_cases hinf : (f.hasInf && c % 2 ^ f.sb == f.maxC + 1) = true
    · have hdec : f.dec c = .inf (bitAt c f.sb) := by simp only [Fmt.dec, if_neg hle, if_pos hinf]
      rw [Bool.and_eq_true, beq_iff_eq] at hinf
      exact .inr (.inr (.inl ⟨hinf.1, hinf.2, hdec⟩))
    · exact .inr (.inr (.inr ⟨Nat.lt_of_not_le hle, by simp only [Fmt.dec, if_neg hle, if_neg hinf]⟩))

/-- A code that reads as an infinity stands just above the largest finite code of a format that has infinities. -/
theorem Fmt.mod_of_dec_inf (f : Fmt) {c : Nat} {neg : Bool} (h : f.dec c = .inf neg) :
    f.hasInf = true ∧ c % 2 ^ f.sb = f.maxC + 1 ∧ neg = bitAt c f.sb := by
  rcases f.dec_cases c with ⟨-, -, hd⟩ | ⟨-, -, hd⟩ | ⟨hi, hmag, hd⟩ | ⟨-, hd⟩ <;> rw [hd] at h
  · cases h
  · cases h
  · exact ⟨hi, hmag, (Val.inf.inj h).symm⟩
  · cases h

/-- A code that reads as NaN lies above the largest finite code. -/
theorem Fmt.lt_mod_of_dec_nan (f : Fmt) {c : Nat} (h : f.dec c = .nan) : f.maxC < c % 2 ^ f.sb := by
  rcases f.dec_cases c with ⟨-, -, hd⟩ | ⟨-, -, hd⟩ | ⟨-, hmag, -⟩ | ⟨hlt, -⟩
  · cases hd.symm.trans h
  · cases hd.symm.trans h
  · exact hmag ▸ Nat.lt_succ_self _
  · exact hlt

/-! ## Encoding what was decoded -/

/-- Rounding at the value's own spacing changes nothing. -/
@[simp] theorem rneShift_zero (m : Nat) : rneShift m 0 = m := Nat.mul_one m

/-- Below the hidden bit the spacing is that of the subnormals. -/
theorem Fmt.quantum_subnormal (f : Fmt) {m : Nat} (h0 : m ≠ 0) (hm : m < 2 ^ f.mb) :
    f.quantum m (1 - (f.bias : Int) - f.mb) = 1 - (f.bias : Int) - f.mb := by
  have hlog : Nat.log2 m < f.mb := (Nat.log2_lt h0).2 hm
  rw [Fmt.quantum]
  omega

/-- With the hidden bit set and an exponent code of at least 1 the value is at its own spacing. -/
theorem Fmt.quantum_normal (f : Fmt) {mt ex : Nat} (hm : mt < 2 ^ f.mb) (hex : ex ≠ 0) :
    f.quantum (2 ^ f.mb + mt) ((ex : Int) - f.bias - f.mb) = (ex : Int) - f.bias - f.mb := by
  have hpos : 2 ^ f.mb + mt ≠ 0 := by have := Nat.two_pow_pos f.mb; omega
  have hlog : Nat.log2 (2 ^ f.mb + mt) = f.mb := by
    rw [Nat.log2_eq_iff hpos, Nat.pow_succ]
    omega
  rw [Fmt.quantum, hlog]
  omega

@[simp] theorem Fmt.magCode_zero (f : Fmt) (e : Int) (sr : Option Nat) : f.magCode 0 e sr = 0 := rfl

theorem Fmt.magCode_subnormal (f : Fmt) {m : Nat} (hm : m < 2 ^ f.mb) :
    f.magCode m (1 - (f.bias : Int) - f.mb) none = m := by
  by_cases h0 : m = 0
  · rw [h0, Fmt.magCode_zero]
  · have hexp : (1 - (f.bias : Int) - f.mb + f.mb + f.bias - 1).toNat = 0 := by omega
    simp only [Fmt.magCode, if_neg h0, f.quantum_subnormal h0 hm, hexp, Int.sub_self, rneShift_zero, Nat.zero_mul, Nat.zero_add]

theorem Fmt.magCode_normal (f : Fmt) {mt ex : Nat} (hm : mt < 2 ^ f.mb) (hex : ex ≠ 0) :
    f.magCode (2 ^ f.mb + mt) ((ex : Int) - f.bias - f.mb) none = ex * 2 ^ f.mb + mt := by
  have hpos : 2 ^ f.mb + mt ≠ 0 := by have := Nat.two_pow_pos f.mb; omega
  have hexp : ((ex : Int) - f.bias - f.mb + f.mb + f.bias - 1).toNat = ex - 1 := by omega
  simp only [Fmt.magCode, if_neg hpos, f.quantum_normal hm hex, hexp, Int.sub_self, rneShift_zero]
  obtain ⟨k, rfl⟩ := Nat.exists_eq_succ_of_ne_zero hex
  rw [Nat.succ_sub_one, Nat.succ_mul, Nat.add_assoc]

/-- Encoding the value of a finite code gives its magnitude code back, whatever the format. -/
theorem Fmt.magCode_of_dec (f : Fmt) {c m : Nat} {neg : Bool} {e : Int} (h : f.dec c = .fin neg m e) :
    neg = bitAt c f.sb ∧ c % 2 ^ f.sb ≤ f.maxC ∧ f.magCode m e none = c % 2 ^ f.sb := by
  have hmt : c % 2 ^ f.sb % 2 ^ f.mb < 2 ^ f.mb := Nat.mod_lt _ (Nat.two_pow_pos _)
  have hsplit := Nat.div_add_mod' (c % 2 ^ f.sb) (2 ^ f.mb)
  rcases f.dec_cases c with ⟨hle, hex, hd⟩ | ⟨hle, hex, hd⟩ | ⟨-, -, hd⟩ | ⟨-, hd⟩ <;> rw [hd] at h
  · obtain ⟨rfl, rfl, rfl⟩ := Val.fin.inj h
    rw [hex, Nat.zero_mul, Nat.zero_add] at hsplit
    exact ⟨rfl, hle, (f.magCode_subnormal hmt).trans hsplit⟩
  · obtain ⟨rfl, rfl, rfl⟩ := Val.fin.inj h
    exact ⟨rfl, hle, (f.magCode_normal hmt hex).trans hsplit⟩
  · cases h
  · cases h

/-- A code is its magnitude with its sign bit. -/
theorem Fmt.withSign_mod (f : Fmt) {c : Nat} (hc : c < 2 ^ (f.sb + 1)) : f.withSign (bitAt c f.sb) (c % 2 ^ f.sb) = c := by
  have hsplit := Nat.div_add_mod c (2 ^ f.sb)
  have hlt : c / 2 ^ f.sb < 2 := Nat.div_lt_of_lt_mul (Nat.pow_succ .. ▸ hc)
  rcases Nat.le_one_iff_eq_zero_or_eq_one.1 (Nat.le_of_lt_succ hlt) with hq | hq
  · rw [hq, Nat.mul_zero, Nat.zero_add] at hsplit
    simp [Fmt.withSign, bitAt, hq, hsplit]
  · rw [hq, Nat.mul_one] at hsplit
    simp [Fmt.withSign, bitAt, hq, hsplit]

/-! ## FP32 (R53 to R55) -/

/-- An FP32 pattern is its magnitude with its sign bit. -/
theorem ofNat_withSign32 (x : FP32) :
    BitVec.ofNat 32 (fmtFP32.withSign (bitAt x.toNat fmtFP32.sb) (x.toNat % 2 ^ fmtFP32.sb)) = x := by
  rw [fmtFP32.withSign_mod x.isLt, BitVec.ofNat_toNat, BitVec.setWidth_eq]

theorem rne32_val32_of_fin {x : FP32} {neg : Bool} {m : Nat} {e : Int} (h : val32 x = .fin neg m e) : rne32 (val32 x) = x := by
  obtain ⟨hneg, hle, hcode⟩ := fmtFP32.magCode_of_dec h
  have hmin : min (x.toNat % 2 ^ fmtFP32.sb) 0x7F800000 = x.toNat % 2 ^ fmtFP32.sb :=
    Nat.min_eq_left (Nat.le_succ_of_le hle)
  rw [h, rne32, hcode, hmin, hneg, ofNat_withSign32]

theorem rne32_val32_of_inf {x : FP32} {neg : Bool} (h : val32 x = .inf neg) : rne32 (val32 x) = x := by
  obtain ⟨-, hmag, hneg⟩ := fmtFP32.mod_of_dec_inf h
  have hx := ofNat_withSign32 x
  rw [hmag, ← hneg] at hx
  rw [h, ← hx]
  cases neg <;> rfl

theorem Val.isNan_iff {v : Val} : v.isNan = true ↔ v = .nan := by
  cases v <;> simp [Val.isNan]

/-- Every NaN rounds to the canonical one (R48). -/
theorem rne32_val32_of_isNan {x : FP32} (h : isNan32 x = true) : rne32 (val32 x) = f32nan := by
  rw [Val.isNan_iff.1 h]
  rfl

theorem rne32_val32 {x : FP32} (h : isNan32 x = false) : rne32 (val32 x) = x := by
  cases hv : val32 x with
  | nan => exact absurd (Val.isNan_iff.2 hv) (Bool.eq_false_iff.1 h)
  | inf => exact hv ▸ rne32_val32_of_inf hv
  | fin => exact hv ▸ rne32_val32_of_fin hv

/-- An exact sum of two finite values that is zero has the sign +, whatever the signs of the operands (R55). -/
theorem Val.add_eq_pos_zero {v w : Val} (h : (v.add w).isZero = true) : ∃ e : Int, v.add w = .fin false 0 e := by
  cases v with
  | nan => cases w <;> cases h
  | inf a =>
    cases w with
    | nan => cases h
    | fin => cases h
    | inf b =>
      simp only [Val.add] at h
      split at h <;> cases h
  | fin na ma ea =>
    cases w with
    | nan => cases h
    | inf => cases h
    | fin nb mb eb =>
      by_cases ha : ma = 0
      · by_cases hb : mb = 0
        · exact ⟨0, by simp only [Val.add, if_pos ha, if_pos hb, Val.zero]⟩
        · simp [Val.add, ha, hb, Val.isZero] at h
      · by_cases hb : mb = 0
        · simp [Val.add, ha, hb, Val.isZero] at h
        · simp only [Val.add, if_neg ha, if_neg hb, ofDyadic, Val.isZero, beq_iff_eq, Int.natAbs_eq_zero] at h ⊢
          exact ⟨_, by rw [h]; rfl⟩

/-- +0 at any exponent rounds to the pattern of +0. -/
@[simp] theorem rne32_pos_zero (e : Int) : rne32 (.fin false 0 e) = f32zero := rfl

theorem add32_eq_zero {a b : FP32} (h : ((val32 a).add (val32 b)).isZero = true) : add32 a b = f32zero := by
  obtain ⟨e, he⟩ := Val.add_eq_pos_zero h
  rw [add32, he, rne32_pos_zero]

/-- Settles O55: encoding inverts decoding on every finite code, infinities and NaNs are single cases, and an exact zero sum is
written with the sign +. -/
theorem floatRoundingIsExactOnFloats : Obligations.FloatRoundingIsExactOnFloats :=
  ⟨fun _ => rne32_val32, fun _ => rne32_val32_of_isNan, fun _ _ => add32_eq_zero⟩

/-! ## Binary codes (R50) -/

/-- Bit i of a number whose low byte is b. -/
theorem testBit_byte_add (b : Byte) (n i : Nat) :
    (b.toNat + 256 * n).testBit i = if i < 8 then b.getLsbD i else n.testBit (i - 8) := by
  rw [Nat.add_comm]
  exact Nat.testBit_two_pow_mul_add n b.isLt i

/-- Bit i of the number that bytes spell is bit i % 8 of byte i / 8. -/
theorem testBit_leNat (bs : List Byte) (i : Nat) : (leNat bs).testBit i = (bs.getD (i / 8) 0).getLsbD (i % 8) := by
  induction bs generalizing i with
  | nil => simp [leNat]
  | cons b bs ih =>
    rw [leNat, testBit_byte_add]
    split
    case isTrue hi => rw [Nat.div_eq_of_lt hi, Nat.mod_eq_of_lt hi, List.getD_cons_zero]
    case isFalse hi =>
      obtain ⟨j, rfl⟩ := Nat.exists_eq_add_of_le' (Nat.le_of_not_lt hi)
      rw [Nat.add_sub_cancel, ih, Nat.add_div_right j (by decide), Nat.add_mod_right, List.getD_cons_succ]

/-- The bytes of a number hold its bits. -/
theorem getLsbD_leBytes {n v i : Nat} (hi : i < 8 * n) : ((leBytes n v).getD (i / 8) 0).getLsbD (i % 8) = v.testBit i := by
  induction n generalizing v i with
  | zero => omega
  | succ n ih =>
    rw [leBytes]
    by_cases h8 : i < 8
    · rw [Nat.div_eq_of_lt h8, Nat.mod_eq_of_lt h8, List.getD_cons_zero, BitVec.getLsbD_ofNat, decide_eq_true h8, Bool.true_and]
    · obtain ⟨j, rfl⟩ := Nat.exists_eq_add_of_le' (Nat.le_of_not_lt h8)
      rw [Nat.add_div_right j (by decide), Nat.add_mod_right, List.getD_cons_succ, ih (by omega)]
      exact Nat.testBit_div_two_pow (n := 8) v j

/-- One bit below a number. -/
theorem testBit_b2n_add (b : Bool) (n i : Nat) :
    (b2n b % 2 ^ 1 + 2 ^ 1 * n).testBit i = if i = 0 then b else n.testBit (i - 1) := by
  have hb : b2n b % 2 ^ 1 < 2 ^ 1 := Nat.mod_lt _ (by decide)
  rw [Nat.add_comm, Nat.testBit_two_pow_mul_add n hb]
  cases i with
  | zero => cases b <;> rfl
  | succ i => rw [if_neg (by omega), if_neg (Nat.succ_ne_zero i)]

/-- Codes of one bit are packed with dimension i at bit i. -/
theorem testBit_foldr_b2n (bs : List Bool) (i : Nat) :
    ((bs.map b2n).foldr (fun c acc => c % 2 ^ 1 + 2 ^ 1 * acc) 0).testBit i = bs.getD i false := by
  induction bs generalizing i with
  | nil => simp
  | cons b bs ih =>
    rw [List.map_cons, List.foldr_cons, testBit_b2n_add, ih]
    cases i <;> rfl

theorem rowBytes_binary {n : Nat} (h : 8 ∣ n) : rowBytes 10 n = n / 8 := by
  simp only [rowBytes, fmtBits, cdiv, Nat.mul_one]
  rw [if_neg (by decide)]
  omega

/-- A +0 is not greater than zero (R51). -/
theorem positive32_zero : positive32 0 = false := by decide

/-- Bits packed as a binary code: the code's length, and bit i of it. -/
theorem packCodes_binary {bs : List Bool} (h : 8 ∣ bs.length) :
    (packCodes 10 (bs.map b2n)).length = bs.length / 8 ∧
    ∀ i < bs.length, ((packCodes 10 (bs.map b2n)).getD (i / 8) 0).getLsbD (i % 8) = bs.getD i false := by
  rw [packCodes, List.length_map, rowBytes_binary h]
  refine ⟨leBytes_length _ _, fun i hi => ?_⟩
  rw [getLsbD_leBytes (by omega)]
  exact testBit_foldr_b2n bs i

/-- A binarized row is the packed signs of its values (R51). -/
theorem convRow_binary (prop : Bool) (srs : List (Option Nat)) (ys : List FP32) :
    (convRow 10 prop srs ys).1 = packCodes 10 ((ys.map positive32).map b2n) := by
  rw [List.map_map]
  rfl

/-! ## The Hamming distance (R50) -/

/-- A population count is the number of bits set. -/
theorem popCount_eq_length_setBits (n v : Nat) : popCount n v = (setBits n v).length := by
  induction n generalizing v with
  | zero => rfl
  | succ n ih =>
    have hshift : (fun i => bitAt v i) ∘ Nat.succ = fun i => bitAt (v / 2) i := by
      funext i
      simp [bitAt_eq_testBit, Nat.testBit_succ]
    rw [popCount, ih, setBits, setBits, List.range_succ_eq_map, List.filter_cons, List.filter_map, hshift, bitAt_eq_testBit]
    rcases Nat.mod_two_eq_zero_or_one v with h | h <;> simp [Nat.testBit_zero, h, Nat.add_comm]

theorem bitAt_xor (a b i : Nat) : bitAt (Nat.xor a b) i = (bitAt a i != bitAt b i) := by
  simp only [bitAt_eq_testBit]
  exact Nat.testBit_xor a b i

theorem hamming_le (w a b : Nat) : hamming w a b ≤ w := by
  rw [hamming, popCount_eq_length_setBits]
  exact Nat.le_trans (List.length_filter_le _ _) (Nat.le_of_eq List.length_range)

/-- Settles O52: packing, reading back and counting all go by the number's own bits. -/
theorem codesAndTheirDistance : Obligations.CodesAndTheirDistance := by
  refine ⟨fun ys prop srs h => ?_, fun bs i _ => ?_, fun w a b => ?_⟩
  · rw [convRow_binary]
    obtain ⟨hlen, hbit⟩ := packCodes_binary (bs := ys.map positive32) (by rwa [List.length_map])
    rw [List.length_map] at hlen hbit
    refine ⟨hlen, fun i hi => (hbit i hi).trans ?_⟩
    rw [← positive32_zero, List.getD_eq_getElem?_getD, List.getElem?_map, Option.getD_map, List.getD_eq_getElem?_getD]
  · rw [bitAt_eq_testBit, testBit_leNat]
  · have hcount : hamming w a b = (setBits w (Nat.xor a b)).length := popCount_eq_length_setBits _ _
    simp only [← bitAt_xor]
    exact ⟨hcount, hcount, hamming_le w a b⟩

/-! ## MX elements and scale bytes (R41, R45, R46) -/

/-- Scaling keeps what is NaN and what is not. -/
@[simp] theorem Val.scale_eq_nan (v : Val) (k : Int) : v.scale k = .nan ↔ v = .nan := by
  cases v <;> simp [Val.scale]

theorem fmtScaled_of_le {fmt : Nat} (h1 : 1 ≤ fmt) (h6 : fmt ≤ 6) : fmtScaled fmt = true := decide_eq_true ⟨h1, h6⟩

theorem decScaled_255 {fmt : Nat} (c : Nat) (h : fmtScaled fmt = true) : decScaled fmt c 255 = .nan := by
  rw [decScaled, if_pos h, if_pos rfl]

theorem decScaled_of_ne {fmt e : Nat} (c : Nat) (h : fmtScaled fmt = true) (he : e ≠ 255) :
    decScaled fmt c e = (decElem fmt c).scale ((e : Int) - 127) := by
  rw [decScaled, if_pos h, if_neg he]

/-- A format whose finite codes reach to its largest magnitude has no NaN. -/
theorem Fmt.dec_ne_nan {f : Fmt} (h : 2 ^ f.sb ≤ f.maxC + 1) (c : Nat) : f.dec c ≠ .nan := by
  intro hd
  have hlt := f.lt_mod_of_dec_nan hd
  have hmod := Nat.mod_lt c (Nat.two_pow_pos f.sb)
  omega

theorem Fmt.dec_ne_inf {f : Fmt} (h : f.hasInf = false) (c : Nat) (neg : Bool) : f.dec c ≠ .inf neg := by
  intro hd
  obtain ⟨hi, -, -⟩ := f.mod_of_dec_inf hd
  simp [h] at hi

theorem decElem_int8 (c : Nat) : decElem 6 c = if c < 128 then .fin false c (-6) else .fin true (256 - c) (-6) := rfl

/-- An MXINT8 element is a number. -/
theorem decElem_int8_isFin (c : Nat) : ∃ neg m, decElem 6 c = .fin neg m (-6) := by
  rw [decElem_int8]
  split <;> exact ⟨_, _, rfl⟩

/-- MXFP6, MXFP4 and MXINT8 elements are never NaN by themselves. -/
theorem decElem_ne_nan {fmt : Nat} (h3 : 3 ≤ fmt) (h6 : fmt ≤ 6) (c : Nat) : decElem fmt c ≠ .nan := by
  obtain rfl | rfl | rfl | rfl : fmt = 3 ∨ fmt = 4 ∨ fmt = 5 ∨ fmt = 6 := by omega
  · exact Fmt.dec_ne_nan (f := fmtE3M2) (by decide) c
  · exact Fmt.dec_ne_nan (f := fmtE2M3) (by decide) c
  · exact Fmt.dec_ne_nan (f := fmtE2M1) (by decide) c
  · obtain ⟨neg, m, hfin⟩ := decElem_int8_isFin c
    simp [hfin]

/-- Of the MX formats only E5M2 has infinite elements. -/
theorem decElem_ne_inf {fmt : Nat} (h1 : 1 ≤ fmt) (h6 : fmt ≤ 6) (h2 : fmt ≠ 2) (c : Nat) (neg : Bool) :
    decElem fmt c ≠ .inf neg := by
  obtain rfl | rfl | rfl | rfl | rfl : fmt = 1 ∨ fmt = 3 ∨ fmt = 4 ∨ fmt = 5 ∨ fmt = 6 := by omega
  · exact Fmt.dec_ne_inf (f := fmtE4M3) rfl c neg
  · exact Fmt.dec_ne_inf (f := fmtE3M2) rfl c neg
  · exact Fmt.dec_ne_inf (f := fmtE2M3) rfl c neg
  · exact Fmt.dec_ne_inf (f := fmtE2M1) rfl c neg
  · obtain ⟨n, m, hfin⟩ := decElem_int8_isFin c
    simp [hfin]

theorem decScaled_eq_nan_iff {fmt : Nat} (h3 : 3 ≤ fmt) (h6 : fmt ≤ 6) (c e : Nat) : decScaled fmt c e = .nan ↔ e = 255 := by
  have hs : fmtScaled fmt = true := fmtScaled_of_le (by omega) h6
  by_cases he : e = 255
  · rw [he, decScaled_255 c hs, eq_self, eq_self]
  · rw [decScaled_of_ne c hs he, Val.scale_eq_nan]
    exact iff_of_false (decElem_ne_nan h3 h6 c) he

/-! ## Conversion to MXINT8 (R45, R60) -/

/-- The two's complement code of a magnitude up to 127 with a sign; −0 is +0. -/
def int8Code (neg : Bool) (q : Nat) : Nat := if neg then (256 - q) % 256 else q

/-- The rounded magnitude in units of 2^−6, to nearest or with a stochastic draw. -/
def int8Mag (m : Nat) (e : Int) : Option Nat → Nat
  | none => rneShift m (e + 6)
  | some d => srShift m (e + 6) d

theorem convInt8_fin (prop : Bool) (sr : Option Nat) (neg : Bool) (m : Nat) (e : Int) :
    convInt8 prop sr (.fin neg m e) =
      if int8Mag m e sr ≤ 127 then .code (int8Code neg (int8Mag m e sr))
      else if prop then .blockNan else .code (if neg then 129 else 127) := by
  cases sr <;> rfl

/-- Converting a value to MXINT8 makes the whole block NaN, or gives the code of a magnitude of at most 127. -/
theorem convInt8_cases (prop : Bool) (sr : Option Nat) (v : Val) :
    convInt8 prop sr v = .blockNan ∨ ∃ neg q, q ≤ 127 ∧ convInt8 prop sr v = .code (int8Code neg q) := by
  cases v with
  | nan => exact .inl rfl
  | inf neg =>
    cases prop with
    | true => exact .inl rfl
    | false => exact .inr ⟨neg, 127, Nat.le_refl _, rfl⟩
  | fin neg m e =>
    rw [convInt8_fin]
    split
    case isTrue hq => exact .inr ⟨neg, _, hq, rfl⟩
    case isFalse =>
      cases prop with
      | true => exact .inl rfl
      | false => exact .inr ⟨neg, 127, Nat.le_refl _, rfl⟩

/-- No code of the symmetric range is 0x80. -/
theorem int8Code_range (neg : Bool) {q : Nat} (hq : q ≤ 127) :
    int8Code neg q < 256 ∧ int8Code neg q ≠ 0x80 ∧ (int8Code neg q ≤ 127 ∨ 129 ≤ int8Code neg q) := by
  cases neg <;> simp only [int8Code, if_true, Bool.false_eq_true, if_false] <;> omega

theorem convInt8_range {prop : Bool} {sr : Option Nat} {v : Val} {c : Nat} (h : convInt8 prop sr v = .code c) :
    c < 256 ∧ c ≠ 0x80 ∧ (c ≤ 127 ∨ 129 ≤ c) := by
  rcases convInt8_cases prop sr v with hn | ⟨neg, q, hq, hc⟩
  · cases hn.symm.trans h
  · obtain rfl := Conv.code.inj (hc.symm.trans h)
    exact int8Code_range neg hq

/-- Saturating conversion of a magnitude beyond the range gives the end of the range on its side. -/
theorem convInt8_of_beyond {m : Nat} {e : Int} (neg : Bool) (h : 128 ≤ rneShift m (e + 6)) :
    convInt8 false none (.fin neg m e) = .code (if neg then 129 else 127) := by
  rw [convInt8_fin, if_neg (show ¬int8Mag m e none ≤ 127 from Nat.not_le.2 h)]
  rfl

/-- Saturating conversion gives a code for every value that is no NaN. -/
theorem convInt8_saturating {sr : Option Nat} {v : Val} (hv : v ≠ .nan) : ∃ c, convInt8 false sr v = .code c := by
  cases v with
  | nan => exact absurd rfl hv
  | inf neg => exact ⟨_, rfl⟩
  | fin neg m e =>
    rw [convInt8_fin]
    split <;> exact ⟨_, rfl⟩

/-- Settles O53: scale bytes shift exponents, only the formats that encode NaN or an infinity read as one, and MXINT8 conversion
stays in the symmetric range. -/
theorem mxElementsAndScales : Obligations.MxElementsAndScales := by
  refine ⟨fun fmt c e h1 h6 he => ?_, fun _ _ _ _ => rfl, fun fmt c h1 h6 => ?_,
    fun fmt c h1 h6 _ => ⟨fun hn => ?_, fun neg hi => ?_⟩,
    by decide, by decide, by decide, by decide, fun fmt c e h3 h6 _ _ => decScaled_eq_nan_iff h3 h6 c e, rfl,
    fun _ _ _ _ => convInt8_range, fun _ _ => convInt8_saturating,
    fun _ _ h => ⟨convInt8_of_beyond false h, convInt8_of_beyond true h⟩, fun _ => ⟨rfl, rfl⟩⟩
  · exact decScaled_of_ne c (fmtScaled_of_le h1 h6) (by omega)
  · exact decScaled_255 c (fmtScaled_of_le h1 h6)
  · have h3 : ¬3 ≤ fmt := fun h3 => decElem_ne_nan h3 h6 c hn
    omega
  · exact Decidable.byContradiction fun h2 => decElem_ne_inf h1 h6 h2 c neg hi

end Sys2Proof.Machine
end

section
/-!
PROOFS of the family 03_matrix_arrays.md: wake and ramp grants (R85 to R87, R573) and the life of a skein (R239 to R242).  A grant
takes its time and its ledger before it touches the domain or the array, so what a grant writes is said once for both kinds; a
skein's command ends in its status, and a freed slot's objects are a run put back to their Defaults.
-/
namespace Sys2Proof.Machine

/-! ## The wake ledgers (R573) -/

@[simp] theorem State.ledger_setLedger (s : State) (d e : Nat) (l : Ledger) :
    (s.setLedger d l).ledger e = if e = d then l else s.ledger e := tGet_tSet _ _ _ _ _

/-- Power is all that reading a ledger reads. -/
theorem State.ledger_congr {s u : State} (h : u.power = s.power) (d : Nat) : u.ledger d = s.ledger d := by
  rw [State.ledger, h, ← State.ledger]

@[simp] theorem State.ledger_setArr (s : State) (a d : Nat) (x : Arr) : (s.setArr a x).ledger d = s.ledger d :=
  State.ledger_congr rfl d

/-- The table of arrays is all that reading an array reads. -/
theorem State.arr_congr {s u : State} (h : u.arrs = s.arrs) (a : Nat) : u.arr a = s.arr a := by
  rw [State.arr, h, ← State.arr]

/-- The ledger after the wake r at time t. -/
def Ledger.withWake (l : Ledger) (t : Nat) (r : WakeReq) : Ledger :=
  { l with queue := l.queue.filter fun q => q != r, lastWake := some t }

/-- The ledger after the ramp-up r at time t: of the earlier ramps it keeps those of the last `ns`. -/
def Ledger.withRamp (l : Ledger) (t ns : Nat) (r : WakeReq) : Ledger :=
  { l with queue := l.queue.filter fun q => q != r, ramps := t :: l.ramps.filter fun u => decide (t < u + ns) }

/-- A request of die d granted at time t, which leaves the die the ledger l. -/
def State.grantAt (s : State) (d t : Nat) (r : WakeReq) (l : Ledger) : State :=
  (({ s with power := { s.power with now := t } } : State).setLedger d l).addO Od.wakesDelayed (b2n (decide (r.asked < t)))

section
variable (s : State) (d t : Nat) (r : WakeReq) (l : Ledger)

@[simp] theorem State.now_grantAt : (s.grantAt d t r l).power.now = t := rfl

@[simp] theorem State.ledger_grantAt : (s.grantAt d t r l).ledger d = l :=
  (State.ledger_setLedger _ d d l).trans (if_pos rfl)

@[simp] theorem State.arrs_grantAt : (s.grantAt d t r l).arrs = s.arrs := rfl

@[simp] theorem State.arr_grantAt (a : Nat) : (s.grantAt d t r l).arr a = s.arr a := State.arr_congr (s.arrs_grantAt d t r l) a

end

/-- Domain p begins to wake; with an array's domain a RETAINED slice is back ON (R570). -/
def State.startWake (s : State) (p : Nat) : State :=
  if isArrayPd p && (s.setPdState p pdWAKING).pdState (p + 8) == pdRETAINED then
    (s.setPdState p pdWAKING).setPdState (p + 8) pdON
  else s.setPdState p pdWAKING

theorem State.startWake_frame (s : State) (p : Nat) : (s.startWake p).power = s.power ∧ (s.startWake p).arrs = s.arrs := by
  rw [State.startWake]
  split <;> simp

/-- The slice's domain is another than the array's, so its return leaves the woken domain WAKING. -/
theorem State.pdState_startWake (s : State) {p : Nat} (hp : p < 98) : (s.startWake p).pdState p = pdWAKING := by
  have hwaking : (s.setPdState p pdWAKING).pdState p = pdWAKING := s.pdState_setPdState_same p pdWAKING hp (by decide)
  rw [State.startWake]
  split
  case isFalse => exact hwaking
  case isTrue h =>
    obtain ⟨harray, -⟩ := Bool.and_eq_true_iff.1 h
    obtain ⟨hlt, -⟩ := of_decide_eq_true harray
    rw [State.pdState_setPdState _ _ _ (by omega) hp (by decide), if_neg (by omega), hwaking]

/-! ## The grants and the ramps -/

/-- WAKE_GRANT once the spacing has passed. -/
theorem exec_wakeGrant {s : State} {d : Fin 6} {t : Nat} {r : WakeReq} (h : ReadyWakeGrant s d t r) :
    exec (.wakeGrant d t) s = .next ((s.grantAt d.val t r ((s.ledger d.val).withWake t r)).startWake r.unit) := by
  obtain ⟨hfind, -, hspaced, hnow⟩ := h
  have hlate : decide (t < s.power.now) = false := decide_eq_false (by omega)
  change execWakeGrant d t s = _
  cases hlast : (s.ledger d.val).lastWake with
  | none =>
    simp only [execWakeGrant, hfind, hlast, hlate, Bool.not_true, Bool.or_self, Bool.false_eq_true, if_false]
    rfl
  | some u =>
    have hfree : decide (u + s.o Od.wakeSpacingNs ≤ t) = true := by rwa [hlast] at hspaced
    simp only [execWakeGrant, hfind, hlast, hfree, hlate, Bool.not_true, Bool.or_self, Bool.false_eq_true, if_false]
    rfl

/-- RAMP_UP_GRANT with room in the window and the coolant permitting. -/
theorem exec_rampUpGrant {s : State} {d : Fin 6} {t : Nat} {r : WakeReq} (h : ReadyRampUp s d t r) :
    exec (.rampUpGrant d t) s =
      .next ((s.grantAt d.val t r ((s.ledger d.val).withRamp t (s.o Od.rampWindowNs) r)).setArr r.unit
        { s.arr r.unit with ramp := .up }) := by
  obtain ⟨hfind, hcool, hnow, hroom⟩ := h
  have hlate : decide (t < s.power.now) = false := decide_eq_false (by omega)
  have hfull := decide_eq_false (Nat.not_le.2 hroom)
  change execRampUpGrant d t s = _
  simp only [execRampUpGrant, hfind, hcool, hlate, hfull, Bool.or_self, Bool.false_eq_true, if_false]
  rfl

theorem wakeGrant_wakes {s : State} {d : Fin 6} {t : Nat} {r : WakeReq} (h : ReadyWakeGrant s d t r) :
    Runs (.wakeGrant d t) s fun u =>
      u.power.now = t ∧ u.pdState r.unit = pdWAKING ∧ (u.ledger d.val).lastWake = some t ∧ u.arrs = s.arrs := by
  obtain ⟨-, hunit, -, -⟩ := id h
  obtain ⟨hpower, harrs⟩ := (s.grantAt d.val t r ((s.ledger d.val).withWake t r)).startWake_frame r.unit
  refine ⟨_, exec_wakeGrant h, ?_, State.pdState_startWake _ hunit, ?_, harrs⟩
  · rw [hpower, State.now_grantAt]
  · rw [State.ledger_congr hpower, State.ledger_grantAt, Ledger.withWake]

theorem rampUpGrant_ramps {s : State} {d : Fin 6} {t : Nat} {r : WakeReq} (h : ReadyRampUp s d t r) :
    Runs (.rampUpGrant d t) s fun u =>
      u.power.now = t ∧ (u.arr r.unit).ramp = .up ∧ t ∈ (u.ledger d.val).ramps ∧ ∀ b, b ≠ r.unit → u.arr b = s.arr b := by
  refine ⟨_, exec_rampUpGrant h, State.now_grantAt _ _ _ r _, ?_, ?_, fun b hb => ?_⟩
  · rw [State.arr_setArr, if_pos rfl]
  · rw [State.ledger_setArr, State.ledger_grantAt]
    exact List.mem_cons_self
  · rw [State.arr_setArr, if_neg hb, State.arr_grantAt]

/-- RAMP_COMPLETE of an array ramping up. -/
theorem exec_rampComplete_up {s : State} {a : Fin 32} (h : (s.arr a.val).ramp = .up) :
    exec (.rampComplete a) s = .next (s.setArr a.val { s.arr a.val with ramp := .full }) := by
  change execRampComplete a s = _
  simp only [execRampComplete, h]

/-- RAMP_COMPLETE of an array ramping down for which no compute instruction waits. -/
theorem exec_rampComplete_down {s : State} {a : Fin 32} (h : (s.arr a.val).ramp = .down) (hq : (s.arr a.val).compQ = []) :
    exec (.rampComplete a) s = .next (s.setArr a.val { s.arr a.val with ramp := .off, idleOff := 0 }) := by
  change execRampComplete a s = _
  simp only [execRampComplete, h, hq, List.isEmpty_nil, if_true]

/-- RAMP_DOWN_START of a FULL array with nothing issued, after enough bubbles. -/
theorem exec_rampDownStart {s : State} {a : Fin 32} {bubbles : Nat} (h : ReadyRampDown s a bubbles) :
    exec (.rampDownStart a bubbles) s = .next (s.setArr a.val { s.arr a.val with ramp := .down }) := by
  obtain ⟨hfull, hissued, hbubbles⟩ := h
  change execRampDownStart a bubbles s = _
  refine congrArg Host.Outcome.next (guardS_of ?_ _ _)
  simp [hfull, hissued, hbubbles]

/-- Settles O1: each grant takes its time and ledger and then its one domain or array; the ramp commands take the branch the
array's ramp state chooses. -/
theorem wakesAndRampsProceed : Obligations.WakesAndRampsProceed :=
  ⟨fun _ _ _ _ => wakeGrant_wakes, fun _ _ _ _ => rampUpGrant_ramps, fun _ _ => exec_rampComplete_up,
    fun _ _ => exec_rampComplete_down, fun _ _ _ => exec_rampDownStart⟩

/-! ## Skein objects -/

/-- Every SKEIN_STATE is a byte with the Default FREE. -/
theorem odWidth_odDefault_skeinState : ∀ k < 512, odWidth (Od.skeinState k) = 8 ∧ odDefault (Od.skeinState k) = 0 := by
  decide +kernel

/-- The objects of a run put back to their Defaults, and no other. -/
theorem State.o_resetRun (s : State) (k n j : Nat) :
    (applyAll (fun s f => s.resetO (k + f)) s (List.range n)).o j = if k ≤ j ∧ j < k + n then odDefault j else s.o j := by
  induction n with
  | zero => rw [if_neg (by omega)]; rfl
  | succ n ih =>
    rw [applyAll] at ih
    rw [List.range_succ, applyAll, List.foldl_append, List.foldl_cons, List.foldl_nil, State.o_resetO, ih]
    by_cases hj : j = k + n
    · rw [if_pos hj, if_pos (by omega), hj]
    · have hrange : (k ≤ j ∧ j < k + n) ↔ (k ≤ j ∧ j < k + (n + 1)) := by omega
      rw [if_neg hj]
      simp only [hrange]

/-- A freed slot's ten objects read their Defaults. -/
theorem State.o_freeSkein (s : State) (k : Nat) {j : Nat} (h : Od.skeinState k ≤ j) (h' : j < Od.skeinState k + 10) :
    (s.freeSkein k).o j = odDefault j := by
  rw [State.freeSkein, State.o_resetRun, if_pos ⟨h, h'⟩]

/-- The slot active for a tenant, model and identifier is one of the 512. -/
theorem State.skeinOf_lt {s : State} {tenant m id k : Nat} (h : s.skeinOf tenant m id = some k) : k < 512 := by
  rw [State.skeinOf] at h
  exact List.mem_range.1 (List.mem_of_find?_eq_some h)

/-! ## The end of a skein's command (R240) -/

@[simp] theorem State.model_record (s : State) (kind part data n : Nat) : (s.record kind part data).model n = s.model n := by
  simp [State.model]

/-- A status other than PENDING ends the command. -/
theorem State.sk_skeinStatus (s : State) (m slot : Nat) {result : Nat} (old : Option Nat) (h : result ≠ 1) :
    ((s.skeinStatus m result slot old).model m).sk = none := by
  simp only [State.skeinStatus, if_neg h, State.model_record, State.model_setModel, if_true]

/-- A status writes SKEIN_CMD_STATUS and, with its record, MIRROR_LAG at most. -/
theorem State.o_skeinStatus (s : State) (m result slot : Nat) (old : Option Nat) {k : Nat} (h : k ≠ Od.skeinCmdStatus m)
    (h' : k ≠ Od.mirrorLag) : (s.skeinStatus m result slot old).o k = s.o k := by
  have hset : ∀ v, (s.setO (Od.skeinCmdStatus m) v).o k = s.o k := fun v => s.o_setO_ne v h
  simp only [State.skeinStatus]
  split
  · exact hset _
  · rw [State.o_record _ _ _ _ h']
    simp only [State.setModel_frame, hset]

theorem State.sk_skeinRefuse (s : State) (m : Nat) {result : Nat} (c : SkCmd) (h : result ≠ 1) :
    ((s.skeinRefuse m result c).model m).sk = none := State.sk_skeinStatus _ m 0 none h

/-! ## The skein commands -/

/-- SKEIN_LOAD of a LOAD command not begun. -/
theorem exec_skeinLoad {s : State} {m : Fin 64} {c : SkCmd} (pages : Nat) (hc : (s.model m.val).sk = some c) (hop : c.op = 1)
    (hp : c.phase = 0) : exec (.skeinLoad m pages) s = .next (s.skeinTry m.val { c with pages := pages }) := by
  change execSkeinLoad m pages s = _
  simp [execSkeinLoad, hc, hop, hp]

/-- SKEIN_WAIT_EXPIRY of a command that has waited its beats. -/
theorem skeinWaitExpiry_ends {s : State} {m : Fin 64} {c : SkCmd} (hc : (s.model m.val).sk = some c)
    (hp : c.phase = 1 ∨ c.phase = 2) (hw : c.started + c.wait ≤ s.beat) :
    Runs (.skeinWaitExpiry m) s fun u => (u.model m.val).sk = none := by
  refine ⟨_, rfl, ?_⟩
  simp only [hc, if_pos (And.intro hp hw)]
  exact State.sk_skeinRefuse _ _ _ (by split <;> decide)

/-- SKEIN_COPY_COMPLETE with tiles within the limits and the model's base. -/
theorem skeinCopyComplete_ready {s : State} {m : Fin 64} {c : SkCmd} {baseId : Nat} {tiles : List (Nat × Nat)}
    (h : ReadySkeinCopy s m.val c baseId tiles) :
    Runs (.skeinCopyComplete m true baseId tiles) s fun u => (u.model m.val).sk = some { c with phase := 4 } := by
  obtain ⟨hc, hp, hvalid, -, htiles, hbase⟩ := h
  have hdense : (tiles.any fun t => decide ((if t.2 = 1 then 5242 else 2621) < t.1)) = false := by
    rw [List.any_eq_false]
    intro t ht
    have := of_decide_eq_true (List.all_eq_true.1 htiles t ht)
    simpa using this
  refine ⟨_, rfl, ?_⟩
  simp only [hc, hp, hvalid, hdense, hbase, bne_self_eq_false, Bool.not_true, Bool.or_self, Bool.false_eq_true, if_false,
    State.model_setModel, if_true]

/-- SKEIN_REMOVE of a skein with an ACTIVE slot. -/
theorem exec_skeinRemove {s : State} {m : Fin 64} {c : SkCmd} {k : Nat} (hc : (s.model m.val).sk = some c) (hop : c.op = 2)
    (hk : s.skeinOf c.tenant m.val c.id = some k) :
    exec (.skeinRemove m) s = .next ((s.setO (Od.skeinState k) 3).skeinStatus m.val 2 k none) := by
  change execSkeinRemove m s = _
  simp [execSkeinRemove, hc, hop, hk]

theorem skeinRemove_retires {s : State} {m : Fin 64} {c : SkCmd} {k : Nat} (hc : (s.model m.val).sk = some c) (hop : c.op = 2)
    (hk : s.skeinOf c.tenant m.val c.id = some k) :
    Runs (.skeinRemove m) s fun u => u.o (Od.skeinState k) = 3 ∧ (u.model m.val).sk = none := by
  refine ⟨_, exec_skeinRemove hc hop hk, ?_, State.sk_skeinStatus _ _ _ _ (by decide)⟩
  have hlt : k < 512 := State.skeinOf_lt hk
  have hm := m.isLt
  rw [State.o_skeinStatus _ _ _ _ _ (by unfold Od.skeinState Od.skeinCmdStatus; omega)
    (by unfold Od.skeinState Od.mirrorLag; omega), State.o_setO_same, (odWidth_odDefault_skeinState k hlt).1,
    Nat.mod_eq_of_lt (show 3 < 2 ^ 8 by omega)]

/-- SKEIN_SLOT_FREE of a RETIRING or FAILED slot without references. -/
theorem exec_skeinSlotFree {s : State} {k : Fin 512} (hst : s.o (Od.skeinState k.val) = 3 ∨ s.o (Od.skeinState k.val) = 4)
    (hr : s.o (Od.skeinRefs k.val) = 0) : exec (.skeinSlotFree k) s = .next (s.freeSkein k.val) := by
  change execSkeinSlotFree k s = _
  refine congrArg Host.Outcome.next (guardS_of ?_ _ _)
  rcases hst with h | h <;> simp [h, hr]

theorem skeinSlotFree_frees {s : State} {k : Fin 512} (hst : s.o (Od.skeinState k.val) = 3 ∨ s.o (Od.skeinState k.val) = 4)
    (hr : s.o (Od.skeinRefs k.val) = 0) :
    Runs (.skeinSlotFree k) s fun u =>
      u.o (Od.skeinState k.val) = 0 ∧ u.o (Od.skeinTenant k.val) = odDefault (Od.skeinTenant k.val) := by
  refine ⟨_, exec_skeinSlotFree hst hr, ?_, s.o_freeSkein k.val ?_ ?_⟩
  · rw [s.o_freeSkein k.val (Nat.le_refl _) (by omega), (odWidth_odDefault_skeinState k.val k.isLt).2]
  · unfold Od.skeinState Od.skeinTenant; omega
  · unfold Od.skeinState Od.skeinTenant; omega

/-- Settles O19: each command takes the branch its conditions choose; a final status ends the command and leaves the slots' objects
alone, and freeing a slot puts its objects back to their Defaults. -/
theorem skeinsLoadAndGo : Obligations.SkeinsLoadAndGo :=
  ⟨fun _ _ pages _ => exec_skeinLoad pages, fun _ _ _ => skeinWaitExpiry_ends, fun _ _ _ _ _ => skeinCopyComplete_ready,
    fun _ _ _ _ => skeinRemove_retires, fun _ _ => skeinSlotFree_frees⟩

end Sys2Proof.Machine
end

section
/-!
PROOFS of the family 04_array_instructions.md: the issue of compute instructions (R119 to R132) and what they leave alone.  For each
command, one lemma says which state it answers once its conditions hold; the rest are rules about an array's queues.
-/
namespace Sys2Proof.Machine

/-! ## The queues of an array -/

section
variable (x : Arr) (q : QWord) (d : Option Nat)

@[simp] theorem Arr.compQ_issue : (x.issue q d).compQ = x.compQ.drop 1 := rfl

@[simp] theorem Arr.issued_issue : (x.issue q d).issued = x.issued ++ [{ q := q, op := wOp q.word, dsig := d }] := rfl

@[simp] theorem Arr.wordDone_frame (key : Nat) :
    (x.wordDone key).compQ = x.compQ ∧ (x.wordDone key).issued = x.issued ∧ (x.wordDone key).topk = x.topk ∧
      (x.wordDone key).shadow = x.shadow ∧ (x.wordDone key).sk0 = x.sk0 ∧ (x.wordDone key).sk1 = x.sk1 ∧
      (x.wordDone key).sync = x.sync := by
  and_intros <;> rfl

@[simp] theorem Arr.count_frame (key mis num : Nat) (ovf : Bool) :
    (x.count key mis num ovf).compQ = x.compQ ∧ (x.count key mis num ovf).issued = x.issued ∧
      (x.count key mis num ovf).topk = x.topk := by
  and_intros <;> rfl

end

/-- The head that may issue stands at the front of the compute queue with the opcode asked for (R82). -/
theorem State.headOf_eq_some {s : State} {a op : Nat} {q : QWord} (h : s.headOf a op = some q) :
    (∃ rest, (s.arr a).compQ = q :: rest) ∧ wOp q.word = op := by
  unfold State.headOf at h
  cases hq : (s.arr a).compQ with
  | nil => simp [hq] at h
  | cons p rest =>
    simp only [hq, Option.ite_none_right_eq_some, Bool.and_eq_true, beq_iff_eq, Option.some.injEq] at h
    obtain ⟨⟨⟨⟨hop, -⟩, -⟩, -⟩, rfl⟩ := h
    exact ⟨⟨rest, rfl⟩, hop⟩

/-- An array that issues q with its own compute queue's rest has q among its issued instructions. -/
theorem issuedNow_setArr {s t : State} {a : Nat} {x : Arr} (q : QWord) (d : Option Nat) (hx : x.compQ = (s.arr a).compQ) :
    IssuedNow s (t.setArr a (x.issue q d)) a q (wOp q.word) := by
  simp [IssuedNow, hx]

@[simp] theorem State.arr_addO (s : State) (k n b : Nat) : (s.addO k n).arr b = s.arr b :=
  State.arr_congr (by simp only [State.addO_frame]) b

/-- What an array's bundles count changes neither of its queues. -/
theorem IssuedNow.count {s t u : State} {a : Nat} {q : QWord} {op : Nat} (h : IssuedNow s t a q op) (hu : u.arrs = t.arrs)
    (key mis num : Nat) (ovf : Bool) (k n : Nat) :
    IssuedNow s ((u.setArr a ((u.arr a).count key mis num ovf)).addO k n) a q op := by
  simpa [IssuedNow, State.arr_congr hu] using h

/-! ## ESTATE and SMRES (R128, R129) -/

theorem exec_estate {s : State} {a : Fin 32} {q : QWord} (h : s.headOf a.val 0x20 = some q) :
    ∃ rows, exec (.estate a) s = .next (s.setArr a.val ({ s.arr a.val with rows := rows }.issue q none)) := by
  change ∃ rows, execEstate a s = _
  simp only [execEstate, h]
  exact ⟨_, rfl⟩

theorem exec_smres {s : State} {a : Fin 32} {q : QWord} (h : s.headOf a.val 0x21 = some q) :
    ∃ x : Arr, x.compQ = (s.arr a.val).compQ ∧ exec (.smres a) s = .next (s.setArr a.val (x.issue q none)) := by
  change ∃ x : Arr, _ ∧ execSmres a s = _
  simp only [execSmres, h]
  refine ⟨_, ?_, rfl⟩
  refine applyAll_frame Arr.compQ (fun x m => ?_) _ _
  rfl

/-! ## NORM (R130) -/

@[simp] theorem State.arrs_putResB (s : State) (a : Nat) (r : Resident) (addr : Nat) (b : Byte) :
    (s.putResB a r addr b).arrs = s.arrs := by
  rw [State.putResB]
  split <;> simp

@[simp] theorem State.arrs_putRes (s : State) (a : Nat) (r : Resident) (addr : Nat) (bs : List Byte) :
    (s.putRes a r addr bs).arrs = s.arrs := by
  rw [State.putRes]
  exact applyAll_frame (fun p : State × Nat => p.1.arrs) (fun p b => State.arrs_putResB _ _ _ _ _) _ _

@[simp] theorem State.arrs_writeRow (s : State) (a : Nat) (r : Resident) (d n m : Nat) (row : List Byte × List Byte × Nat) :
    (s.writeRow a r d n m row).arrs = s.arrs := by
  simp [State.writeRow]

@[simp] theorem State.arrs_rngKey (s : State) (u : Nat) : (s.rngKey u).arrs = s.arrs := by
  unfold State.rngKey
  dsimp only
  split <;> simp

@[simp] theorem State.arrs_rngBlock (s : State) (u l : Nat) : (s.rngBlock u l).1.arrs = s.arrs := by
  simp only [State.rngBlock, State.setDice_frame]
  split <;> simp

@[simp] theorem State.arrs_rngDraw (s : State) (u l w per : Nat) : (s.rngDraw u l w per).1.arrs = s.arrs := by
  unfold State.rngDraw
  split <;> simp

@[simp] theorem arrs_rngMany (a n : Nat) (s : State) : (rngMany a n s).1.arrs = s.arrs := by
  induction n generalizing s with
  | zero => rfl
  | succ n ih => exact (ih _).trans (State.arrs_rngDraw _ _ _ _ _)

@[simp] theorem State.arrs_draws (s : State) (a : Nat) (sr : Bool) (n : Nat) : (s.draws a sr n).1.arrs = s.arrs := by
  cases sr
  · rfl
  · exact arrs_rngMany a n s

/-- A NORM that is ready needs no draws, or has the key for them (R130). -/
theorem ReadyNorm.draws {s : State} {a : Nat} {q : QWord} (h : ReadyNorm s a q) :
    (!(s.die_ (a / 4)).hasKey && (List.range (dRows (q.descs.getD 0 0))).any fun m =>
      (tGet {} (s.arr a).rows (q.res * 512 + m) : RowState).sr) = false := by
  obtain ⟨-, -, hkey⟩ := h
  cases hk : (s.die_ (a / 4)).hasKey with
  | true => rfl
  | false => exact hkey hk

/-- NORM with every earlier instruction complete and its vectors there: it is issued, and its rows change neither queue. -/
theorem norm_issues {s : State} {a : Fin 32} {q : QWord} (h : ReadyNorm s a.val q) (hv : s.vecsIn a.val q = true) :
    Runs (.norm a) s fun u => IssuedNow s u a.val q (wOp q.word) := by
  obtain ⟨hhead, hissued, -⟩ := id h
  refine ⟨_, rfl, ?_⟩
  simp only [hhead, hissued, h.draws, hv, List.isEmpty_nil, Bool.not_true, Bool.or_self, Bool.false_eq_true, if_false]
  refine applyAll_keeps (fun t : State => IssuedNow s t a.val q (wOp q.word)) (fun t m ht => ?_) _ (issuedNow_setArr q none rfl)
  exact ht.count (by rw [State.arrs_writeRow, State.arrs_draws]) _ _ _ _ _ _

/-- NORM whose vectors are not all in near store asks for them. -/
theorem exec_norm_fetches {s : State} {a : Fin 32} {q : QWord} (h : ReadyNorm s a.val q) (hv : s.vecsIn a.val q = false) :
    exec (.norm a) s = .next (s.fetchVecs a.val q) := by
  obtain ⟨hhead, hissued, -⟩ := id h
  change execNorm a s = _
  simp only [execNorm, hhead, hissued, h.draws, hv, List.isEmpty_nil, Bool.not_true, Bool.not_false, Bool.or_self,
    Bool.false_eq_true, if_false, if_true]

/-! ## TKSUB and its job (R132, R305) -/

/-- TKSUB on a free channel starts a job with the word's K and COUNT. -/
theorem exec_tksub {s : State} {a : Fin 32} {q : QWord} (h : ReadyTksub s a.val q) :
    ∃ (j : TkJob) (f : Nat), (j.q = q ∧ j.k = bits q.word 87 77 ∧ j.count = bits q.word 73 55) ∧
      exec (.tksub a) s = .next ((s.setArr a.val (({ (s.arr a.val).issue q none with
        topk := tIns (bits q.word 76 75) (some j) (s.arr a.val).topk } : Arr).count q.bundle 0 f false)).addO
          (Od.arrayNumfaultCount a.val) f) := by
  obtain ⟨hhead, hfree, hslice⟩ := h
  have hwait : (bitAt q.word 74 && !(s.arr a.val).issued.isEmpty) = false := by
    cases hb : bitAt q.word 74 with
    | false => rfl
    | true => simp [hslice hb]
  change ∃ j f, _ ∧ execTksub a s = _
  simp only [execTksub, hhead, hfree, hwait, Option.isSome_none, Bool.or_self, Bool.false_eq_true, if_false]
  exact ⟨_, _, ⟨rfl, rfl, rfl⟩, rfl⟩

theorem tksub_starts {s : State} {a : Fin 32} {q : QWord} (h : ReadyTksub s a.val q) :
    Runs (.tksub a) s fun u => IssuedNow s u a.val q (wOp q.word) ∧
      ∃ j, tGet none (u.arr a.val).topk (bits q.word 76 75) = some j ∧ j.q = q ∧ j.k = bits q.word 87 77 ∧
        j.count = bits q.word 73 55 := by
  obtain ⟨j, f, hj, hexec⟩ := exec_tksub h
  refine ⟨_, hexec, ?_, j, ?_, hj⟩
  · simp [IssuedNow]
  · simp

/-- A job that has all its values gives its channel back and ends its instruction. -/
theorem topkJobComplete_ends {s : State} {a : Fin 32} {c : Fin 4} {j : TkJob} (hj : tGet none (s.arr a.val).topk c.val = some j)
    (hfull : j.count ≤ j.vals.length) :
    Runs (.topkJobComplete a c) s fun u => tGet none (u.arr a.val).topk c.val = none ∧
      ∀ i ∈ (u.arr a.val).issued, ¬ (i.op = 0x30 ∧ i.q = j.q) := by
  refine ⟨_, rfl, ?_⟩
  simp only [hj, if_neg (Nat.not_lt.2 hfull), State.arr_setArr, if_true, Arr.wordDone_frame]
  refine ⟨tGet_tDel_same _ _ _, fun i hi => ?_⟩
  obtain ⟨-, hkept⟩ := List.mem_filter.1 hi
  rintro ⟨hop, hq⟩
  simp [hop, hq] at hkept

/-! ## Words that wait for their vectors (R191) -/

theorem odWidth_ondemandFetches : odWidth Od.ondemandFetches = 64 := by decide +kernel

/-- An on-demand fetch is counted once, and its bytes beside it. -/
theorem State.o_ondemand (s : State) (n : Nat) :
    ((s.addO Od.ondemandFetches 1).addO Od.ondemandBytes n).o Od.ondemandFetches = (s.o Od.ondemandFetches + 1) % 2 ^ 64 := by
  rw [State.o_addO, if_neg (by decide), State.o_addO, if_pos rfl, odWidth_ondemandFetches]

/-- With the fetch engine free and the pages there, the word stays at the head and its fetch begins. -/
theorem State.fetchVecs_starts {s : State} {a : Nat} {q : QWord} (hfree : (s.arr a).fetch = none)
    (hpages : ((s.vecPieces a q).any fun p => s.pageGone p.1) = false) :
    ((s.fetchVecs a q).arr a).compQ = (s.arr a).compQ ∧
      ((s.fetchVecs a q).arr a).fetch = some { q := q, bytes := s.missRuns a (s.res a q.res) q.vecRuns } ∧
      (s.fetchVecs a q).o Od.ondemandFetches = (s.o Od.ondemandFetches + 1) % 2 ^ 64 := by
  change ((s.vecPieces a q).any fun p => s.mem.refetch.any fun e => e.1 == p.1) = false at hpages
  simp only [State.fetchVecs, hfree, hpages, Option.isSome_none, Bool.or_self, Bool.false_eq_true, if_false]
  simp [State.o_ondemand]

/-! ## MMA and IMPORT (R120, R122, R126) -/

/-- The tile of an MMA, among those that stand active or in the shadow (R122). -/
def tileFor (q : QWord) : Option Tile → Option Tile
  | some t => if t.desc == q.descs.getD 2 0 && t.res == q.res then some t else none
  | none => none

theorem tileFor_of_isFor {q : QWord} {t : Tile} (h : t.isFor q) : tileFor q (some t) = some t := by
  obtain ⟨hdesc, hres⟩ := h
  simp [tileFor, hdesc, hres]

theorem tileFor_eq_none {q : QWord} {o : Option Tile} (h : ∀ t, o = some t → ¬ t.isFor q) : tileFor q o = none := by
  cases o with
  | none => rfl
  | some t => exact if_neg fun hmine => h t rfl (by simpa [Tile.isFor] using hmine)

/-- The order check of R120 passes: the units follow or are begun, a first block has number 0, and the ports have room. -/
theorem order_passes {exports first follow : Bool} {block route need room : Nat}
    (hfollow : exports = true ∨ first = true ∨ follow = true) (hblock : first = true → block = 0)
    (hroom : route = 2 → need ≤ room) :
    ¬ ((!exports && !first && !follow || first && block != 0 || route == 2 && decide (room < need)) = true) := by
  rw [Bool.not_eq_true, Bool.or_eq_false_iff, Bool.or_eq_false_iff]
  refine ⟨⟨?_, ?_⟩, ?_⟩
  · rcases hfollow with h | h | h <;> simp [h]
  · cases first
    · rfl
    · simp [hblock]
  · simpa using hroom

/-- An MMA that is ready issues on its active tile, or else takes it from the shadow. -/
theorem exec_mma {s : State} {a : Fin 32} {q : QWord} (upsets : List (Nat × Nat)) (h : ReadyMma s a.val q)
    (hv : s.vecsIn a.val q = true) :
    exec (.mma a upsets) s = .next (match tileFor q (s.arr a.val).active, tileFor q (s.arr a.val).shadow with
      | none, none => s
      | some t, _ => ((s.readVecs a.val q).setArr a.val ((s.arr a.val).issue q (mDsig q.word))).mmaRows a.val q
          ((s.arr a.val).halfOf q) t ((s.arr a.val).skOf q) upsets
      | none, some t => ((s.readVecs a.val q).setArr a.val
          { (s.arr a.val).issue q (mDsig q.word) with active := some t, shadow := none }).mmaRows a.val q
          ((s.arr a.val).halfOf q) t ((s.arr a.val).skOf q) upsets) := by
  obtain ⟨hhead, hfollow, hblock, hroom, hdesc, hres, hepoch, hunits, hskein, hkey⟩ := h
  change execMma a upsets s = _
  simp only [execMma, hhead, hv, if_true]
  refine congrArg Host.Outcome.next ((if_neg ?order).trans ((if_neg ?half).trans ((if_neg ?units).trans
    ((if_neg ?skein).trans ((if_neg ?draws).trans ?tile)))))
  case order => exact order_passes (hfollow.imp_left beq_iff_eq.2) hblock hroom
  case half =>
    change ¬ ((((s.arr a.val).halfOf q).desc != _ || ((s.arr a.val).halfOf q).res != _ || ((s.arr a.val).halfOf q).epoch != _) = true)
    rw [hdesc, hres, hepoch]
    simp only [bne_self_eq_false, Bool.or_self, Bool.false_eq_true, not_false_eq_true]
  case units =>
    simp only [Bool.and_eq_true, Bool.not_eq_true', beq_eq_false_iff_ne, not_and, Bool.not_eq_false, and_imp]
    exact hunits
  case skein =>
    simp only [Bool.and_eq_true, Bool.not_eq_true', not_and, Bool.not_eq_false]
    exact hskein
  case draws =>
    simp only [Bool.and_eq_true, Bool.not_eq_true', not_and, Bool.not_eq_true, and_imp]
    exact hkey
  case tile => rfl

/-- IMPORT whose staged rows have arrived in order. -/
theorem exec_importBlk {s : State} {a : Fin 32} {q : QWord} (h : ReadyImport s a.val q) :
    exec (.importBlk a) s =
      .next (if s.vecsIn a.val q then (s.readVecs a.val q).importRows a.val q else s.fetchVecs a.val q) := by
  obtain ⟨hhead, hfollow, hblock, hroom, hrows, hunits⟩ := h
  change execImport a s = _
  simp only [execImport, hhead]
  refine congrArg Host.Outcome.next ((if_neg ?order).trans (if_neg ?units))
  case order => exact order_passes (exports := false) (.inr hfollow) hblock hroom
  case units =>
    simp only [Bool.or_eq_true, decide_eq_true_eq, Bool.and_eq_true, Bool.not_eq_true', not_or, not_and, Bool.not_eq_false]
    exact ⟨Nat.not_lt.2 hrows, hunits⟩

/-- A NORM or an IMPORT that waits only for its vectors stays at the head while they are fetched. -/
theorem exec_fetches {s : State} {a : Fin 32} {q : QWord} (h : ReadyNorm s a.val q ∨ ReadyImport s a.val q)
    (hv : s.vecsIn a.val q = false) :
    exec (if wOp q.word = 0x22 then .norm a else .importBlk a) s = .next (s.fetchVecs a.val q) := by
  rcases h with h | h
  · obtain ⟨hhead, -⟩ := id h
    rw [if_pos (State.headOf_eq_some hhead).2]
    exact exec_norm_fetches h hv
  · obtain ⟨hhead, -⟩ := id h
    rw [if_neg (by rw [(State.headOf_eq_some hhead).2]; decide), exec_importBlk h, hv]
    rfl

/-- Settles O14: each instruction, once its conditions hold, takes the branch of its issue; what its rows then write leaves the
array's queues alone. -/
theorem computeInstructionsIssue : Obligations.ComputeInstructionsIssue := by
  refine ⟨fun s a q t upsets h hact hfor hv => ?active, fun s a q t upsets h hnot hshadow hfor hv => ?shadow,
    fun s a q h hv => ?importBlk, fun s a q h hv hfree hpages => ⟨_, exec_fetches h hv, State.fetchVecs_starts hfree hpages⟩,
    fun s a q h => ?estate, fun s a q h => ?smres, fun _ _ _ => norm_issues, fun _ _ _ => tksub_starts,
    fun _ _ _ _ => topkJobComplete_ends⟩
  case active => rw [exec_mma upsets h hv, hact, tileFor_of_isFor hfor]
  case shadow => rw [exec_mma upsets h hv, tileFor_eq_none hnot, hshadow, tileFor_of_isFor hfor]
  case importBlk => rw [exec_importBlk h, if_pos hv]
  case estate =>
    obtain ⟨rows, hexec⟩ := exec_estate h
    exact ⟨_, hexec, issuedNow_setArr q none rfl, rfl, rfl⟩
  case smres =>
    obtain ⟨x, hx, hexec⟩ := exec_smres h
    exact ⟨_, hexec, issuedNow_setArr q none hx, rfl, rfl⟩

/-! ## What the issued instructions leave alone -/

theorem OnlyArray.refl (s : State) (a : Nat) : OnlyArray s s a := ⟨fun _ _ => rfl, rfl, rfl, rfl, rfl, rfl⟩

theorem OnlyArray.setArr (s : State) (a : Nat) (x : Arr) : OnlyArray s (s.setArr a x) a :=
  ⟨fun b hb => by rw [State.arr_setArr, if_neg hb], rfl, rfl, rfl, rfl, rfl⟩

theorem OnlyArray.addO {s t : State} {a : Nat} (h : OnlyArray s t a) (k n : Nat) : OnlyArray s (t.addO k n) a := by
  obtain ⟨hothers, hmem, hstakes, hsteps, hreqs, hres⟩ := h
  exact ⟨fun b hb => by rw [State.arr_addO, hothers b hb], hmem, hstakes, hsteps, hreqs, hres⟩

theorem OnlyArray.setIncrs {s t : State} {a : Nat} (h : OnlyArray s t a) (is : List Incr) :
    OnlyArray s { t with incrs := is } a := by
  obtain ⟨hothers, hmem, hstakes, hsteps, hreqs, hres⟩ := h
  exact ⟨hothers, hmem, hstakes, hsteps, hreqs, hres⟩

/-- A condition under which nothing happens adds no change. -/
theorem OnlyArray.ite {s t : State} {a : Nat} {c : Prop} [Decidable c] (h : OnlyArray s t a) :
    OnlyArray s (if c then s else t) a := by
  split
  · exact .refl s a
  · exact h

/-- Neither does a queue without a head to issue. -/
theorem OnlyArray.ofHead {s : State} {a : Nat} {o : Option QWord} {f : QWord → State} :
    (∀ q, o = some q → OnlyArray s (f q) a) → OnlyArray s (match o with
      | none => s
      | some q => f q) a := by
  intro h
  cases o with
  | none => exact .refl s a
  | some q => exact h q rfl

section
variable (s : State) (a : Fin 32)

theorem estate_onlyArray : Runs (.estate a) s fun t => OnlyArray s t a.val :=
  ⟨_, rfl, .ofHead fun _ _ => .setArr s _ _⟩

theorem smres_onlyArray : Runs (.smres a) s fun t => OnlyArray s t a.val :=
  ⟨_, rfl, .ofHead fun _ _ => .setArr s _ _⟩

theorem tksub_onlyArray : Runs (.tksub a) s fun t => OnlyArray s t a.val :=
  ⟨_, rfl, .ofHead fun _ _ => .ite ((OnlyArray.setArr s _ _).addO _ _)⟩

theorem wait_onlyArray : Runs (.wait a) s fun t => OnlyArray s t a.val :=
  ⟨_, rfl, .ofHead fun _ _ => .ite (.setArr s _ _)⟩

theorem signal_onlyArray : Runs (.signal a) s fun t => OnlyArray s t a.val :=
  ⟨_, rfl, .ofHead fun _ _ => .ite ((OnlyArray.setArr s _ _).setIncrs _)⟩

theorem fence_onlyArray (hpost : ∀ q : QWord, s.headOf a.val 0x42 = some q → bitAt q.word 111 = false) :
    Runs (.fence a) s fun t => OnlyArray s t a.val := by
  refine ⟨_, rfl, .ofHead fun q hhead => .ite ?_⟩
  rw [hpost q hhead]
  exact .setArr s _ _

end

/-- A command answers one next state. -/
theorem Runs.next {c : Instr} {s t : State} {P : State → Prop} (h : Runs c s P) (ht : exec c s = .next t) : P t := by
  obtain ⟨u, hu, hP⟩ := h
  obtain rfl : u = t := Host.Outcome.next.inj (hu.symm.trans ht)
  exact hP

/-- Settles O60: each of the six changes nothing, or its own array and what no clause names. -/
theorem issuedInstructionsStayInTheirArray : Obligations.IssuedInstructionsStayInTheirArray :=
  fun s _ a => ⟨(estate_onlyArray s a).next, (smres_onlyArray s a).next, (tksub_onlyArray s a).next, (wait_onlyArray s a).next,
    (signal_onlyArray s a).next, fun hpost => (fence_onlyArray s a hpost).next⟩

end Sys2Proof.Machine
end

section
/-!
PROOFS of the family 04_array_instructions.md: what reaches a bundle port and ends a bundle there (R105 to R109, R146), and the
three loads (R115 to R118, R191).
-/
namespace Sys2Proof.Machine

/-! ## Bundle ports (R105 to R107, R146) -/

/-- The access of a core that holds none back, with slots on its route, has its effect at once (R147). -/
theorem State.access_of_free {s : State} {c : Nat} {acc : Access} (hfree : CoreFree s c) (hgo : s.mayGo c acc = true) :
    s.access c acc = s.doAccess c acc := by
  obtain ⟨hon, hheld⟩ := hfree
  simp only [State.access, hon, hheld, hgo, Bool.not_true, Option.isSome_none, Bool.or_self, Bool.false_eq_true, if_false, if_true]

/-- A header with words to come locks a free port to its core. -/
theorem State.portWord_locks {s : State} {a c w : Nat} (hon : s.pdOn (pdArray a) = true) (hport : (s.arr a).port = none)
    (hop : wOp w = 0xF0) (hcount : hCount w ≠ 0) :
    s.portWord a c w = s.setArr a { s.arr a with port := some { core := c, header := w } } := by
  simp only [State.portWord, hon, hport, hop, Bool.not_true, Bool.false_eq_true, if_false, bne_self_eq_false, if_neg hcount]

/-- A word of the core that holds the lock is the bundle's next; the last one frees the port. -/
theorem State.portWord_of_lock {s : State} {a w : Nat} {l : PortLock} (hon : s.pdOn (pdArray a) = true)
    (hport : (s.arr a).port = some l) :
    s.portWord a l.core w = if l.words.length + 1 < hCount l.header
      then s.setArr a { s.arr a with port := some { l with words := l.words ++ [w] } }
      else (s.setArr a { s.arr a with port := none }).acceptBundle a l.header (l.words ++ [w]) := by
  simp only [State.portWord, hon, hport, Bool.not_true, Bool.false_eq_true, if_false, if_true, List.length_append,
    List.length_singleton]

theorem exec_bundleWordWrite {s : State} {a : Fin 32} {c : Fin 144} {bytes w : Nat} (hfree : CoreFree s c.val)
    (hgo : s.mayGo c.val (.word a.val bytes (w % 2 ^ 128)) = true) :
    exec (.bundleWordWrite a c bytes w) s = .next
      (if bytes = 16 then s.portWord a.val c.val (w % 2 ^ 128) else s.addO Od.bundlePortBadWriteCount 1) :=
  congrArg Host.Outcome.next (State.access_of_free hfree hgo)

@[simp] theorem State.arrs_postStatus (s : State) (a : Nat) (b : Bundle) : (s.postStatus a b).arrs = s.arrs := by
  simp only [State.postStatus, State.post_frame, State.took_frame]
  split <;> simp

/-- A time-out at a locked port frees it and leaves the accepted bundles. -/
theorem bundlePortTimeout_frees {s : State} {a : Fin 32} {l : PortLock} (hport : (s.arr a.val).port = some l) :
    Runs (.bundlePortTimeout a) s fun u => (u.arr a.val).port = none ∧ (u.arr a.val).bundles = (s.arr a.val).bundles := by
  refine ⟨_, rfl, ?_⟩
  simp only [hport, State.arr_congr (State.arrs_postStatus _ _ _), State.arr_setArr, if_true, and_self]

/-- The status of a bundle whose words have all completed leaves with the bundle. -/
theorem bundleComplete_removes {s : State} {a : Fin 32} {key : Nat} {b : Bundle}
    (hb : (s.arr a.val).bundles.find? (fun b => b.key == key && b.left == 0) = some b) :
    Runs (.bundleComplete a key) s fun u => ∀ c ∈ (u.arr a.val).bundles, c.key ≠ key := by
  refine ⟨_, rfl, fun c hc => ?_⟩
  simp only [hb, State.arr_congr (State.arrs_postStatus _ _ _), State.arr_setArr, if_true] at hc
  obtain ⟨-, hkept⟩ := List.mem_filter.1 hc
  exact bne_iff_ne.1 hkept

/-- Settles O12: a core's access reaches the port, and the port's lock and the word decide which of its branches is taken. -/
theorem bundlePortsTakeWords : Obligations.BundlePortsTakeWords := by
  refine ⟨fun s a c w ds kv fill hfree hgo hon hport hop hcount => ?header, fun s a c w l hfree hgo hon hport hcore hmore => ?word,
    fun s a c w l hfree hgo hon hport hcore hlast => ?last, fun s a c bytes w hfree hgo hsize => ?size,
    fun _ _ _ => bundlePortTimeout_frees, fun _ _ _ _ => bundleComplete_removes⟩
  case header =>
    refine ⟨_, congrArg Host.Outcome.next ((State.access_of_free hfree hgo).trans (State.portWord_locks hon hport hop hcount)), ?_⟩
    simp only [State.arr_setArr, if_true]
  case word =>
    refine ⟨_, exec_bundleWordWrite hfree hgo, ?_⟩
    rw [if_pos rfl, ← hcore, State.portWord_of_lock hon hport, if_pos hmore]
    simp only [State.arr_setArr, if_true, State.setArr_frame, and_self]
  case last => rw [exec_bundleWordWrite hfree hgo, if_pos rfl, ← hcore, State.portWord_of_lock hon hport, if_neg (Nat.not_lt.2 hlast)]
  case size => rw [exec_bundleWordWrite hfree hgo, if_neg hsize]

/-! ## Loads (R115 to R118, R191) -/

/-- A load that may start leaves the queue for its target, or for an on-demand fetch of the bytes that are missing. -/
theorem State.startLoad_of_ready {s : State} {a op : Nat} {q : QWord} {rest : List QWord} (h : ReadyLoad s a op q rest) :
    s.startLoad a op = if s.missBytes a (s.res a q.res) q = 0 then (s.setArr a ((s.arr a).loadTaken q rest)).finishLoad a q
      else ((s.setArr a { (s.arr a).loadTaken q rest with
        fetch := some { q := q, bytes := s.missBytes a (s.res a q.res) q } }).addO Od.ondemandFetches 1).addO
          Od.ondemandBytes (s.missBytes a (s.res a q.res) q) := by
  obtain ⟨hq, hop, hfetch, hmay, htarget, hctr, hpages⟩ := h
  cases hc : loadCtr q.word with
  | none =>
    simp only [State.startLoad, hq, hop, hfetch, hmay, htarget, hpages, hc, bne_self_eq_false, Option.isSome_none, Bool.not_true,
      Bool.or_self, Bool.false_eq_true, if_false, Arr.loadTaken]
  | some c =>
    have hheld : decide (1 ≤ (s.arr a).ctr q.res c) = true := by simpa [hc] using hctr
    simp only [State.startLoad, hq, hop, hfetch, hmay, htarget, hpages, hc, hheld, bne_self_eq_false, Option.isSome_none,
      Bool.not_true, Bool.or_self, Bool.false_eq_true, if_false, Arr.loadTaken]

/-- TLOAD puts its descriptor's tile into the shadow. -/
theorem State.shadow_finishLoad {s : State} {a : Nat} {q : QWord} (hop : wOp q.word = 1) :
    ∃ t, ((s.finishLoad a q).arr a).shadow = some t ∧ t.desc = q.descs.getD 0 0 ∧ t.res = q.res ∧ t.epoch = q.epoch := by
  simp only [State.finishLoad, hop, State.arr_setArr, if_true, Arr.wordDone_frame]
  exact ⟨_, rfl, rfl, rfl, rfl⟩

theorem tHas_tIns_same {α : Type} (k : Nat) (v : α) (t : Tbl α) : tHas (tIns k v t) k = true := by
  induction t with
  | nil => simp [tIns, tHas]
  | cons e t ih =>
    simp only [tIns]
    split
    · simp [tHas]
    · split <;> simp [tHas, ih]

/-- SKLD lists its position in the skein half its word names. -/
theorem State.tiles_finishLoad {s : State} {a : Nat} {q : QWord} (hop : wOp q.word = 3) :
    tHas (if bitAt q.word 99 then ((s.finishLoad a q).arr a).sk1 else ((s.finishLoad a q).arr a).sk0).tiles
      (bits q.word 98 95) = true := by
  cases hhalf : bitAt q.word 99 <;>
    simp only [State.finishLoad, hop, hhalf, State.arr_setArr, if_true, Bool.false_eq_true, if_false, Arr.wordDone_frame, tHas_tIns_same]

/-- The commands that start the loads, by opcode. -/
theorem exec_load (a : Fin 32) (op : Fin 3) (s : State) :
    exec ([Instr.tload a, .feed a, .skld a].getD op.val (.tload a)) s = .next (s.startLoad a.val (op.val + 1)) := by
  match op with
  | 0 => rfl
  | 1 => rfl
  | 2 => rfl

/-- A load with bytes missing leaves the queue for an on-demand fetch, which is counted. -/
theorem load_fetches {s : State} {a : Fin 32} {op : Fin 3} {q : QWord} {rest : List QWord} (h : ReadyLoad s a.val (op.val + 1) q rest)
    (hmiss : s.missBytes a.val (s.res a.val q.res) q ≠ 0) :
    Runs ([Instr.tload a, .feed a, .skld a].getD op.val (.tload a)) s fun u =>
      (u.arr a.val).fetch = some { q := q, bytes := s.missBytes a.val (s.res a.val q.res) q } ∧ (u.arr a.val).loadQ = rest ∧
        u.o Od.ondemandFetches = (s.o Od.ondemandFetches + 1) % 2 ^ 64 := by
  refine ⟨_, exec_load a op s, ?_⟩
  rw [State.startLoad_of_ready h, if_neg hmiss]
  simp only [State.o_ondemand, State.setArr_frame, State.arr_addO, State.arr_setArr, if_true, true_and, and_true]
  rfl

/-- A fetch whose last byte is there: a compute word may read its vectors, a load starts. -/
theorem exec_fetchComplete {s : State} {a : Fin 32} {f : Fetch} (hf : (s.arr a.val).fetch = some f) :
    exec (.fetchComplete a) s = .next (if 0x10 ≤ wOp f.q.word then
        s.setArr a.val { s.arr a.val with fetch := none, vecs := some (f.q.bundle, f.q.idx) }
      else if (s.loadPieces a.val (s.res a.val f.q.res) f.q).any (fun p => s.pageGone p.1) || !s.pdOn (pdSlice a.val) then s
      else (s.setArr a.val { s.arr a.val with fetch := none }).finishLoad a.val f.q) := by
  change execFetchComplete a s = _
  simp only [execFetchComplete, hf, decide_eq_true_eq]

/-- Settles O13: a load that may start has all its bytes and ends at its target, or leaves the queue for a fetch that ends there. -/
theorem loadsStart : Obligations.LoadsStart := by
  refine ⟨fun s a q rest h hmiss => ?tload, fun s a q rest h hmiss => ?feed, fun s a q rest h hmiss => ?skld,
    fun s a op q rest => load_fetches, fun s a f hf hop => ?vectors, fun s a f hf hop hon hpages => ?load⟩
  case tload =>
    obtain ⟨-, hop, -⟩ := id h
    refine ⟨_, rfl, ?_⟩
    rw [State.startLoad_of_ready h, if_pos hmiss]
    exact State.shadow_finishLoad hop
  case feed => exact congrArg Host.Outcome.next ((State.startLoad_of_ready h).trans (if_pos hmiss))
  case skld =>
    obtain ⟨-, hop, -⟩ := id h
    refine ⟨_, rfl, ?_⟩
    rw [State.startLoad_of_ready h, if_pos hmiss]
    exact State.tiles_finishLoad hop
  case vectors => rw [exec_fetchComplete hf, if_pos hop]
  case load => rw [exec_fetchComplete hf, if_neg (Nat.not_le.2 hop), hpages, hon]; rfl

end Sys2Proof.Machine
end

section
/-!
PROOFS of the family 04_array_instructions.md: what an error of an array sets going leaves FAULT_N as it is (R596, R603, R641).  What a
request or a sequence gives back leaves every pin alone; only a record (R613) and what records, a post to a full mailbox among them
(R152), change the pins, and they leave the pulse of FAULT_N.
-/
namespace Sys2Proof.Machine

section
variable (s : State)

/-! ## Granules and pages (R174, R188, R198) -/

@[simp] theorem State.pins_putGran (g : Nat) (x : Gran) : (s.putGran g x).pins = s.pins := by
  simp [State.putGran]

@[simp] theorem State.pins_putPage (p : Nat) (x : Page) : (s.putPage p x).pins = s.pins := by
  simp [State.putPage]

@[simp] theorem State.pins_dropGran (g : Nat) : (s.dropGran g).pins = s.pins := by
  simp [State.dropGran]

@[simp] theorem State.pins_cancelMigr (g : Nat) : (s.cancelMigr g).pins = s.pins := State.pins_putGran s g {}

@[simp] theorem State.pins_cancelMigrOf (p : Nat) : (s.cancelMigrOf p).pins = s.pins := by
  refine applyAll_frame State.pins (fun t e => ?_) _ _
  split
  · exact t.pins_cancelMigr _
  · rfl

@[simp] theorem State.pins_untier (p : Nat) : (s.untier p).pins = s.pins := by
  refine (applyAll_frame State.pins (fun t e => ?_) _ _).trans (s.pins_cancelMigrOf p)
  split
  · exact t.pins_dropGran _
  · rfl

@[simp] theorem State.pins_freePage (p : Nat) : (s.freePage p).pins = s.pins := by
  simp [State.freePage]

@[simp] theorem State.pins_kvFree (k : Nat) : (s.kvFree k).pins = s.pins := by
  simp only [State.kvFree]
  split
  · rfl
  · split
    · simp
    · simp

/-! ## Messages and output (R471 to R480, R494 to R497) -/

@[simp] theorem State.pins_freeBuf (b : Nat) : (s.freeBuf b).pins = s.pins := by
  simp only [State.freeBuf]
  split
  · rfl
  · simp only [State.setBuf_frame, apply_ite State.pins, State.subO_frame, State.addO_frame, ite_self]
    split <;> simp

@[simp] theorem State.pins_sealBuf (b : Nat) : (s.sealBuf b).pins = s.pins := by
  simp only [State.sealBuf]
  split <;> simp

@[simp] theorem State.pins_putEntry (m : Msg) : (s.putEntry m).pins = s.pins := by
  simp [State.putEntry]

@[simp] theorem State.pins_sendMsg (m : Msg) : (s.sendMsg m).pins = s.pins := by
  simp only [State.sendMsg]
  split
  · split <;> simp
  · split
    · rfl
    · split <;> simp

theorem State.pins_takeBuf {s t : State} {die tenant req b : Nat} (h : s.takeBuf die tenant req = some (t, b)) :
    t.pins = s.pins := by
  unfold State.takeBuf at h
  split at h
  · cases h
  · cases h
    simp

theorem State.pins_newOut {s t : State} {r kind : Nat} (h : s.newOut r kind = some t) : t.pins = s.pins := by
  simp only [State.newOut, Option.ite_none_left_eq_some] at h
  obtain ⟨-, -, h⟩ := h
  cases hbuf : s.takeBuf 0 (s.req r).tenant r with
  | none => simp [hbuf] at h
  | some p =>
    obtain ⟨u, b⟩ := p
    simp only [hbuf, Option.some.injEq] at h
    rw [← h, ← State.pins_takeBuf hbuf]
    simp only [State.setReq_frame, State.setBuf_frame]
    split <;> simp

theorem State.pins_emitOne {s t : State} {r : Nat} (h : s.emitOne r = some t) : t.pins = s.pins := by
  simp only [State.emitOne] at h
  split at h
  · cases h
  · split at h
    · rw [← Option.some.inj h]
      simp only [State.setReq_frame]
    · split at h
      · exact State.pins_newOut h
      · split at h
        · rw [State.pins_newOut h, State.pins_sealBuf]
        · rw [← Option.some.inj h, State.pins_sendMsg]
          simp only [State.setReq_frame]
          split <;> simp

@[simp] theorem pins_flushOut (n : Nat) (r : Nat) : (flushOut n s r).pins = s.pins := by
  induction n generalizing s with
  | zero => rfl
  | succ n ih =>
    rw [flushOut]
    split
    next u hu => rw [ih, State.pins_emitOne hu]
    · dsimp only
      split
      · simp
      · simp only [State.setReq_frame]
        split <;> simp

@[simp] theorem State.pins_emit (r kind sz : Nat) (bs : List Byte) (fin : Bool) : (s.emit r kind sz bs fin).pins = s.pins := by
  simp [State.emit]

@[simp] theorem State.pins_sealAll (r : Nat) : (s.sealAll r).pins = s.pins := by
  refine applyAll_frame State.pins (fun t e => ?_) _ _
  rw [State.endKind]
  split <;> simp

/-! ## Requests and sequences that end (R265 to R271, R295, R298) -/

@[simp] theorem State.pins_idRec (t id : Nat) (f : IdRec → IdRec) : (s.idRec t id f).pins = s.pins := by
  simp only [State.idRec]
  split <;> simp

@[simp] theorem State.pins_unbind (r : Nat) : (s.unbind r).pins = s.pins := by
  have hsub {β : Type} (k : β → Nat) (s : State) (xs : List β) :
      (applyAll (fun (t : State) x => t.subO (k x) 1) s xs).pins = s.pins :=
    applyAll_frame State.pins (fun t x => by simp) s xs
  simp only [State.unbind, hsub]
  cases (s.req r).gram <;> cases (s.req r).tmpl <;> simp [hsub]

@[simp] theorem State.pins_freeSeq (q : Nat) : (s.freeSeq q).pins = s.pins := by
  have hpages (xs : List (Nat × Nat)) : (applyAll (fun (t : State) (e : Nat × Nat) =>
      if bitAt (t.page (kvPageOf e.2)).pub (e.2 % 8) then t else t.kvFree e.2) s xs).pins = s.pins := by
    refine applyAll_frame State.pins (fun t e => ?_) s xs
    split <;> simp
  simp only [State.freeSeq, State.subO_frame]
  refine (applyAll_frame State.pins (fun t p => ?_) _ _).trans ?_
  · split <;> rfl
  · split <;> simp [hpages]

@[simp] theorem State.pins_release (r : Nat) : (s.release r).pins = s.pins := by
  have hbufs (s : State) (xs : List Nat) : (applyAll State.freeBuf s xs).pins = s.pins :=
    applyAll_frame State.pins (fun t b => t.pins_freeBuf b) s xs
  have hpages (s : State) (xs : List (Nat × Nat)) : (applyAll (fun (t : State) (e : Nat × Nat) => t.kvFree e.2) s xs).pins = s.pins :=
    applyAll_frame State.pins (fun t e => t.pins_kvFree e.2) s xs
  simp only [State.release]
  split
  · simp [hbufs, hpages]
  · simp only [State.subO_frame, State.pins_unbind]
    split <;> simp [hbufs, hpages]

@[simp] theorem State.pins_complete (r code retry detail : Nat) (deliver : Bool) :
    (s.complete r code retry detail deliver).pins = s.pins := by
  simp only [State.complete]
  split
  · rfl
  · simp [apply_ite State.pins]

@[simp] theorem State.pins_emitOutcomes (r : Nat) (ending : Bool) : (s.emitOutcomes r ending).pins = s.pins := by
  simp only [State.emitOutcomes]
  split <;> simp

@[simp] theorem State.pins_touchPage (p i : Nat) : (s.touchPage p i).pins = s.pins := by
  simp only [State.touchPage]
  split
  · rfl
  · split <;> simp

@[simp] theorem State.pins_touchGran (g : Nat) : (s.touchGran g).pins = s.pins := by
  simp only [State.touchGran]
  split <;> simp

@[simp] theorem State.pins_readSlot (kind obj off n : Nat) : (s.readSlot kind obj off n).pins = s.pins := by
  refine applyAll_frame State.pins (fun t i => ?_) _ _
  split
  · dsimp only
    split <;> simp
  · rfl

@[simp] theorem State.pins_streamCommit (q : Nat) : (s.streamCommit q).pins = s.pins := by
  have hread (v gen n : Nat) (off : Nat → Nat) (xs : List Nat) :
      (applyAll (fun (u : State) t => u.readSlot 3 (slotObj v gen) (off t) n) s xs).pins = s.pins :=
    applyAll_frame State.pins (fun u t => u.pins_readSlot _ _ _ _) s xs
  simp only [State.streamCommit]
  split
  · rfl
  · cases (s.vslot (tGet {} s.seqs q : Seq).vocab).cur <;> simp [apply_ite State.pins, hread]

@[simp] theorem State.pins_streamAll (q : Nat) : (s.streamAll q).pins = s.pins := by
  have hcommits (xs : List (Nat × Nat × Nat)) : (applyAll (fun (t : State) _ => t.streamCommit q) s xs).pins = s.pins :=
    applyAll_frame State.pins (fun t _ => t.pins_streamCommit q) s xs
  simp only [State.streamAll]
  split <;> simp [hcommits]

@[simp] theorem State.pins_endReq (r code : Nat) : (s.endReq r code).pins = s.pins := by
  simp only [State.endReq]
  split
  · rfl
  · rw [State.pins_complete]
    split <;> split <;> simp

/-! ## Steps that are abandoned (R141, R225, R230, R284) -/

@[simp] theorem State.pins_putStack (p o : Nat) (bs : List Byte) : (s.putStack p o bs).pins = s.pins :=
  applyAll_frame (fun x : State × Nat => x.1.pins) (fun x b => by simp only [State.setStackB_frame]) (s, o) bs

@[simp] theorem State.pins_putKv (k o : Nat) (bs : List Byte) : (s.putKv k o bs).pins = s.pins := State.pins_putStack s _ _ _

@[simp] theorem State.pins_kvKeyVectors (k lane : Nat) (x : PlanX) (valid : Nat) :
    (s.kvKeyVectors k lane x valid).pins = s.pins := by
  refine (applyAll_frame (fun p : State × Nat => p.1.pins) (fun p g => ?_) _ _).trans ?_ <;> simp

@[simp] theorem State.pins_setKvValid (k : Nat) (x : PlanX) (valid : Nat) : (s.setKvValid k x valid).pins = s.pins := by
  simp only [State.setKvValid]
  split
  · rfl
  · exact (applyAll_frame State.pins (fun t l => t.pins_kvKeyVectors k l x valid) _ _).trans (s.pins_putKv _ _ _)

@[simp] theorem State.pins_truncate (q side : Nat) : (s.truncate q side).pins = s.pins := by
  refine applyAll_frame State.pins (fun t e => ?_) _ _
  split <;> simp

@[simp] theorem State.pins_setSeq (q : Nat) (y : Seq) : (s.setSeq q y).pins = s.pins := rfl

@[simp] theorem State.pins_bumpEpoch (n : Nat) : (s.bumpEpoch n).pins = s.pins := rfl

@[simp] theorem State.pins_discardRows (t : Step) : (s.discardRows t).pins = s.pins := by
  refine applyAll_frame State.pins (fun u r => ?_) _ _
  split
  · dsimp only
    split <;> simp
  · rfl

@[simp] theorem State.pins_chargeCourse (t : Step) (cycles : Nat) : (s.chargeCourse t cycles).pins = s.pins := by
  refine applyAll_frame State.pins (fun u r => ?_) _ _
  split <;> simp

@[simp] theorem State.pins_sendFlit (l kind stake epoch : Nat) : (s.sendFlit l kind stake epoch).pins = s.pins := by
  simp only [State.sendFlit]
  split
  · rfl
  · simp [apply_ite State.pins]

@[simp] theorem State.pins_sendStart (n : Nat) : (s.sendStart n).pins = s.pins := by
  simp only [State.sendStart]
  split
  · exact applyAll_frame State.pins (fun t l => t.pins_sendFlit _ _ _ _) _ _
  · rfl

@[simp] theorem State.pins_nextOn (n : Nat) : (s.nextOn n).pins = s.pins := by
  simp only [State.nextOn]
  split <;> simp

@[simp] theorem State.pins_leaveStake (k : Nat) : (s.leaveStake k).pins = s.pins := by
  simp only [State.leaveStake]
  split
  · rfl
  · simp [apply_ite State.pins]

/-! ## What records keeps the pulse (R152, R602, R613) -/

@[simp] theorem State.faultPulse_writeRec (r : Rec) : (s.writeRec r).pins.faultPulse = s.pins.faultPulse := by
  simp only [State.writeRec]
  split <;> simp

@[simp] theorem State.faultPulse_record (kind part data : Nat) :
    (s.record kind part data).pins.faultPulse = s.pins.faultPulse := by
  simp only [State.record]
  split
  · simp
  · split <;> simp

@[simp] theorem State.faultPulse_faultRec (kind pk part outcome intr aff : Nat) (extra : List (Nat × Nat)) :
    (s.faultRec kind pk part outcome intr aff extra).pins.faultPulse = s.pins.faultPulse := State.faultPulse_record s _ _ _

theorem State.faultPulse_fault1 (kind pk part outcome intr aff : Nat) (extra : List (Nat × Nat)) :
    (s.fault1 kind pk part outcome intr aff extra).pins.faultPulse = true := by
  simp [State.fault1, State.pulseFault]

@[simp] theorem State.faultPulse_post (c n tag payload : Nat) : (s.post c n tag payload).pins.faultPulse = s.pins.faultPulse := by
  simp only [State.post]
  split <;> simp

@[simp] theorem State.faultPulse_postStatus (a : Nat) (b : Bundle) :
    (s.postStatus a b).pins.faultPulse = s.pins.faultPulse := by
  simp only [State.postStatus]
  split <;> simp

@[simp] theorem State.faultPulse_setPdState (p st : Nat) : (s.setPdState p st).pins.faultPulse = s.pins.faultPulse := by
  simp only [State.setPdState]
  split
  · refine (applyAll_frame (fun t : State => t.pins.faultPulse) (fun t c => ?_) _ _).trans ?_
    · split <;> simp
    · simp
  · simp

@[simp] theorem State.faultPulse_abandonArr (a r ep : Nat) : (s.abandonArr a r ep).pins.faultPulse = s.pins.faultPulse := by
  have hposts (s : State) (bs : List Bundle) :
      (applyAll (fun (t : State) b => t.postStatus a { b with status := stABANDONED }) s bs).pins.faultPulse = s.pins.faultPulse :=
    applyAll_frame (fun t : State => t.pins.faultPulse) (fun t b => t.faultPulse_postStatus _ _) s bs
  simp [State.abandonArr, State.dropDraws, hposts]

@[simp] theorem State.faultPulse_abandonOn (n : Nat) : (s.abandonOn n).pins.faultPulse = s.pins.faultPulse := by
  refine applyAll_frame (fun t : State => t.pins.faultPulse) (fun t a => ?_) _ _
  split <;> simp

@[simp] theorem State.faultPulse_abandonStep (k : Nat) (fault : Bool) :
    (s.abandonStep k fault).pins.faultPulse = s.pins.faultPulse := by
  have hflag (s : State) (rows : List Row) : (applyAll (fun (u : State) (r : Row) =>
      if u.hasReq r.req then u.setReq r.req { u.req r.req with replayed := true } else u) s rows).pins = s.pins := by
    refine applyAll_frame State.pins (fun u r => ?_) s rows
    split <;> simp
  have hend (s : State) (rows : List Row) : (applyAll (fun (u : State) (r : Row) => u.endReq r.req 0x0D) s rows).pins = s.pins :=
    applyAll_frame State.pins (fun u r => u.pins_endReq _ _) s rows
  simp only [State.abandonStep]
  split
  · rfl
  · simp [apply_ite State.pins, apply_ite Pins.faultPulse, hflag, hend]

/-! ## Stakes, arrays and domains that go down (R588, R593, R603) -/

@[simp] theorem State.faultPulse_degradeStake (n : Nat) (fault : Bool) :
    (s.degradeStake n fault).pins.faultPulse = s.pins.faultPulse := by
  simp only [State.degradeStake]
  split
  · rfl
  · exact applyAll_frame (fun t : State => t.pins.faultPulse) (fun t k => t.faultPulse_abandonStep k fault) _ _

@[simp] theorem State.faultPulse_degradeWhere (p : Nat → Stake → Bool) (fault : Bool) :
    (s.degradeWhere p fault).pins.faultPulse = s.pins.faultPulse := by
  refine applyAll_frame (fun t : State => t.pins.faultPulse) (fun t e => ?_) _ _
  split <;> simp

@[simp] theorem State.faultPulse_degradeFor (p : Nat) (counted : Bool) :
    (s.degradeFor p counted).pins.faultPulse = s.pins.faultPulse := s.faultPulse_degradeWhere _ _

@[simp] theorem State.faultPulse_arrayEcc (a : Nat) : (s.arrayEcc a).pins.faultPulse = s.pins.faultPulse := by
  have hretire (t : State) : (t.retireArray a 1).pins.faultPulse = t.pins.faultPulse := by
    simp only [State.retireArray]
    split <;> simp
  simp [State.arrayEcc, apply_ite State.pins, apply_ite Pins.faultPulse, hretire]

/-- An array's domain stands among the first 8 of its die's 21. -/
theorem pdArray_lt (a : Fin 32) : pdArray a.val < 84 ∧ pdArray a.val % 21 < 8 := by
  obtain ⟨a, ha⟩ := a
  simp only [pdArray]
  omega

/-- A reset of an array's domain takes that domain alone. -/
theorem State.faultPulse_resetNow (a : Fin 32) : (s.resetNow (pdArray a.val)).pins.faultPulse = s.pins.faultPulse := by
  obtain ⟨hlt, hmod⟩ := pdArray_lt a
  have hlost (t : State) : (t.partsLost (pdArray a.val)).pins = t.pins := by
    simp [State.partsLost, if_pos hlt, if_pos hmod, State.arrLost]
  have hown : s.resetNow (pdArray a.val) = s.toReset (pdArray a.val) := by
    rw [State.resetNow, if_neg (by omega), if_neg (by omega)]
  rw [hown, State.toReset]
  dsimp only
  split
  · simp [hlost]
  · split <;> simp

end

end Sys2Proof.Machine
end

section
/-!
PROOFS of the family 04_array_instructions.md: synchronization, completion, the abandon command, the wait limit and errors of an
array's own state (R134 to R141, R596).
-/
namespace Sys2Proof.Machine

/-! ## WAIT, SIGNAL and FENCE (R134, R136) -/

@[simp] theorem Arr.ctr_setCtr (x : Arr) (r c v : Nat) : (x.setCtr r c v).ctr r c = v := tGet_tSet_same _ _ _ _

@[simp] theorem Arr.compQ_issueDone (x : Arr) (q : QWord) : (x.issueDone q).compQ = x.compQ.drop 1 := rfl

@[simp] theorem Arr.ctr_issueDone (x : Arr) (q : QWord) (r c : Nat) : (x.issueDone q).ctr r c = x.ctr r c := rfl

/-- WAIT takes its VALUE from a counter that holds it. -/
theorem exec_wait {s : State} {a : Fin 32} {q : QWord} (hhead : s.headOf a.val 0x40 = some q)
    (hheld : bits q.word 107 92 ≤ (s.arr a.val).ctr q.res (bits q.word 111 108)) :
    exec (.wait a) s = .next (s.setArr a.val (((s.arr a.val).setCtr q.res (bits q.word 111 108)
      ((s.arr a.val).ctr q.res (bits q.word 111 108) - bits q.word 107 92)).issueDone q)) := by
  change execWait a s = _
  simp only [execWait, hhead, if_neg (Nat.not_lt.2 hheld)]

theorem wait_subtracts {s : State} {a : Fin 32} {q : QWord} (hhead : s.headOf a.val 0x40 = some q)
    (hheld : bits q.word 107 92 ≤ (s.arr a.val).ctr q.res (bits q.word 111 108)) :
    Runs (.wait a) s fun u =>
      (u.arr a.val).ctr q.res (bits q.word 111 108) = (s.arr a.val).ctr q.res (bits q.word 111 108) - bits q.word 107 92 ∧
        (u.arr a.val).compQ = (s.arr a.val).compQ.drop 1 ∧ u.od = s.od := by
  refine ⟨_, exec_wait hhead hheld, ?_⟩
  simp only [State.arr_setArr, if_true, Arr.ctr_issueDone, Arr.ctr_setCtr, Arr.compQ_issueDone, State.setArr_frame, and_true,
    true_and]
  rfl

/-- SIGNAL, once no earlier instruction it must follow is left, sends its increment. -/
theorem signal_sends {s : State} {a : Fin 32} {q : QWord} (hhead : s.headOf a.val 0x41 = some q)
    (hafter : bitAt q.word 86 = true → (s.arr a.val).issued = []) :
    Runs (.signal a) s fun u => (u.arr a.val).compQ = (s.arr a.val).compQ.drop 1 ∧
      ∃ i ∈ u.incrs, i.target = bits q.word 111 107 ∧ i.ctr = bits q.word 106 103 ∧ i.value = bits q.word 102 87 ∧
        i.epoch = q.epoch := by
  have hready : (bitAt q.word 86 && !(s.arr a.val).issued.isEmpty) = false := by
    cases hb : bitAt q.word 86 with
    | false => rfl
    | true => simp [hafter hb]
  refine ⟨_, rfl, ?_⟩
  simp only [hhead, hready, Bool.false_eq_true, if_false]
  refine ⟨?_, _, List.mem_append_right _ (List.mem_singleton.2 rfl), rfl, rfl, rfl, rfl⟩
  change ((s.setArr a.val ((s.arr a.val).issueDone q)).arr a.val).compQ = _
  rw [State.arr_setArr, if_pos rfl, Arr.compQ_issueDone]

/-- FENCE with nothing issued completes, and posts its payload when NOTIFY asks for it. -/
theorem exec_fence {s : State} {a : Fin 32} {q : QWord} (hhead : s.headOf a.val 0x42 = some q) (hnone : (s.arr a.val).issued = []) :
    exec (.fence a) s = .next (if bitAt q.word 111 then
        (s.setArr a.val ((s.arr a.val).issueDone q)).post (bits q.word 110 103) (bits q.word 102 100) 0x02
          (packFields [(16, q.epoch), (5, a.val), (2, q.res), (41, 0), (64, bits q.word 63 0)])
      else s.setArr a.val ((s.arr a.val).issueDone q)) := by
  change execFence a s = _
  simp only [execFence, hhead, hnone, List.isEmpty_nil, Bool.not_true, Bool.false_eq_true, if_false]

/-! ## INSTRUCTION_COMPLETE and increments (R119, R135, R136) -/

/-- An instruction that is no TKSUB and whose exported rows have arrived retires, and its DSIG increments a local counter. -/
theorem exec_instructionComplete {s : State} {a : Fin 32} {n : Nat} {i : Issued} (h : ReadyComplete s a.val n i) :
    exec (.instructionComplete a n) s = .next (match i.dsig with
      | some c => (s.setArr a.val ({ s.arr a.val with
          issued := (s.arr a.val).issued.take n ++ (s.arr a.val).issued.drop (n + 1) }.wordDone i.q.bundle)).increment a.val
            { target := a.val, res := i.q.res, ctr := c, value := 1, epoch := i.q.epoch }
      | none => s.setArr a.val ({ s.arr a.val with
          issued := (s.arr a.val).issued.take n ++ (s.arr a.val).issued.drop (n + 1) }.wordDone i.q.bundle)) := by
  obtain ⟨hi, hop, harrived⟩ := h
  change execInstructionComplete a n s = _
  simp only [execInstructionComplete, hi]
  refine congrArg Host.Outcome.next (if_neg ?_)
  simp only [Bool.or_eq_true, Bool.and_eq_true, beq_iff_eq, not_or, not_and, Bool.not_eq_true, and_imp]
  exact ⟨hop, harrived⟩

/-- No epoch is older than itself. -/
theorem epochOlder_self (e : Nat) : epochOlder e e = false := by
  simp [epochOlder]

/-- An increment without staged data adds to its counter up to 65 535, unless its epoch is stale. -/
theorem State.sync_increment {s : State} {t : Nat} {i : Incr} (hepoch : tGet none (s.arr t).actEp i.res = some i.epoch)
    (hdata : i.staged = none) :
    tGet 0 ((s.increment t i).arr t).sync (i.res * 16 + i.ctr) = min 65535 (tGet 0 (s.arr t).sync (i.res * 16 + i.ctr) + i.value) := by
  simp only [State.increment, hepoch, hdata, epochOlder_self, Bool.false_eq_true, if_false, State.arr_setArr, if_true,
    tGet_tSet_same]

@[simp] theorem State.incrs_increment (s : State) (t : Nat) (i : Incr) : (s.increment t i).incrs = s.incrs := by
  refine (apply_ite State.incrs _ _ _).trans ?_
  simp only [State.addO_frame, State.setArr_frame, ite_self]

/-- The n-th increment on its way leaves the way, to its counter or dropped at an array that is not ON. -/
theorem exec_syncIncrementArrival {s : State} {n : Nat} {i : Incr} (hi : s.incrs[n]? = some i) :
    exec (.syncIncrementArrival n) s = .next (if s.pdOn (pdArray i.target)
      then ({ s with incrs := s.incrs.take n ++ s.incrs.drop (n + 1) } : State).increment i.target i
      else ({ s with incrs := s.incrs.take n ++ s.incrs.drop (n + 1) } : State).addO Od.epochDrops 1) := by
  change execSyncIncrementArrival n s = _
  simp only [execSyncIncrementArrival, hi]
  rfl

theorem syncIncrementArrival_adds {s : State} {n : Nat} {i : Incr} (hi : s.incrs[n]? = some i)
    (hon : s.pdOn (pdArray i.target) = true) (hepoch : tGet none (s.arr i.target).actEp i.res = some i.epoch)
    (hdata : i.staged = none) :
    Runs (.syncIncrementArrival n) s fun u => u.incrs.length + 1 = s.incrs.length ∧
      tGet 0 (u.arr i.target).sync (i.res * 16 + i.ctr) =
        min 65535 (tGet 0 (s.arr i.target).sync (i.res * 16 + i.ctr) + i.value) := by
  obtain ⟨hlt, -⟩ := List.getElem?_eq_some_iff.1 hi
  refine ⟨_, exec_syncIncrementArrival hi, ?_⟩
  rw [if_pos hon]
  refine ⟨?_, State.sync_increment hepoch hdata⟩
  simp only [State.incrs_increment, List.length_append, List.length_take, List.length_drop]
  omega

theorem odWidth_epochDrops : odWidth Od.epochDrops = 64 := by decide +kernel

theorem syncIncrementArrival_drops {s : State} {n : Nat} {i : Incr} (hi : s.incrs[n]? = some i)
    (hoff : s.pdOn (pdArray i.target) = false) :
    Runs (.syncIncrementArrival n) s fun u => u.arrs = s.arrs ∧ u.o Od.epochDrops = (s.o Od.epochDrops + 1) % 2 ^ 64 := by
  refine ⟨_, exec_syncIncrementArrival hi, ?_⟩
  rw [if_neg (Bool.not_eq_true _ |>.mpr hoff)]
  refine ⟨by simp only [State.addO_frame], ?_⟩
  rw [State.o_addO, if_pos rfl, odWidth_epochDrops]
  rfl

/-! ## WAIT_LIMIT (R138) -/

/-- The head of a compute queue that has waited as long as it may, and whose word belongs to no step, ends its bundle. -/
theorem exec_waitLimit {s : State} {a : Fin 32} {beats : Nat} {q : QWord} {rest : List QWord} (hq : (s.arr a.val).compQ = q :: rest)
    (hlimit : s.o Od.arrayWaitLimit ≤ beats) (hmay : s.mayIssue a.val q = true)
    (hstep : ((s.endBundle a.val q.bundle stWAIT q.idx).faultRec 0x2B 0 a.val 0 0 1
      [(16, a.val), (16, q.res), (32, q.epoch)]).stepOfWord a.val q.res q.epoch = none) :
    exec (.waitLimit a beats) s = .next ((s.endBundle a.val q.bundle stWAIT q.idx).faultRec 0x2B 0 a.val 0 0 1
      [(16, a.val), (16, q.res), (32, q.epoch)]) := by
  change execWaitLimit a beats s = _
  simp only [execWaitLimit, hq, hmay, hstep, decide_eq_false (Nat.not_lt.2 hlimit), Bool.not_true, Bool.or_self,
    Bool.false_eq_true, if_false]

/-! ## ECC_FAULT (R596, R603) -/

/-- An error of an ON array's own state is a single fault, and neither the retirement nor the reset that follow ends its pulse. -/
theorem eccFault_pulses {s : State} {a : Fin 32} {mem : Fin 3} {key addr : Nat} (hon : s.pdState (pdArray a.val) = pdON) :
    Runs (.eccFault a mem key addr) s fun u => u.pins.faultPulse = true := by
  have hguard : s.pdOn (pdArray a.val) = true := beq_iff_eq.2 hon
  refine ⟨_, congrArg Host.Outcome.next (guardS_of hguard _ _), ?_⟩
  simp only [State.faultPulse_resetNow, State.faultPulse_arrayEcc, State.faultPulse_fault1]

/-- Settles O15: each command, once its conditions hold, answers one state, which its clause describes. -/
theorem syncAndEndsOfWords : Obligations.SyncAndEndsOfWords := by
  refine ⟨fun _ _ _ => wait_subtracts, fun _ _ _ => signal_sends, fun s a q hhead hnone hquiet => ?fence,
    fun s a q hhead hnone hpost => ?fencePost, fun s a n i h hdsig => ?complete, fun s a n i c h hdsig => ?completeDsig,
    fun _ _ _ => syncIncrementArrival_adds, fun _ _ _ => syncIncrementArrival_drops,
    fun s a r epoch hon => congrArg Host.Outcome.next (guardS_of hon _ _), fun _ _ _ _ _ => exec_waitLimit,
    fun _ _ _ _ _ => eccFault_pulses⟩
  case fence => rw [exec_fence hhead hnone, hquiet]; rfl
  case fencePost => rw [exec_fence hhead hnone, if_pos hpost]
  case complete => rw [exec_instructionComplete h, hdsig]
  case completeDsig => rw [exec_instructionComplete h, hdsig]

end Sys2Proof.Machine
end

section
/-!
PROOFS of the family 05_reed_cores_and_spine.md: mailboxes and keepers (R149 to R153).  A post to a full mailbox and a keeper's reset
each have one lemma that says what a mailbox reads afterwards; what they record changes no mailbox and no keeper.
-/
namespace Sys2Proof.Machine

/-! ## Mailboxes (R149 to R152) -/

theorem State.mbox_congr {s u : State} (h : u.mboxes = s.mboxes) (c n : Nat) : u.mbox c n = s.mbox c n := by
  rw [State.mbox, State.mbox, h]

theorem State.mbox_setMbox_ne (s : State) {c n d m : Nat} (x : Mbox) (h : d * 8 + m ≠ c * 8 + n) :
    (s.setMbox c n x).mbox d m = s.mbox d m := tGet_tSet_ne _ _ _ _ h

/-- A post to a full mailbox sets its OVERFLOW, counts the drop and records it; nothing is appended (R152). -/
theorem State.post_of_full {s : State} {c n : Nat} (tag payload : Nat) (h : 32 ≤ (s.mbox c n).entries.length) :
    s.post c n tag payload =
      ((s.setMbox c n { s.mbox c n with overrun := true }).addO Od.mailboxOverflowCount 1).faultRec 0x35 7 c 0 0 0
        [(16, c), (16, n)] :=
  if_neg (Nat.not_lt.2 h)

theorem State.mbox_post_of_full {s : State} {c n : Nat} (tag payload : Nat) (h : 32 ≤ (s.mbox c n).entries.length) (d m : Nat) :
    (s.post c n tag payload).mbox d m = (s.setMbox c n { s.mbox c n with overrun := true }).mbox d m := by
  rw [State.post_of_full tag payload h]
  exact State.mbox_congr (by simp only [State.faultRec_frame, State.addO_frame]) d m

theorem odWidth_mailboxOverflowCount : odWidth Od.mailboxOverflowCount = 32 := by decide +kernel

theorem State.overflowCount_post_of_full {s : State} {c n : Nat} (tag payload : Nat) (h : 32 ≤ (s.mbox c n).entries.length) :
    (s.post c n tag payload).o Od.mailboxOverflowCount = (s.o Od.mailboxOverflowCount + 1) % 2 ^ 32 := by
  rw [State.post_of_full tag payload h, State.o_faultRec _ _ _ _ _ _ _ _ (by decide), State.o_addO, if_pos rfl,
    odWidth_mailboxOverflowCount]
  simp only [State.setMbox_frame]

/-- A post changes mailboxes, objects and the record, and nothing the module works on. -/
theorem State.post_sameWork (s : State) (c n tag payload : Nat) : SameWork s (s.post c n tag payload) := by
  constructor <;> simp only [State.post_frame]

/-- Settles O51: the poster's state differs in the one mailbox, the count and the record. -/
theorem postToFullMailboxIsDropped : Obligations.PostToFullMailboxIsDropped := by
  intro s c n tag payload hfull
  have hmbox := State.mbox_post_of_full tag payload hfull
  refine ⟨?_, ?_, State.overflowCount_post_of_full tag payload hfull, s.post_sameWork c n tag payload, ?_, fun d m hne => ?_⟩
  · rw [hmbox, State.mbox_setMbox]
  · rw [hmbox, State.mbox_setMbox]
  · simp only [State.post_frame]
  · rw [hmbox, State.mbox_setMbox_ne s _ hne]

/-! ## Keepers (R153) -/

theorem State.keeper_congr {s u : State} (h : u.keepers = s.keepers) (k : Nat) : u.keeper k = s.keeper k := by
  rw [State.keeper, State.keeper, h]

/-- Reading a table from which the keys that meet a test are dropped. -/
theorem tGet_tDrop {α : Type} (d : α) (p : Nat → Bool) (t : Tbl α) (k : Nat) :
    tGet d (tDrop p t) k = if p k then d else tGet d t k := by
  induction t with
  | nil => simp [tDrop]
  | cons e t ih =>
    rw [tDrop] at ih ⊢
    rw [List.filter_cons, tGet_cons]
    by_cases hp : p e.1 = true
    · by_cases hk : e.1 = k
      · subst hk
        simp [hp, ih]
      · simp [hp, ih, hk]
    · by_cases hk : e.1 = k
      · subst hk
        simp [hp, tGet_cons]
      · simp [hp, ih, hk, tGet_cons]

/-- A broken lock changes objects, the dictionary's session and the record. -/
@[simp] theorem State.breakLock_frame (s : State) (cause : Nat) :
    (s.breakLock cause).keepers = s.keepers ∧ (s.breakLock cause).mboxes = s.mboxes := by
  simp only [State.breakLock, State.freeLock]
  split <;> simp

/-- A keeper's reset clears its own window and what it took over, and leaves the other keeper. -/
@[simp] theorem State.keeper_keeperReset (s : State) (k j : Nat) :
    (s.keeperReset k).keeper j = if j = k then {} else s.keeper j := by
  have hkeepers : (s.keeperReset k).keepers = (s.setKeeper k {}).keepers := by
    simp only [State.keeperReset, State.addO_frame]
    split <;> simp
  rw [State.keeper_congr hkeepers, State.keeper_setKeeper]

/-- A keeper's reset empties its own eight mailboxes and leaves all others. -/
theorem State.mboxes_keeperReset (s : State) (k : Nat) :
    (s.keeperReset k).mboxes = tDrop (fun m => m / 8 == 144 + k) s.mboxes := by
  simp only [State.keeperReset, State.addO_frame]
  split <;> simp

theorem keeperHeartbeat_writes {s : State} {k : Fin 2} {w : Nat} (hon : s.power.stbyOn = true) :
    Runs (.keeperHeartbeat k w) s fun u =>
      u.keeper (1 - k.val) = { window := w % 2 ^ 32, tookOver := false } ∧ u.keeper k.val = s.keeper k.val := by
  have hne : k.val ≠ 1 - k.val := by omega
  refine ⟨_, congrArg Host.Outcome.next (guardS_of hon _ _), ?_, ?_⟩
  · rw [State.keeper_setKeeper, if_pos rfl]
  · rw [State.keeper_setKeeper, if_neg hne]

theorem keeperHeartbeatMiss_takesOver {s : State} {k : Fin 2} (hon : s.power.stbyOn = true) :
    Runs (.keeperHeartbeatMiss k) s fun u =>
      (u.keeper k.val).tookOver = true ∧ (u.keeper (1 - k.val)).window = 0 ∧ u.pins.faultPulse = true := by
  have hne : 1 - k.val ≠ k.val := by omega
  have hkeeper (t : State) (ht : t.keepers = ((s.keeperReset (1 - k.val)).setKeeper k.val
      { (s.keeperReset (1 - k.val)).keeper k.val with tookOver := true }).keepers) :
      (t.keeper k.val).tookOver = true ∧ (t.keeper (1 - k.val)).window = 0 := by
    rw [State.keeper_congr ht, State.keeper_congr ht]
    simp [hne]
  refine ⟨_, congrArg Host.Outcome.next (guardS_of hon _ _), and_assoc.1 ⟨hkeeper _ (by simp), ?_⟩⟩
  rw [State.faultPulse_record]

/-- What the two resets record changes no keeper and no mailbox. -/
theorem keeperDualTimeout_resets {s : State} (hon : s.power.stbyOn = true) :
    Runs .keeperDualTimeout s fun u => u.keeper 0 = {} ∧ u.keeper 1 = {} ∧ ∀ n < 16, tGet {} u.mboxes (144 * 8 + n) = {} := by
  have hrec {τ : Type} (g : State → τ) (hg : ∀ (t : State) (kind part data : Nat), g (t.record kind part data) = g t) (t : State) :
      g (applyAll (fun s o => s.record 0x08 o (dataDown [(16, o), (8, 1)])) t [0, 1]) = g t :=
    applyAll_frame g (fun t o => hg t _ _ _) t _
  have hkeeper (k : Nat) (t : State) := State.keeper_congr (hrec State.keepers (by simp) t) k
  refine ⟨_, congrArg Host.Outcome.next (guardS_of hon _ _), by simp [hkeeper], by simp [hkeeper], fun n hn => ?_⟩
  · rw [hrec State.mboxes (by simp), State.mboxes_keeperReset, State.mboxes_keeperReset, tGet_tDrop, tGet_tDrop]
    have hkey : (144 * 8 + n) / 8 = 144 ∨ (144 * 8 + n) / 8 = 145 := by omega
    obtain h | h := hkey <;> simp [h]

end Sys2Proof.Machine
end

section
/-!
PROOFS of the family 05_reed_cores_and_spine.md: slot tables (R160 to R169).  What a step that is abandoned gives back, its requests and
their sequences included, leaves the slot tables alone; so a live table that fails idles its slots, whatever the courses held.
-/
namespace Sys2Proof.Machine

section
variable (s : State)

/-! ## Pages and buffers (R174, R188, R198, R478 to R480) -/

@[simp] theorem State.slots_putGran (g : Nat) (x : Gran) : (s.putGran g x).slots = s.slots := by
  simp [State.putGran]

@[simp] theorem State.slots_cancelMigr (g : Nat) : (s.cancelMigr g).slots = s.slots := State.slots_putGran s g {}

@[simp] theorem State.slots_untier (p : Nat) : (s.untier p).slots = s.slots := by
  have hcancel : (s.cancelMigrOf p).slots = s.slots := by
    refine applyAll_frame State.slots (fun t e => ?_) _ _
    simp [apply_ite State.slots]
  refine (applyAll_frame State.slots (fun t e => ?_) _ _).trans hcancel
  simp [apply_ite State.slots, State.dropGran]

@[simp] theorem State.slots_kvFree (k : Nat) : (s.kvFree k).slots = s.slots := by
  simp [State.kvFree, State.freePage, State.putPage, apply_ite State.slots]

@[simp] theorem State.slots_freeBuf (b : Nat) : (s.freeBuf b).slots = s.slots := by
  simp only [State.freeBuf]
  cases (s.buf b).slot <;> simp [apply_ite State.slots]

@[simp] theorem State.slots_sealBuf (b : Nat) : (s.sealBuf b).slots = s.slots := by
  simp [State.sealBuf, apply_ite State.slots]

/-! ## Messages and output (R471 to R474, R494 to R497) -/

@[simp] theorem State.slots_sendMsg (m : Msg) : (s.sendMsg m).slots = s.slots := by
  simp [State.sendMsg, State.putEntry, apply_ite State.slots]

theorem State.slots_newOut {s t : State} {r kind : Nat} (h : s.newOut r kind = some t) : t.slots = s.slots := by
  simp only [State.newOut, State.takeBuf, Option.ite_none_left_eq_some] at h
  obtain ⟨-, -, h⟩ := h
  cases hbuf : s.freeBufOf 0 with
  | none => simp [hbuf] at h
  | some b =>
    simp only [hbuf, Option.some.injEq] at h
    rw [← h]
    simp only [State.setReq_frame, State.setBuf_frame]
    split <;> simp

theorem State.slots_emitOne {s t : State} {r : Nat} (h : s.emitOne r = some t) : t.slots = s.slots := by
  simp only [State.emitOne] at h
  split at h
  · cases h
  · split at h
    · cases h
      rfl
    · split at h
      · exact State.slots_newOut h
      · split at h
        · rw [State.slots_newOut h, State.slots_sealBuf]
        · cases h
          simp [apply_ite State.slots]

@[simp] theorem slots_flushOut (n r : Nat) : (flushOut n s r).slots = s.slots := by
  induction n generalizing s with
  | zero => rfl
  | succ n ih =>
    rw [flushOut]
    split
    next t ht => rw [ih, State.slots_emitOne ht]
    next => simp [apply_ite State.slots]

@[simp] theorem State.slots_emit (r kind sz : Nat) (bs : List Byte) (fin : Bool) : (s.emit r kind sz bs fin).slots = s.slots := by
  simp [State.emit]

@[simp] theorem State.slots_sealAll (r : Nat) : (s.sealAll r).slots = s.slots := by
  refine applyAll_frame State.slots (fun t e => ?_) _ _
  rw [State.endKind]
  split <;> simp

/-! ## Requests and sequences that end (R265 to R271, R295, R298) -/

@[simp] theorem State.slots_idRec (t id : Nat) (f : IdRec → IdRec) : (s.idRec t id f).slots = s.slots := by
  simp [State.idRec, apply_ite State.slots]

@[simp] theorem State.slots_unbind (r : Nat) : (s.unbind r).slots = s.slots := by
  have hsub {β : Type} (k : β → Nat) (s : State) (xs : List β) :
      (applyAll (fun (t : State) x => t.subO (k x) 1) s xs).slots = s.slots :=
    applyAll_frame State.slots (fun t x => by simp) s xs
  simp only [State.unbind, hsub]
  cases (s.req r).gram <;> cases (s.req r).tmpl <;> simp [hsub]

@[simp] theorem State.slots_freeSeq (q : Nat) : (s.freeSeq q).slots = s.slots := by
  have hpages (t : State) (xs : List (Nat × Nat)) : (applyAll (fun (t : State) (e : Nat × Nat) =>
      if bitAt (t.page (kvPageOf e.2)).pub (e.2 % 8) then t else t.kvFree e.2) t xs).slots = t.slots :=
    applyAll_frame State.slots (fun t e => by simp [apply_ite State.slots]) t xs
  simp only [State.freeSeq, State.subO_frame]
  refine (applyAll_frame State.slots (fun t p => by simp [apply_ite State.slots]) _ _).trans ?_
  split <;> simp [hpages]

@[simp] theorem State.slots_release (r : Nat) : (s.release r).slots = s.slots := by
  have hbufs (t : State) (xs : List Nat) : (applyAll State.freeBuf t xs).slots = t.slots :=
    applyAll_frame State.slots (fun t b => t.slots_freeBuf b) t xs
  have hpages (t : State) (xs : List (Nat × Nat)) : (applyAll (fun (t : State) (e : Nat × Nat) => t.kvFree e.2) t xs).slots = t.slots :=
    applyAll_frame State.slots (fun t e => t.slots_kvFree e.2) t xs
  simp only [State.release]
  cases (s.req r).seqE <;> simp [apply_ite State.slots, hbufs, hpages]

@[simp] theorem State.slots_complete (r code retry detail : Nat) (deliver : Bool) :
    (s.complete r code retry detail deliver).slots = s.slots := by
  simp [State.complete, apply_ite State.slots]

@[simp] theorem State.slots_emitOutcomes (r : Nat) (ending : Bool) : (s.emitOutcomes r ending).slots = s.slots := by
  simp [State.emitOutcomes, apply_ite State.slots]

@[simp] theorem State.slots_readSlot (kind obj off n : Nat) : (s.readSlot kind obj off n).slots = s.slots := by
  have hpage (t : State) (p i : Nat) : (t.touchPage p i).slots = t.slots := by
    simp [State.touchPage, apply_ite State.slots]
  have hgran (t : State) (g : Nat) : (t.touchGran g).slots = t.slots := by
    simp [State.touchGran, apply_ite State.slots]
  refine applyAll_frame State.slots (fun t i => ?_) _ _
  split
  · dsimp only
    split <;> simp only [hpage, hgran]
  · rfl

@[simp] theorem State.slots_streamCommit (q : Nat) : (s.streamCommit q).slots = s.slots := by
  have hread (v gen n : Nat) (off : Nat → Nat) (t : State) (xs : List Nat) :
      (applyAll (fun (u : State) i => u.readSlot 3 (slotObj v gen) (off i) n) t xs).slots = t.slots :=
    applyAll_frame State.slots (fun u i => u.slots_readSlot _ _ _ _) t xs
  simp only [State.streamCommit]
  split
  · rfl
  · cases (s.vslot (tGet {} s.seqs q : Seq).vocab).cur <;> simp [apply_ite State.slots, hread]

@[simp] theorem State.slots_streamAll (q : Nat) : (s.streamAll q).slots = s.slots := by
  have hcommits (t : State) (xs : List (Nat × Nat × Nat)) : (applyAll (fun (t : State) _ => t.streamCommit q) t xs).slots = t.slots :=
    applyAll_frame State.slots (fun t _ => t.slots_streamCommit q) t xs
  simp [State.streamAll, apply_ite State.slots, hcommits]

@[simp] theorem State.slots_endReq (r code : Nat) : (s.endReq r code).slots = s.slots := by
  simp only [State.endReq]
  cases (s.req r).seqE <;> simp [apply_ite State.slots]

/-! ## What a step wrote for its rows (R229, R284) -/

@[simp] theorem State.slots_putStack (p o : Nat) (bs : List Byte) : (s.putStack p o bs).slots = s.slots :=
  applyAll_frame (fun x : State × Nat => x.1.slots) (fun x b => by simp only [State.setStackB_frame]) (s, o) bs

@[simp] theorem State.slots_setKvValid (k : Nat) (x : PlanX) (valid : Nat) : (s.setKvValid k x valid).slots = s.slots := by
  have hput (t : State) (k o : Nat) (bs : List Byte) : (t.putKv k o bs).slots = t.slots := t.slots_putStack _ _ _
  have hvectors (t : State) (l : Nat) : (t.kvKeyVectors k l x valid).slots = t.slots := by
    refine (applyAll_frame (fun p : State × Nat => p.1.slots) (fun p g => ?_) _ _).trans ?_ <;> simp only [hput]
  simp only [State.setKvValid]
  split
  · rfl
  · exact (applyAll_frame State.slots hvectors _ _).trans (hput s _ _ _)

@[simp] theorem State.slots_discardRows (t : Step) : (s.discardRows t).slots = s.slots := by
  have htruncate (u : State) (q side : Nat) : (u.truncate q side).slots = u.slots :=
    applyAll_frame State.slots (fun u e => by simp [apply_ite State.slots]) u _
  refine applyAll_frame State.slots (fun u r => ?_) _ _
  split
  · simp [apply_ite State.slots, htruncate]
  · rfl

/-! ## Steps that are abandoned (R141, R225, R230) -/

@[simp] theorem State.slots_chargeCourse (t : Step) (cycles : Nat) : (s.chargeCourse t cycles).slots = s.slots :=
  applyAll_frame State.slots (fun u r => by simp [apply_ite State.slots]) s _

@[simp] theorem State.slots_sendStart (n : Nat) : (s.sendStart n).slots = s.slots := by
  have hflit (t : State) (l kind stake epoch : Nat) : (t.sendFlit l kind stake epoch).slots = t.slots := by
    simp [State.sendFlit, apply_ite State.slots]
  simp only [State.sendStart]
  split
  · exact applyAll_frame State.slots (fun t l => hflit t _ _ _ _) _ _
  · rfl

@[simp] theorem State.slots_leaveStake (k : Nat) : (s.leaveStake k).slots = s.slots := by
  have hnext (t : State) (n : Nat) : (t.nextOn n).slots = t.slots := by
    simp only [State.nextOn]
    split <;> simp
  simp [State.leaveStake, apply_ite State.slots, hnext]

@[simp] theorem State.slots_abandonArr (a r ep : Nat) : (s.abandonArr a r ep).slots = s.slots := by
  have hposts (t : State) (bs : List Bundle) :
      (applyAll (fun (t : State) b => t.postStatus a { b with status := stABANDONED }) t bs).slots = t.slots :=
    applyAll_frame State.slots (fun t b => by simp [State.postStatus, apply_ite State.slots]) t bs
  simp [State.abandonArr, State.dropDraws, hposts]

@[simp] theorem State.slots_abandonOn (n : Nat) : (s.abandonOn n).slots = s.slots := by
  refine applyAll_frame State.slots (fun t a => ?_) _ _
  split <;> simp

/-- An abandoned step, and the requests it may end, leave the slot tables alone. -/
@[simp] theorem State.slots_abandonStep (k : Nat) (fault : Bool) : (s.abandonStep k fault).slots = s.slots := by
  have hbump (t : State) (n : Nat) : (t.bumpEpoch n).slots = t.slots := rfl
  have hflag (t : State) (rows : List Row) : (applyAll (fun (u : State) (r : Row) =>
      if u.hasReq r.req then u.setReq r.req { u.req r.req with replayed := true } else u) t rows).slots = t.slots :=
    applyAll_frame State.slots (fun u r => by simp [apply_ite State.slots]) t rows
  have hend (t : State) (rows : List Row) : (applyAll (fun (u : State) (r : Row) => u.endReq r.req 0x0D) t rows).slots = t.slots :=
    applyAll_frame State.slots (fun u r => u.slots_endReq _ _) t rows
  simp [State.abandonStep, apply_ite State.slots, hbump, hflag, hend]

end

/-! ## LIVE_TABLE_ERROR and LIVE_TABLE_RELOAD_DONE (R169) -/

/-- The table stands among the idled before the courses due in it are abandoned, and their abandon leaves it there. -/
theorem liveTableError_idles {s : State} {kind inst : Nat} {slot : Fin 256} (hserved : (kind * 65536 + inst) ∉ s.slots.idled) :
    Runs (.liveTableError kind inst slot) s fun u => (kind * 65536 + inst) ∈ u.slots.idled := by
  have hguard : ¬ s.slots.idled.contains (kind * 65536 + inst) = true := by simpa using hserved
  refine ⟨_, congrArg Host.Outcome.next (if_neg hguard), ?_⟩
  dsimp only
  rw [applyAll_frame State.slots]
  case hf =>
    intro t e
    split
    · exact t.slots_abandonStep _ _
    · rfl
  simp

theorem liveTableReloadDone_ends {s : State} {kind inst ns : Nat} (hidled : (kind * 65536 + inst) ∈ s.slots.idled) :
    Runs (.liveTableReloadDone kind inst ns) s fun u =>
      (kind * 65536 + inst) ∉ u.slots.idled ∧ u.slots.ledger = s.slots.ledger := by
  have hguard : ¬ (!s.slots.idled.contains (kind * 65536 + inst)) = true := by simpa using hidled
  refine ⟨_, congrArg Host.Outcome.next (if_neg hguard), ?_⟩
  simp

/-! ## SLOT_LEDGER_ERROR and SLOT_LEDGER_REBUILT (R169) -/

theorem odWidth_eccUncorrectable : odWidth Od.eccUncorrectable = 64 := by decide +kernel

theorem slotLedgerError_marks {s : State} {addr : Nat} (hgood : s.slots.ledgerBad = false) :
    Runs (.slotLedgerError addr) s fun u =>
      u.slots.ledgerBad = true ∧ u.o Od.eccUncorrectable = (s.o Od.eccUncorrectable + 1) % 2 ^ 64 ∧
        u.slots.live = s.slots.live := by
  have hguard : (!s.slots.ledgerBad) = true := by rw [hgood, Bool.not_false]
  refine ⟨_, congrArg Host.Outcome.next (guardS_of hguard _ _), by simp, ?_, by simp⟩
  rw [State.o_fault1 _ _ _ _ _ _ _ _ (by decide) (by decide) (by decide) (by decide), State.o_addO, if_pos rfl,
    odWidth_eccUncorrectable]
  rfl

/-- Settles O11: each command's branch is the one its conditions choose; the slot tables after it are those it wrote. -/
theorem keepersAndSlotTables : Obligations.KeepersAndSlotTables :=
  ⟨fun _ _ _ => keeperHeartbeat_writes, fun _ _ => keeperHeartbeatMiss_takesOver, fun _ => keeperDualTimeout_resets,
    fun _ _ _ _ => liveTableError_idles, fun _ _ _ _ => liveTableReloadDone_ends, fun _ _ => slotLedgerError_marks,
    fun _ hbad => ⟨_, congrArg Host.Outcome.next (guardS_of hbad _ _), rfl, rfl, rfl⟩⟩

end Sys2Proof.Machine
end

section
/-!
PROOFS of the family 06_memory_tiers.md: tier decisions, the halving of heat and migrations (R184 to R190).  A migration that ends
writes its piece over its wiped granule and then tags granule and page; where its bytes stand is one lemma about tables.
-/
namespace Sys2Proof.Machine

/-! ## The copy of a piece (R189) -/

/-- Block q of a table written over block g of another, byte by byte: blocks are 64 KiB, as pieces and granules are. -/
def copyBlock (g q : Nat) (t : Tbl Byte) (bytes : Tbl Byte) : Tbl Byte :=
  applyAll (fun (t : Tbl Byte) (e : Nat × Byte) => tSet 0 t (g * 2 ^ 16 + (e.1 - q * 2 ^ 16)) e.2) t bytes

/-- The listed bytes of block q take their places in block g; what is not listed and every other block keep what was there. -/
theorem tGet_copyBlock {g q n : Nat} {bytes : Tbl Byte} (hrise : risingFrom n bytes = true)
    (hblock : ∀ e ∈ bytes, e.1 / 2 ^ 16 = q) (t : Tbl Byte) (a : Nat) :
    tGet 0 (copyBlock g q t bytes) a =
      if a / 2 ^ 16 = g then tGet (tGet 0 t a) bytes (q * 2 ^ 16 + a % 2 ^ 16) else tGet 0 t a := by
  induction bytes generalizing n t with
  | nil => exact (ite_self _).symm
  | cons e bytes ih =>
    obtain ⟨k, v⟩ := e
    obtain ⟨-, hrest⟩ : n ≤ k ∧ risingFrom (k + 1) bytes = true := by
      simpa only [risingFrom, Bool.and_eq_true, decide_eq_true_eq] using hrise
    have hk : k / 2 ^ 16 = q := hblock (k, v) List.mem_cons_self
    refine (ih hrest (fun e he => hblock e (List.mem_cons_of_mem _ he)) _).trans ?_
    rw [tGet_cons, tGet_tSet]
    by_cases ha : a / 2 ^ 16 = g
    · rw [if_pos ha, if_pos ha]
      by_cases hhit : k = q * 2 ^ 16 + a % 2 ^ 16
      · have hplace : a = g * 2 ^ 16 + (k - q * 2 ^ 16) := by omega
        rw [if_pos hplace, if_pos hhit, tGet_of_lt_risingFrom v hrest (by omega)]
      · have hplace : a ≠ g * 2 ^ 16 + (k - q * 2 ^ 16) := by omega
        rw [if_neg hplace, if_neg hhit]
    · rw [if_neg ha, if_neg ha, if_neg (by omega)]

/-- Reading the block of a table that stands alone. -/
theorem tGet_filter_block {α : Type} (d : α) (q : Nat) (t : Tbl α) (k : Nat) :
    tGet d (t.filter fun e => e.1 / 2 ^ 16 == q) k = if k / 2 ^ 16 = q then tGet d t k else d := by
  have hdrop : (t.filter fun e => e.1 / 2 ^ 16 == q) = tDrop (fun j => j / 2 ^ 16 != q) t := by
    simp only [tDrop, bne, Bool.not_not]
  rw [hdrop, tGet_tDrop]
  by_cases h : k / 2 ^ 16 = q
  · rw [if_pos h, if_neg fun hne => bne_iff_ne.1 hne h]
  · rw [if_neg h, if_pos (bne_iff_ne.2 h)]

/-! ## MIGRATION_COMPLETE (R189, R190) -/

/-- The state after migration m of slice sl has ended as a copy, rest being the slice's later migrations. -/
def State.migrated (s : State) (sl : Nat) (m : Migr) (rest : List Migr) : State :=
  let t := ({ s with mem := { s.mem with
    near := copyBlock m.gran (m.page * 32 + m.piece) (s.wipeGran m.gran).mem.near
      (s.mem.stack.filter fun e => e.1 / 2 ^ 16 == m.page * 32 + m.piece)
    queues := tSet [] s.mem.queues sl rest } } : State)
  ((t.putGran m.gran { s.gran m.gran with state := gTIERED, heat := (s.page m.page).heat }).setPage m.page
    { s.page m.page with present := setBitTo (s.page m.page).present m.piece true }).addO Od.promotions 1

theorem exec_migrationComplete {s : State} {sl : Fin 32} {m : Migr} {rest : List Migr} (h : ReadyMigration s sl.val m rest) :
    exec (.migrationComplete sl) s = .next (s.migrated sl.val m rest) := by
  obtain ⟨hqueue, hstate, hmoves, hquota⟩ := h
  have hmigrates : ¬ ((s.gran m.gran).state != gMIGRATING) = true := fun hne => bne_iff_ne.1 hne hstate
  have hkept : ¬ (!(pieceMoves (s.page m.page) m.piece) ||
      decide (s.o (Od.nearQuota (s.gran m.gran).owner) < s.o (Od.nearUsed (s.gran m.gran).owner))) = true := by
    simp only [hmoves, Bool.not_true, Bool.false_or, decide_eq_true_eq, Nat.not_lt, hquota]
  have hbase : m.page * 2 ^ 21 + m.piece * 2 ^ 16 = (m.page * 32 + m.piece) * 2 ^ 16 := by omega
  change execMigrationComplete sl s = _
  simp only [execMigrationComplete, hqueue, hbase]
  exact congrArg Host.Outcome.next ((if_neg hmigrates).trans (if_neg hkept))

section
variable (s : State) (sl : Nat) (m : Migr) (rest : List Migr)

/-- The granule is TIERED with the page's heat. -/
theorem State.gran_migrated : ((s.migrated sl m rest).gran m.gran).state = gTIERED ∧
    ((s.migrated sl m rest).gran m.gran).heat = (s.page m.page).heat := by
  have hgran : (s.migrated sl m rest).gran m.gran = tGet {} (tSet {} s.mem.grans m.gran
    { s.gran m.gran with state := gTIERED, heat := (s.page m.page).heat }) m.gran := rfl
  rw [hgran, tGet_tSet_same]
  exact ⟨rfl, rfl⟩

theorem State.page_migrated : (s.migrated sl m rest).page m.page =
    { s.page m.page with present := setBitTo (s.page m.page).present m.piece true } :=
  tGet_tSet_same ({} : Page) s.mem.pages m.page _

/-- The granule reads as the piece, in canonical memory; every other byte of the near store reads as before. -/
theorem State.near_migrated (h : s.mem.wf = true) (a : Nat) : tGet 0 (s.migrated sl m rest).mem.near a =
    if a / 2 ^ 16 = m.gran then tGet 0 s.mem.stack ((m.page * 32 + m.piece) * 2 ^ 16 + a % 2 ^ 16) else tGet 0 s.mem.near a := by
  obtain ⟨-, hstack⟩ := (Mem.wf_iff _).1 h
  obtain ⟨hrise, -⟩ := (tWf_iff _ _).1 hstack
  have hwiped : tGet 0 (s.wipeGran m.gran).mem.near a = if a / 2 ^ 16 = m.gran then 0 else tGet 0 s.mem.near a := by
    simp only [State.wipeGran, tGet_tDrop, beq_iff_eq]
  refine (tGet_copyBlock (risingFrom_filter hrise) (fun e he => beq_iff_eq.1 (List.mem_filter.1 he).2) _ a).trans ?_
  rw [hwiped, tGet_filter_block]
  by_cases ha : a / 2 ^ 16 = m.gran
  · rw [if_pos ha, if_pos ha, if_pos ha, if_pos (by omega)]
  · rw [if_neg ha, if_neg ha, if_neg ha]

theorem State.migrated_frame : (s.migrated sl m rest).mem.stack = s.mem.stack ∧ (s.migrated sl m rest).arrs = s.arrs ∧
    (s.migrated sl m rest).reqs = s.reqs ∧ (s.migrated sl m rest).steps = s.steps := ⟨rfl, rfl, rfl, rfl⟩

end

/-- Settles O58: the command answers State.migrated, whose near store differs in the granule alone. -/
theorem migrationCopiesItsPiece : Obligations.MigrationCopiesItsPiece := by
  intro s sl m rest ⟨hqueue, hstate, hmoves, hquota, hwf, _⟩
  have hnear := s.near_migrated sl.val m rest hwf
  refine ⟨_, exec_migrationComplete ⟨hqueue, hstate, hmoves, hquota⟩, fun o ho => ?piece, fun a ha => ?elsewhere,
    s.migrated_frame sl.val m rest⟩
  case piece =>
    rw [hnear, if_pos (by omega)]
    exact congrArg (tGet 0 s.mem.stack) (by omega)
  case elsewhere => rw [hnear, if_neg ha]

/-- Settles O16: decision and halving are guarded by the beat alone; the end of a migration is State.migrated. -/
theorem tiersMovePieces : Obligations.TiersMovePieces := by
  refine ⟨fun s hbeat => ?decision, fun s hbeat => ?halving, fun s sl m rest h => ?migration⟩
  case decision => exact congrArg Host.Outcome.next (guardS_of (beq_iff_eq.2 hbeat) _ _)
  case halving => exact ⟨_, congrArg Host.Outcome.next (guardS_of (beq_iff_eq.2 hbeat) _ _), rfl, rfl, rfl⟩
  case migration =>
    obtain ⟨hstate, hheat⟩ := s.gran_migrated sl.val m rest
    exact ⟨_, exec_migrationComplete h, tGet_tSet_same _ _ _ _, hstate, hheat, congrArg Page.present (s.page_migrated sl.val m rest)⟩

end Sys2Proof.Machine
end

section
/-!
PROOFS of the family 06_memory_tiers.md: errors of granules, pages, pseudo-channels and stacks (R205, R206, R596, R605, R606).  What a
failure gives up on its way may be long; its granule's or page's entry is written last, and the single fault that ends it pulses FAULT_N.
-/
namespace Sys2Proof.Machine

/-! ## Granules (R205, R596) -/

theorem State.gran_congr {s t : State} (h : t.mem = s.mem) (g : Nat) : t.gran g = s.gran g := by
  rw [State.gran, State.gran, h]

theorem State.page_congr {s t : State} (h : t.mem.pages = s.mem.pages) (p : Nat) : t.page p = s.page p := by
  rw [State.page, State.page, h]

@[simp] theorem State.gran_putGran (s : State) (g k : Nat) (x : Gran) :
    (s.putGran g x).gran k = if k = g then x else s.gran k := by
  simp only [State.putGran, State.gran_setGran]
  simp only [State.gran, State.subO_frame, State.addO_frame]

@[simp] theorem State.page_putPage (s : State) (p k : Nat) (x : Page) :
    (s.putPage p x).page k = if k = p then x else s.page k := by
  simp only [State.putPage, State.page_setPage]
  simp only [State.page, State.subO_frame, State.addO_frame]

@[simp] theorem State.gran_wipeGran (s : State) (g k : Nat) : (s.wipeGran g).gran k = s.gran k := rfl

@[simp] theorem State.gran_retireGran (s : State) (g : Nat) : (s.retireGran g).gran g = { state := gRETIRED } := by
  rw [State.retireGran, State.gran_wipeGran, State.gran_putGran, if_pos rfl]

/-- A granule's tag is charged in NEAR_USED and NEAR_HOME of its owners and in NEAR_GRANULES_IN_SERVICE, no object of the faults. -/
theorem State.eccUncorrectable_putGran (s : State) (g : Nat) (x : Gran) :
    (s.putGran g x).o Od.eccUncorrectable = s.o Od.eccUncorrectable := by
  have hused (t : Nat) : Od.eccUncorrectable ≠ Od.nearUsed t := by
    unfold Od.eccUncorrectable Od.nearUsed
    omega
  have hhome (t : Nat) : Od.eccUncorrectable ≠ Od.nearHome t := by
    unfold Od.eccUncorrectable Od.nearHome
    omega
  have hserved : Od.eccUncorrectable ≠ Od.nearGranulesInService := by decide
  simp only [State.putGran, State.setGran_frame, State.o_subO, State.o_addO, if_neg hserved, if_neg (hhome _), if_neg (hused _)]

theorem State.eccUncorrectable_retireGran (s : State) (g : Nat) :
    (s.retireGran g).o Od.eccUncorrectable = s.o Od.eccUncorrectable := by
  simp only [State.retireGran, State.wipeGran_frame, State.eccUncorrectable_putGran]

/-- What an uncorrectable error does to granule g, whose tag was x, beside its count and its record. -/
def State.loseGran (s : State) (g : Nat) (x : Gran) : State :=
  if granHome x then s.rehome g x
  else if x.state == gMIGRATING then (s.cancelMigr g).retireGran g
  else if x.state == gTIERED then
    (s.setPage x.page { s.page x.page with present := setBitTo (s.page x.page).present x.piece false }).retireGran g
  else s.retireGran g

/-- A granule that is no home granule is retired, after its migration is given up or its page's PRESENT bit cleared. -/
theorem State.loseGran_retires (s : State) (g : Nat) {x : Gran} (h : granHome x = false) :
    ∃ t : State, s.loseGran g x = t.retireGran g ∧ t.o Od.eccUncorrectable = s.o Od.eccUncorrectable := by
  rw [State.loseGran, if_neg (Bool.not_eq_true _ |>.mpr h)]
  split
  · have hcharges : (s.cancelMigr g).od = (s.putGran g {}).od := by simp only [State.cancelMigr]
    exact ⟨s.cancelMigr g, rfl, (State.o_congr hcharges _).trans (s.eccUncorrectable_putGran g {})⟩
  · split
    · exact ⟨_, rfl, by simp only [State.setPage_frame]⟩
    · exact ⟨s, rfl, rfl⟩

/-- An error of a granule in service is counted, takes the granule and is a single fault. -/
theorem exec_granuleEccError {s : State} {g : Fin 16384} (off : Fin 65536) (tag : Bool) (h : (s.gran g.val).state ≠ gRETIRED) :
    ∃ aff data, exec (.granuleEccError g off tag) s = .next
      (((s.addO Od.eccUncorrectable 1).loseGran g.val (s.gran g.val)).fault1 0x22 1 g.val 1 0 aff data) :=
  ⟨_, _, congrArg Host.Outcome.next (guardS_of (bne_iff_ne.2 h) _ _)⟩

theorem granuleEccError_pulses {s : State} {g : Fin 16384} {off : Fin 65536} {tag : Bool} (h : (s.gran g.val).state ≠ gRETIRED) :
    Runs (.granuleEccError g off tag) s fun u => u.pins.faultPulse = true := by
  obtain ⟨aff, data, hexec⟩ := exec_granuleEccError off tag h
  exact ⟨_, hexec, State.faultPulse_fault1 _ _ _ _ _ _ _ _⟩

theorem granuleEccError_retires {s : State} {g : Fin 16384} {off : Fin 65536} {tag : Bool} (h : (s.gran g.val).state ≠ gRETIRED)
    (hhome : granHome (s.gran g.val) = false) :
    Runs (.granuleEccError g off tag) s fun u => (u.gran g.val).state = gRETIRED ∧ u.pins.faultPulse = true ∧
      u.o Od.eccUncorrectable = (s.o Od.eccUncorrectable + 1) % 2 ^ 64 := by
  obtain ⟨aff, data, hexec⟩ := exec_granuleEccError off tag h
  obtain ⟨t, ht, hcount⟩ := (s.addO Od.eccUncorrectable 1).loseGran_retires g.val hhome
  rw [ht] at hexec
  refine ⟨_, hexec, ?_, State.faultPulse_fault1 _ _ _ _ _ _ _ _, ?_⟩
  · rw [State.gran_congr (s := t.retireGran g.val) (by simp only [State.fault1_frame]), State.gran_retireGran]
  · rw [State.o_fault1 _ _ _ _ _ _ _ _ (by decide) (by decide) (by decide) (by decide), State.eccUncorrectable_retireGran, hcount,
      State.o_addO, if_pos rfl, odWidth_eccUncorrectable]

/-! ## Pages (R205, R608) -/

theorem State.pages_wipePage (s : State) (p : Nat) : (s.wipePage p).mem.pages = s.mem.pages := rfl

/-- The entry of a page that fails and is not firmware's is written after all that the page held is given up. -/
theorem State.pages_failPage {s : State} {p : Nat} (cls : Nat) (h : (s.page p).cls ≠ cFIRMWARE) :
    ∃ t : State, (s.failPage p cls).mem.pages = (t.putPage p { cls := cls }).mem.pages := by
  have hother : ¬ ((s.page p).cls == cFIRMWARE) = true := by simpa only [beq_iff_eq] using h
  simp only [State.failPage, if_neg hother]
  split
  · exact ⟨s, rfl⟩
  · split
    · exact ⟨_, State.pages_wipePage _ p⟩
    · exact ⟨_, State.pages_wipePage _ p⟩

theorem State.cls_failPage {s : State} {p : Nat} (cls : Nat) (h : (s.page p).cls ≠ cFIRMWARE) :
    ((s.failPage p cls).page p).cls = cls := by
  obtain ⟨t, ht⟩ := State.pages_failPage cls h
  rw [State.page_congr ht, State.page_putPage, if_pos rfl]

/-- What an uncorrectable error found on pseudo-channel pc does to page p, beside its count and its record; dirLost says that the index
directory lost both its copies. -/
def State.losePage (s : State) (p pc : Nat) (dirLost : Bool) : State :=
  let t := s.failPage p cRETIRED
  let t := { t with mem := { t.mem with
    pcErr := tMod [] t.mem.pcErr (p / 24576 * 64 + pc) fun l => ((p, t.beat) :: l).filter fun e => decide (t.beat < e.2 + 1024) } }
  let u := t.setIndex { t.index with dirLost := true }
  if dirLost then (if u.o Od.indexState == 3 then u.setO Od.indexState 4 else u) else t

theorem State.pages_losePage (s : State) (p pc : Nat) (dirLost : Bool) :
    (s.losePage p pc dirLost).mem.pages = (s.failPage p cRETIRED).mem.pages := by
  simp only [State.losePage, apply_ite State.mem, State.setO_frame, State.setIndex_frame, ite_self]

/-- An error of a page not yet retired is counted, takes the page and is a single fault. -/
theorem exec_stackPageEccError {s : State} {p : Fin 196608} (pc : Fin 64) (dir both index : Bool)
    (h : (s.page p.val).cls ≠ cRETIRED) :
    ∃ kind out aff data, exec (.stackPageEccError p pc dir both index) s = .next
      (((s.addO Od.eccUncorrectable 1).losePage p.val pc.val ((s.page p.val).cls == cFIRMWARE && both && index)).fault1
        kind 2 p.val out 0 aff data) := by
  have hexec : exec (.stackPageEccError p pc dir both index) s = execStackPageEccError p pc dir both index s := rfl
  simp only [hexec, execStackPageEccError, State.losePage, guardS_of (bne_iff_ne.2 h)]
  cases dir
  · simp only [Bool.false_eq_true, if_false]
    exact ⟨_, _, _, _, rfl⟩
  · simp only [if_true]
    exact ⟨_, _, _, _, rfl⟩

theorem stackPageEccError_pulses {s : State} {p : Fin 196608} {pc : Fin 64} {dir both index : Bool}
    (h : (s.page p.val).cls ≠ cRETIRED) :
    Runs (.stackPageEccError p pc dir both index) s fun u => u.pins.faultPulse = true := by
  obtain ⟨kind, out, aff, data, hexec⟩ := exec_stackPageEccError pc dir both index h
  exact ⟨_, hexec, State.faultPulse_fault1 _ _ _ _ _ _ _ _⟩

theorem stackPageEccError_retires {s : State} {p : Fin 196608} {pc : Fin 64} {dir both index : Bool}
    (h : (s.page p.val).cls ≠ cRETIRED) (hfw : (s.page p.val).cls ≠ cFIRMWARE) :
    Runs (.stackPageEccError p pc dir both index) s fun u => (u.page p.val).cls = cRETIRED ∧ u.pins.faultPulse = true := by
  obtain ⟨kind, out, aff, data, hexec⟩ := exec_stackPageEccError pc dir both index h
  refine ⟨_, hexec, ?_, State.faultPulse_fault1 _ _ _ _ _ _ _ _⟩
  rw [State.page_congr (s := (s.addO Od.eccUncorrectable 1).failPage p.val cRETIRED)
    (by simp only [State.fault1_frame, State.pages_losePage])]
  exact State.cls_failPage cRETIRED hfw

/-- The refetch of page p leaves the list of those to come. -/
def State.endRefetch (s : State) (p : Nat) : State :=
  { s with mem := { s.mem with refetch := s.mem.refetch.filter fun e => e.1 != p } }

theorem State.refetch_endRefetch (s : State) (p : Nat) : ∀ e ∈ (s.endRefetch p).mem.refetch, e.1 ≠ p :=
  fun _ he => bne_iff_ne.1 (List.mem_filter.1 he).2

/-- The bytes of a page whose object is gone are not kept. -/
theorem exec_pageRefetchComplete_unused {s : State} {p : Fin 196608} {x : Page} (bytes : List Byte)
    (hfind : s.mem.refetch.find? (fun e => e.1 == p.val) = some (p.val, x)) (hgone : s.stillUsed p.val x.use = false) :
    exec (.pageRefetchComplete p bytes) s = .next (s.endRefetch p.val) := by
  change execPageRefetchComplete p bytes s = _
  simp only [execPageRefetchComplete, hfind, hgone, Bool.not_false, if_true, State.endRefetch]

/-- The bytes of a page still used stand in the page found for them, and every map that named the old page names it. -/
theorem exec_pageRefetchComplete_used {s t : State} {p : Fin 196608} {x : Page} {q : Nat} (bytes : List Byte)
    (hfind : s.mem.refetch.find? (fun e => e.1 == p.val) = some (p.val, x)) (hused : s.stillUsed p.val x.use = true)
    (hagain : s.pageAgain (p.val / 49152) { x with heat := 0, touch := 0, present := 0 } = some (t, q)) :
    exec (.pageRefetchComplete p bytes) s =
      .next (((t.putStack q 0 (t.originOf x.use bytes)).renamePage p.val q).endRefetch p.val) := by
  change execPageRefetchComplete p bytes s = _
  simp only [execPageRefetchComplete, hfind, hused, hagain, Bool.not_true, Bool.false_eq_true, if_false, State.endRefetch]

/-! ## Pseudo-channels (R605) -/

/-- A pseudo-channel that is due leaves service as a single fault. -/
theorem pseudoChannelRetire_pulses {s : State} {h : Fin 8} {n : Fin 64} {trigger : Fin 3} (hdue : ChannelDue s h.val n.val trigger.val)
    (hin : bitAt (tGet 0 s.mem.pcOut h.val) n.val = false) (hup : h.val ∉ s.mem.stacksOut) :
    Runs (.pseudoChannelRetire h n trigger) s fun u => u.pins.faultPulse = true := by
  obtain ⟨hpages, hscrub⟩ := hdue
  have hserves : (!s.mem.stacksOut.contains h.val) = true := by simpa using hup
  have hexec : ∃ (t : State) (aff : Nat), exec (.pseudoChannelRetire h n trigger) s = .next
      (t.fault1 0x24 3 (64 * h.val + n.val) 1 0 aff [(8, trigger.val)]) := by
    refine ⟨_, _, congrArg Host.Outcome.next (guardS_of ?_ _ _)⟩
    rw [hin, hserves, Bool.not_false, Bool.and_true, Bool.and_true]
    split
    next htrigger => exact decide_eq_true (hpages htrigger)
    next htrigger => exact decide_eq_true (hscrub htrigger)
    next => rfl
  obtain ⟨t, aff, hexec⟩ := hexec
  exact ⟨_, hexec, State.faultPulse_fault1 _ _ _ _ _ _ _ _⟩

/-- Settles O17: each error has one lemma that names the single fault it ends in; a scrub pass is guarded by its stack alone. -/
theorem tierErrorsRetire : Obligations.TierErrorsRetire := by
  refine ⟨fun _ _ _ _ => granuleEccError_retires, fun _ _ _ _ => granuleEccError_pulses,
    fun _ _ _ _ _ _ => stackPageEccError_retires, fun s p pc dir both index hfw => stackPageEccError_pulses (by rw [hfw]; decide),
    fun s p bytes x hfind hgone => ?unused, fun s p bytes x t q hfind hused hagain => ?used,
    fun _ _ _ _ => pseudoChannelRetire_pulses, fun s h channels pages hup => congrArg Host.Outcome.next (guardS_of hup _ _),
    fun s h hin hon => ?stack⟩
  case unused => exact ⟨_, exec_pageRefetchComplete_unused bytes hfind hgone, State.refetch_endRefetch _ _⟩
  case used => exact ⟨_, exec_pageRefetchComplete_used bytes hfind hused hagain, State.refetch_endRefetch _ _⟩
  case stack =>
    have hguard : (!s.mem.stacksOut.contains h.val && s.power.mainOn) = true := by simp [hin, hon]
    refine ⟨_, congrArg Host.Outcome.next (guardS_of hguard _ _), ?_, State.faultPulse_fault1 _ _ _ _ _ _ _ _⟩
    simp [State.stackFails]

end Sys2Proof.Machine
end

section
/-!
PROOFS of the family 07_models_stakes_steps.md: the end of a course and what follows it (R228 to R233, R298, R355), and the peer links
with the flits they carry (R224, R228, R234, R504 to R509).  A flit that arrives is counted first, and acts on the state so counted.
-/
namespace Sys2Proof.Machine

/-! ## The streamed text of a dead end (R298, R299, R355) -/

/-- The last commit of a sequence that ended in a dead end of its grammar: GRAMMAR_DEAD_ENDS of the slot counts it, and the request
completes with GRAMMAR_DEAD_END. -/
theorem exec_detokenizeStream_deadEnd {s : State} {q : Fin 4096} {c : Nat × Nat × Nat} (hcommits : (s.seq q.val).commits = [c])
    (hreq : s.hasReq (s.seq q.val).req = true) (hseen : s.seenUpTo c.2.1 = true) (hended : (s.seq q.val).ended = true)
    (hdead : (s.seq q.val).dead = true) (hgrammar : (s.seq q.val).gEn = true) :
    exec (.detokenizeStream q) s = .next (((s.streamAll q.val).addO (Od.grammarDeadEnds (s.seq q.val).gSlot) 1).complete
      (s.seq q.val).req 0x0C 0 0 true).tidySteps := by
  change execDetokenizeStream q s = _
  simp [execDetokenizeStream, hcommits, hreq, hseen, hended, hdead, hgrammar]

/-- Sequence 0 of request 4, under the grammar of slot 0, has met a dead end and has one commit left to stream. -/
def deadEndState : State :=
  { reqs := [(4, { state := 2, seqE := some 0 })]
    seqs := [(0, { state := 1, req := 4, commits := [(1, 0, 1)], ended := true, dead := true, gEn := true })] }

/-- Refutes O21: its last clause leaves out the count of the dead end (R355). In deadEndState the command answers a state whose
GRAMMAR_DEAD_ENDS of slot 0 is 1, and the state that the clause names has 0 there. -/
theorem not_stepsRunAndCommit : ¬ Obligations.StepsRunAndCommit := by
  intro h
  obtain ⟨-, -, -, -, -, -, -, -, hdeadEnd⟩ := h
  have hclaim := hdeadEnd deadEndState 0 (1, 0, 1) rfl rfl rfl rfl rfl
  have hmodel := exec_detokenizeStream_deadEnd (s := deadEndState) (q := 0) (c := (1, 0, 1)) rfl rfl rfl rfl rfl rfl
  have hsame := Host.Outcome.next.inj (hmodel.symm.trans hclaim)
  exact absurd (congrArg (fun u : State => u.o (Od.grammarDeadEnds 0)) hsame) (by decide +kernel)

/-! ## Objects of a peer link -/

theorem odWidth_peer : ∀ l < 8, odWidth (Od.peerState l) = 8 ∧ odWidth (Od.peerLanes l) = 8 ∧ odWidth (Od.peerRemote l) = 16 ∧
    odWidth (Od.peerRetrains l) = 32 ∧ odWidth (Od.peerFlitsTx l) = 64 := by decide +kernel

theorem laneWidth_le {good : Nat} : laneWidth good ≤ 8 := by
  unfold laneWidth
  repeat' split
  all_goals omega

/-- Writing one object of a peer link leaves its others: the keys of two objects of link l differ as those of link 0 do. -/
theorem State.o_setO_peer (s : State) {i j l : Nat} (v : Nat) (h : i ≠ j) :
    (s.setO (j + 0x100 * l) v).o (i + 0x100 * l) = s.o (i + 0x100 * l) :=
  State.o_setO_ne s v fun he => h (Nat.add_right_cancel he)

theorem State.o_addO_peer (s : State) {i j l : Nat} (n : Nat) (h : i ≠ j) :
    (s.addO (j + 0x100 * l) n).o (i + 0x100 * l) = s.o (i + 0x100 * l) := s.o_setO_peer _ h

/-- An object takes a value that its width holds. -/
theorem State.o_setO_of_lt (s : State) {k v w : Nat} (hw : odWidth k = w) (hv : v < 2 ^ w) : (s.setO k v).o k = v := by
  rw [State.o_setO_same, hw, Nat.mod_eq_of_lt hv]

@[simp] theorem State.step_setStep_same (s : State) (k : Nat) (t : Step) : (s.setStep k t).step_ k = t := tGet_tIns_same _ _ _ _

@[simp] theorem State.peer_setPeer_same (s : State) (l : Nat) (x : Peer) : (s.setPeer l x).peer l = x := tGet_tSet_same _ _ _ _

/-! ## Flits that arrive (R505, R507) -/

theorem State.takeFlit_of_ready {s : State} {l kind h : Nat} (hf : ReadyFlit s l kind h) (f : State → State) :
    s.takeFlit l kind h f = f (s.addO (Od.peerFlitsRx l) 1) := if_pos hf

theorem State.inEpoch_of_ready {s : State} {l h : Nat} (he : ReadyEpoch s h) (reply : Bool) (f : State → State) :
    s.inEpoch l h reply f = f s := by
  obtain ⟨hused, hepoch⟩ := he
  simp only [State.inEpoch, hused, hepoch, beq_self_eq_true, Bool.and_true, if_true]

theorem State.inEpoch_of_stale {s : State} {l h : Nat} (he : ¬ ReadyEpoch s h) (f : State → State) :
    s.inEpoch l h false f = s.addO (Od.peerStale l) 1 := by
  have hstale : ¬ ((s.stake (fStake h)).used && (s.stake (fStake h)).epoch == fEpoch h) = true := by simpa using he
  simp only [State.inEpoch, if_neg hstale, Bool.false_eq_true, if_false]

section
variable {s : State} {l : Fin 8} {hdr : BitVec 128}

theorem exec_peerData {r : Nat} (payload : List Byte) (ref mag : BitVec 32) (sk : List (BitVec 32)) (reply : Bool)
    (hf : ReadyFlit s l.val 2 hdr.toNat) (he : ReadyEpoch s hdr.toNat)
    (hr : s.residentOf (fStake hdr.toNat) (fArray hdr.toNat) = some r) :
    exec (.peerData l hdr payload ref mag sk reply) s =
      .next (((s.addO (Od.peerFlitsRx l.val) 1).stageFlit (fArray hdr.toNat) r hdr.toNat payload ref mag sk).increment
        (fArray hdr.toNat) { target := fArray hdr.toNat, res := r, ctr := fCtr hdr.toNat, value := 1
                             epoch := fEpoch hdr.toNat % 65536 }) := by
  have he' : ReadyEpoch (s.addO (Od.peerFlitsRx l.val) 1) hdr.toNat := he
  have hr' : (s.addO (Od.peerFlitsRx l.val) 1).residentOf (fStake hdr.toNat) (fArray hdr.toNat) = some r := hr
  change execPeerData l hdr payload ref mag sk reply s = _
  simp only [execPeerData, State.takeFlit_of_ready hf, State.inEpoch_of_ready he', hr']

theorem exec_peerData_stale (payload : List Byte) (ref mag : BitVec 32) (sk : List (BitVec 32))
    (hf : ReadyFlit s l.val 2 hdr.toNat) (he : ¬ ReadyEpoch s hdr.toNat) :
    exec (.peerData l hdr payload ref mag sk false) s = .next ((s.addO (Od.peerFlitsRx l.val) 1).addO (Od.peerStale l.val) 1) := by
  have he' : ¬ ReadyEpoch (s.addO (Od.peerFlitsRx l.val) 1) hdr.toNat := he
  change execPeerData l hdr payload ref mag sk false s = _
  simp only [execPeerData, State.takeFlit_of_ready hf, State.inEpoch_of_stale he']

theorem exec_peerIncrement {r : Nat} (hf : ReadyFlit s l.val 3 hdr.toNat) (he : ReadyEpoch s hdr.toNat)
    (hr : s.residentOf (fStake hdr.toNat) (fArray hdr.toNat) = some r) :
    exec (.peerIncrement l hdr) s = .next ((s.addO (Od.peerFlitsRx l.val) 1).increment (fArray hdr.toNat)
      { target := fArray hdr.toNat, res := r, ctr := fCtr hdr.toNat, value := 1, epoch := fEpoch hdr.toNat % 65536 }) := by
  have he' : ReadyEpoch (s.addO (Od.peerFlitsRx l.val) 1) hdr.toNat := he
  have hr' : (s.addO (Od.peerFlitsRx l.val) 1).residentOf (fStake hdr.toNat) (fArray hdr.toNat) = some r := hr
  change execPeerIncrement l hdr s = _
  simp only [execPeerIncrement, State.takeFlit_of_ready hf, State.inEpoch_of_ready he', hr']

theorem exec_peerCourseEnd {k : Nat} (hf : ReadyFlit s l.val 4 hdr.toNat) (he : ReadyEpoch s hdr.toNat)
    (hk : (s.stake (fStake hdr.toNat)).step = some k) :
    exec (.peerCourseEnd l hdr) s = .next ((s.addO (Od.peerFlitsRx l.val) 1).setStep k
      { s.step_ k with done := l.val :: (s.step_ k).done.filter fun j => j != l.val }) := by
  have he' : ReadyEpoch (s.addO (Od.peerFlitsRx l.val) 1) hdr.toNat := he
  have hk' : ((s.addO (Od.peerFlitsRx l.val) 1).stake (fStake hdr.toNat)).step = some k := hk
  change execPeerCourseEnd l hdr s = _
  simp only [execPeerCourseEnd, State.takeFlit_of_ready hf, State.inEpoch_of_ready he', hk']
  rfl

/-- The epoch of a link-management flit is not compared (log entry 68, DEDUCED; R507 names every flit). -/
theorem exec_peerLinkControl (ack : Fin 65536) (hf : ReadyFlit s l.val 5 hdr.toNat) :
    exec (.peerLinkControl l hdr ack) s = .next ((s.addO (Od.peerFlitsRx l.val) 1).setPeer l.val { s.peer l.val with
      held := (s.peer l.val).held.filter fun g => decide ((bits g 127 112 + 65536 - ack.val) % 65536 < 32768) }) :=
  congrArg Host.Outcome.next (State.takeFlit_of_ready hf _)

end

/-! ## The start of a segment (R224, R507) -/

/-- The stake a flit names takes the flit's epoch. -/
def State.takeEpoch (s : State) (h : Nat) : State := s.setStake (fStake h) { s.stake (fStake h) with epoch := fEpoch h }

theorem State.epoch_takeEpoch (s : State) (h : Nat) : ((s.takeEpoch h).stake (fStake h)).epoch = fEpoch h := by
  rw [State.takeEpoch, State.stake_setStake, if_pos rfl]

/-- A free segment takes the flit's epoch and runs the step that the lead has started (R224). -/
def State.startSegment (s : State) (h start fold : Nat) : State :=
  let x := s.stake (fStake h)
  let s := s.takeEpoch h
  let t : Step := { model := x.model, state := spRUNNING, stake := fStake h, fold := fold, asm := s.beat, epoch := fEpoch h }
  let k := s.nextStep
  let s := { s.setStep k t with nextStep := k + 1 }
  s.setStake (fStake h)
    { s.stake (fStake h) with step := some k, beat := start, state := if x.state = skIDLE then skBUSY else x.state }

theorem State.stake_startSegment (s : State) (h start fold : Nat) :
    ((s.startSegment h start fold).stake (fStake h)).step = some s.nextStep ∧
      ((s.startSegment h start fold).stake (fStake h)).epoch = fEpoch h := by
  have hstake : (s.startSegment h start fold).stake (fStake h) = _ := tGet_tSet_same _ _ _ _
  rw [hstake]
  exact ⟨rfl, s.epoch_takeEpoch h⟩

theorem State.step_startSegment (s : State) (h start fold : Nat) :
    ((s.startSegment h start fold).step_ s.nextStep).state = spRUNNING ∧
      ((s.startSegment h start fold).step_ s.nextStep).fold = fold := by
  have hstep : (s.startSegment h start fold).step_ s.nextStep = _ := tGet_tIns_same _ _ _ _
  rw [hstep]
  exact ⟨rfl, rfl⟩

/-- Counting a flit leaves the beat, so a flit is as early after the count as before. -/
theorem State.beat_addO_peerFlitsRx (s : State) (l n : Nat) : (s.addO (Od.peerFlitsRx l) n).beat = s.beat := by
  have hkey : Od.beatCount ≠ Od.peerFlitsRx l := Nat.ne_of_lt (Nat.lt_add_right _ (by decide))
  rw [State.beat, State.o_addO, if_neg hkey, State.beat]

/-- A flit that comes before its start beat starts a free segment. -/
theorem exec_peerStepStart {s : State} {l : Fin 8} {hdr : BitVec 128} {start : Nat} (fold : Nat)
    (h : ReadyStart s l.val hdr.toNat start) :
    exec (.peerStepStart l hdr start fold) s = .next ((s.addO (Od.peerFlitsRx l.val) 1).startSegment hdr.toNat start fold) := by
  obtain ⟨hf, hused, hlead, hfree, hstop, hstart⟩ := h
  have hplaced : ¬ (!(s.stake (fStake hdr.toNat)).used || (s.stake (fStake hdr.toNat)).lead) = true := by simp [hused, hlead]
  have htime : ¬ (decide (start ≤ ((s.addO (Od.peerFlitsRx l.val) 1).takeEpoch hdr.toNat).beat) ||
      (s.stake (fStake hdr.toNat)).stopped) = true := by
    have hbeat : ((s.addO (Od.peerFlitsRx l.val) 1).takeEpoch hdr.toNat).beat = s.beat := s.beat_addO_peerFlitsRx l.val 1
    simp [hbeat, hstop, hstart]
  have hstep : ((s.addO (Od.peerFlitsRx l.val) 1).stake (fStake hdr.toNat)).step = none := hfree
  refine congrArg Host.Outcome.next ((State.takeFlit_of_ready hf _).trans ((if_neg hplaced).trans ?_))
  rw [hstep]
  exact if_neg htime

/-! ## Lanes, retraining and training (R508, R509, R597, R598) -/

theorem exec_peerLaneFault {s : State} {l : Fin 8} (bad good : Fin 9) (hup : s.o (Od.peerState l.val) = 2) :
    exec (.peerLaneFault l bad good) s = .next ((((s.addO (Od.peerLaneFaults l.val) bad.val).addO (Od.peerRetrains l.val) 1).setO
      (Od.peerLanes l.val) (laneWidth good.val)).setO (Od.peerState l.val) 3) :=
  congrArg Host.Outcome.next (guardS_of (beq_iff_eq.2 hup) _ _)

theorem peerLaneFault_retrains {s : State} {l : Fin 8} (bad good : Fin 9) (hup : s.o (Od.peerState l.val) = 2) :
    Runs (.peerLaneFault l bad good) s fun u => u.o (Od.peerState l.val) = 3 ∧ u.o (Od.peerLanes l.val) = laneWidth good.val ∧
      u.o (Od.peerRetrains l.val) = (s.o (Od.peerRetrains l.val) + 1) % 2 ^ 32 := by
  obtain ⟨hstate, hlanes, -, hretrains, -⟩ := odWidth_peer l.val l.isLt
  have hwidth := laneWidth_le (good := good.val)
  refine ⟨_, exec_peerLaneFault bad good hup, ?_, ?_, ?_⟩
  · exact State.o_setO_of_lt _ hstate (by decide)
  · rw [State.o_setO_peer _ _ (by decide)]
    exact State.o_setO_of_lt _ hlanes (by omega)
  · rw [State.o_setO_peer _ _ (by decide), State.o_setO_peer _ _ (by decide), State.o_addO, if_pos rfl,
      State.o_addO_peer _ _ (by decide), hretrains]

theorem exec_peerRetrainDone {s : State} {l : Fin 8} (lane : Fin 8) (ns : Nat) (hretrains : s.o (Od.peerState l.val) = 3)
    (hlanes : s.o (Od.peerLanes l.val) ≠ 0) :
    exec (.peerRetrainDone l lane ns) s = .next (((s.setO (Od.peerState l.val) 2).addO (Od.peerFlitsTx l.val)
      (s.peer l.val).held.length).fault1 0x27 11 l.val 0 ns 0 [(16, 0xFFFF), (16, lane.val), (16, 0xFFFF)]) :=
  congrArg Host.Outcome.next (guardS_of (by simp [hretrains, hlanes]) _ _)

/-- A single fault leaves a peer link's objects. -/
theorem State.o_fault1_peer (s : State) (kind pk part outcome intr aff : Nat) (extra : List (Nat × Nat)) {i l : Nat}
    (hi : i < 0x51F900) (hl : l < 8) : (s.fault1 kind pk part outcome intr aff extra).o (i + 0x100 * l) = s.o (i + 0x100 * l) := by
  have hne (k : Nat) (hk : 0x900000 ≤ k) : i + 0x100 * l ≠ k := by omega
  exact State.o_fault1 _ _ _ _ _ _ _ _ (hne _ (by decide)) (hne _ (by decide)) (hne _ (by decide)) (hne _ (by decide))

theorem peerRetrainDone_resends {s : State} {l : Fin 8} (lane : Fin 8) (ns : Nat) (hretrains : s.o (Od.peerState l.val) = 3)
    (hlanes : s.o (Od.peerLanes l.val) ≠ 0) :
    Runs (.peerRetrainDone l lane ns) s fun u => u.o (Od.peerState l.val) = 2 ∧
      u.o (Od.peerFlitsTx l.val) = (s.o (Od.peerFlitsTx l.val) + (s.peer l.val).held.length) % 2 ^ 64 := by
  obtain ⟨hstate, -, -, -, htx⟩ := odWidth_peer l.val l.isLt
  refine ⟨_, exec_peerRetrainDone lane ns hretrains hlanes, ?_, ?_⟩
  · rw [State.o_fault1_peer _ _ _ _ _ _ _ _ (by decide) l.isLt, State.o_addO_peer _ _ (by decide)]
    exact State.o_setO_of_lt _ hstate (by decide)
  · rw [State.o_fault1_peer _ _ _ _ _ _ _ _ (by decide) l.isLt, State.o_addO, if_pos rfl, State.o_setO_peer _ _ (by decide), htx]

theorem exec_peerLinkFail {s : State} {l : Fin 8} (htrains : s.o (Od.peerState l.val) = 1 ∨ s.o (Od.peerState l.val) = 3) :
    exec (.peerLinkFail l) s = .next (s.peerFails l.val (s.o (Od.peerEnable l.val) == 0)) :=
  congrArg Host.Outcome.next (guardS_of (by rcases htrains with h | h <;> simp [h]) _ _)

theorem exec_peerLinkTrained {s : State} {l : Fin 8} {good : Fin 9} (addr num : Fin 256) (hon : s.pdOn 97 = true)
    (hen : s.o (Od.peerEnable l.val) = 1) (hst : s.o (Od.peerState l.val) ≤ 1) (hgood : good.val ≠ 0) :
    exec (.peerLinkTrained l good addr num) s = .next (((s.setO (Od.peerState l.val) 2).setO (Od.peerLanes l.val)
      (laneWidth good.val)).setO (Od.peerRemote l.val) (256 * addr.val + num.val)) :=
  congrArg Host.Outcome.next (guardS_of (by simp [hon, hen, hst, hgood]) _ _)

theorem peerLinkTrained_up {s : State} {l : Fin 8} {good : Fin 9} (addr num : Fin 256) (hon : s.pdOn 97 = true)
    (hen : s.o (Od.peerEnable l.val) = 1) (hst : s.o (Od.peerState l.val) ≤ 1) (hgood : good.val ≠ 0) :
    Runs (.peerLinkTrained l good addr num) s fun u => u.o (Od.peerState l.val) = 2 ∧
      u.o (Od.peerLanes l.val) = laneWidth good.val ∧ u.o (Od.peerRemote l.val) = 256 * addr.val + num.val := by
  obtain ⟨hstate, hlanes, hremote, -, -⟩ := odWidth_peer l.val l.isLt
  have hwidth := laneWidth_le (good := good.val)
  refine ⟨_, exec_peerLinkTrained addr num hon hen hst hgood, ?_, ?_, ?_⟩
  · rw [State.o_setO_peer _ _ (by decide), State.o_setO_peer _ _ (by decide)]
    exact State.o_setO_of_lt _ hstate (by decide)
  · rw [State.o_setO_peer _ _ (by decide)]
    exact State.o_setO_of_lt _ hlanes (by omega)
  · exact State.o_setO_of_lt _ hremote (by omega)

/-- Settles O37: each command that a flit or a link brings has one equation, read off at the objects and records it writes. -/
theorem peerFlitsActAndLinksRetrain : Obligations.PeerFlitsActAndLinksRetrain := by
  refine ⟨fun s l hdr start fold h => ?start,
    fun _ _ _ payload ref mag sk reply _ hf he hr => exec_peerData payload ref mag sk reply hf he hr,
    fun _ _ _ payload ref mag sk => exec_peerData_stale payload ref mag sk, fun _ _ _ _ => exec_peerIncrement,
    fun s l hdr k hf he hk => ?course, fun s l hdr ack hf => ?ack,
    fun s l hup => congrArg Host.Outcome.next (guardS_of (beq_iff_eq.2 hup) _ _), fun _ _ => peerLaneFault_retrains,
    fun _ _ => peerRetrainDone_resends, fun _ _ => exec_peerLinkFail, fun _ _ _ => peerLinkTrained_up⟩
  case start =>
    obtain ⟨hstep, hepoch⟩ := (s.addO (Od.peerFlitsRx l.val) 1).stake_startSegment hdr.toNat start fold
    obtain ⟨hruns, hfold⟩ := (s.addO (Od.peerFlitsRx l.val) 1).step_startSegment hdr.toNat start fold
    exact ⟨_, exec_peerStepStart fold h, hstep, hepoch, hruns, hfold, rfl⟩
  case course =>
    refine ⟨_, exec_peerCourseEnd hf he hk, ?_, ?_, rfl⟩
    · rw [State.step_setStep_same]
      exact List.mem_cons_self
    · rw [State.step_setStep_same]
  case ack => exact ⟨_, exec_peerLinkControl ack hf, congrArg Peer.held (State.peer_setPeer_same _ _ _)⟩

end Sys2Proof.Machine
end

section
/-!
PROOFS of the family 08_admission_and_deadlines.md: the gate's decision, the expiries of held and of admitted requests (R252 to R271),
and CANCEL, FREE and FETCH as a port or a function brings them (R266 to R268, R476, R477, R481, R482).
-/
namespace Sys2Proof.Machine

/-! ## The gate's decision (R254, R258, R267) -/

/-- A granted request that passes every check is answered ACCEPTED and admitted. -/
theorem State.decide1_of_accepts {s t : State} {r : Nat} (h : Accepts s r t) : s.decide1 r = t.admits r := by
  obtain ⟨hentry, hbody, hchecks, hroom, hbound⟩ := h
  have hentered : ¬ ((s.boundReq (s.req r)).badEntry ||
      !s.bodyOk (s.boundReq (s.req r)).tenant (s.boundReq (s.req r)).body) = true := by simp [hentry, hbody]
  rw [State.decide1, if_neg hentered, State.admits, hbound]
  simp only [hchecks, hroom]

section
variable {s : State} {port : Fin 3} {r : Nat}

/-- The decision on a request without a CANCEL stands. -/
theorem exec_gateDecision_stands (hgrant : s.nextGrant port.val = some r)
    (hkept : (((s.grant port.val r).decide1 r).hasReq r && (((s.grant port.val r).decide1 r).req r).cancel.isSome) = false) :
    exec (.gateDecision port) s = .next ((s.grant port.val r).decide1 r) := by
  change execGateDecision port s = _
  simp only [execGateDecision, hgrant, hkept, Bool.false_eq_true, if_false]

/-- A request cancelled while it waited ends CANCELLED after its decision (log entry 48, DEDUCED: R267 and R476 have no such row). -/
theorem exec_gateDecision_cancelled (hgrant : s.nextGrant port.val = some r)
    (hreq : ((s.grant port.val r).decide1 r).hasReq r = true)
    (hcancel : (((s.grant port.val r).decide1 r).req r).cancel.isSome = true) :
    exec (.gateDecision port) s = .next (((s.grant port.val r).decide1 r).failReq r 2) := by
  change execGateDecision port s = _
  simp only [execGateDecision, hgrant, hreq, hcancel, Bool.and_self, if_true]

theorem exec_gateDecision_admits {t : State} (hgrant : s.nextGrant port.val = some r) (haccepts : Accepts (s.grant port.val r) r t)
    (hcancel : ((t.admits r).req r).cancel = none) : exec (.gateDecision port) s = .next (t.admits r) := by
  have hdecided := State.decide1_of_accepts haccepts
  rw [exec_gateDecision_stands hgrant (by rw [hdecided, hcancel, Option.isSome_none, Bool.and_false]), hdecided]

end

/-! ## The deferral limit and the deadline (R259, R265) -/

/-- A held request past DEFER_LIMIT, or whose projection no longer meets its deadline, is refused for overload. -/
theorem exec_deferLimitExpiry {s : State} {r : Nat} (hreq : s.hasReq r = true) (hheld : (s.req r).state = 1)
    (hover : (s.req r).heldAt + (s.boundReq (s.req r)).cls.deferLimit ≤ s.beat ∨ s.meets r (s.boundReq (s.req r)) false = false) :
    exec (.deferLimitExpiry r) s = .next (s.refuse r 2 0x04 s.heldRetry) := by
  refine congrArg Host.Outcome.next (guardS_of ?_ _ _)
  rcases hover with hlimit | hmeets
  · simp [hreq, hheld, hlimit]
  · simp [hreq, hheld, hmeets]

theorem exec_deadlineExpiry {s : State} {r : Nat} (hreq : s.hasReq r = true) (hadmitted : (s.req r).state = 2)
    (hfinal : (s.req r).final = none) (hdeadline : (s.req r).cls.e2e ≠ 0) (hpast : (s.req r).beat + (s.req r).cls.e2e ≤ s.beat) :
    exec (.deadlineExpiry r) s = .next (s.failReq r 0x0A) :=
  congrArg Host.Outcome.next (guardS_of (by simp [hreq, hadmitted, hfinal, hdeadline, hpast]) _ _)

/-- Settles O20: a decision turns on the checks and on a CANCEL met while waiting; each expiry is guarded by its conditions alone. -/
theorem gateAndDeadlines : Obligations.GateAndDeadlines :=
  ⟨fun _ _ _ => exec_gateDecision_stands, fun _ _ _ _ hgrant haccepts _ => exec_gateDecision_admits hgrant haccepts,
    fun _ _ _ => exec_gateDecision_cancelled, fun _ _ => exec_deferLimitExpiry, fun _ _ => exec_deadlineExpiry⟩

/-! ## Messages of a port and commands of a function (R460, R463, R492) -/

/-- A ready message leaves its port's queue and is processed. -/
theorem State.takeMsg_of_ready {s : State} {port typ : Nat} {d : Datagram} (h : ReadyMsg s port typ d)
    (f : State → Datagram → Nat → State) : s.takeMsg port typ f = f (s.rxPop port) d (mHead d.bytes) := by
  obtain ⟨hhead, htyp, hauthentic⟩ := h
  simp only [State.takeMsg, hhead, htyp, hauthentic, bne_self_eq_false, Bool.not_true, Bool.or_self, Bool.false_eq_true, if_false]

/-- The oldest command of function f, when it has the type, leaves the function's queue and is processed by g: what CANCEL, FREE and
FETCH from a function have in common. -/
def State.takeCmd (s : State) (f typ : Nat) (g : State → HostCmd → State) : State :=
  match (s.fn f).cmds with
  | [] => s
  | c :: rest => if c.typ != typ then s else g (s.setFn f { s.fn f with cmds := rest }) c

theorem State.takeCmd_of_ready {s : State} {f typ : Nat} {c : HostCmd} {rest : List HostCmd} (h : ReadyCmd s f typ c rest)
    (g : State → HostCmd → State) : s.takeCmd f typ g = g (s.setFn f { s.fn f with cmds := rest }) c := by
  obtain ⟨hcmds, htyp⟩ := h
  simp only [State.takeCmd, hcmds, htyp, bne_self_eq_false, Bool.false_eq_true, if_false]

section
variable (s : State) {port : Fin 3} (f : Fin 256) (list : List Byte)

theorem exec_cancel_port (hport : port.val < 2) :
    exec (.cancel port f) s = .next (s.takeMsg port.val 2 fun s d w =>
      s.ingress.doCancel (mTenant w) (mId w) s.ingress.beat (s.ingress.o Od.ingressSequence) (srcPath port.val d)) :=
  congrArg Host.Outcome.next (if_pos hport)

theorem exec_cancel_function :
    exec (.cancel 2 f) s = .next (s.takeCmd f.val 2 fun s c => s.doCancel f.val c.id c.beat c.seq { port := 2 }) := rfl

theorem exec_free_port (hport : port.val < 2) :
    exec (.free port f list) s = .next (s.takeMsg port.val 3 fun s d w =>
      s.doFree (mTenant w) (handlesOf (mPayload d.bytes)) (srcPath port.val d)) :=
  congrArg Host.Outcome.next (if_pos hport)

theorem exec_free_function :
    exec (.free 2 f list) s = .next (s.takeCmd f.val 3 fun s c =>
      s.doFree f.val (handlesOf (sliceB list 0 c.len)) { port := 2 }) := rfl

theorem exec_fetch_port (hport : port.val < 2) :
    exec (.fetch port f list) s = .next (s.takeMsg port.val 4 fun s d w =>
      s.doFetch (mTenant w) (mId w) (handlesOf (mPayload d.bytes)) (srcPath port.val d)) :=
  congrArg Host.Outcome.next (if_pos hport)

theorem exec_fetch_function :
    exec (.fetch 2 f list) s = .next (s.takeCmd f.val 4 fun s c =>
      s.doFetch f.val c.id (handlesOf (sliceB list 0 c.len)) { port := 2 }) := rfl

end

/-! ## What a CANCEL does (R266 to R268, R476) -/

/-- A CANCEL of a held or admitted request without a final commit marks it and ends it CANCELLED.  For an admitted one this is log
entry 48 (DEDUCED): R267 says at once only of the deferral queue. -/
theorem State.doCancel_ends {s : State} {t id r : Nat} {x : Req} (beat seq : Nat) (p : RetPath) (hlook : (s.idWin t).look id = 1)
    (hfind : (s.reqs.find? fun e => e.2.tenant == t && e.2.id == id) = some (r, x)) (hcancel : x.cancel = none)
    (hfinal : x.final = none) (hstate : x.state = 1 ∨ x.state = 2) :
    s.doCancel t id beat seq p = ((s.setReq r { x with cancel := some (beat, seq) }).endReq r 2).tidySteps := by
  have hended : ¬ (x.final.isSome || decide (x.state = 0)) = true := by rcases hstate with h | h <;> simp [hfinal, h]
  have hread : ¬ x.state = 3 := by omega
  simp only [State.doCancel, hlook, hfind, hcancel, Option.isSome_none, Bool.false_eq_true, if_false, if_neg hended, if_neg hread]

/-- A CANCEL of an identifier not accepted yet is held as a pre-cancel. -/
theorem State.doCancel_precancels {s : State} {t id : Nat} (beat seq : Nat) (p : RetPath) (hlook : (s.idWin t).look id = 0)
    (hnew : s.preCancelled t id = false) :
    s.doCancel t id beat seq p =
      { s with preCancels := s.preCancels ++ [{ tenant := t, id := id, beat := beat, seq := seq }] } := by
  simp only [State.doCancel, hlook, hnew, Bool.false_eq_true, if_false]

@[simp] theorem State.preCancelled_dropPre (s : State) (t id : Nat) : (s.dropPre t id).preCancelled t id = false := by
  simp only [State.preCancelled, State.dropPre, List.any_filter, Bool.not_and_self, List.any_eq_false, Bool.false_eq_true,
    not_false_eq_true, implies_true]

theorem preCancelExpiry_drops {s : State} {t : Fin 256} {id : Nat}
    (hdue : (s.preCancels.any fun p => p.tenant == t.val && p.id == id && decide (p.beat + s.o Od.reassemblyBeats ≤ s.beat)) = true) :
    Runs (.preCancelExpiry t id) s fun u => u.preCancelled t.val id = false ∧ u.reqs = s.reqs ∧ u.od = s.od :=
  ⟨s.dropPre t.val id, congrArg Host.Outcome.next (guardS_of hdue _ _), s.preCancelled_dropPre _ _, rfl, rfl⟩

/-! ## Buffers freed (R481, R482) -/

/-- A handle of a buffer RELEASED to the tenant passes each check of a FREE. -/
theorem freeOne_of_released {s : State} {t h : Nat} (n : FreeSum) (hrel : s.released t h = true) :
    freeOne t (s, n) h = (s.freeBuf (h % 65536), { n with freed := n.freed + 1 }) := by
  simp only [State.released, Bool.and_eq_true, beq_iff_eq] at hrel
  obtain ⟨⟨⟨hstate, howner⟩, htenant⟩, hgen⟩ := hrel
  simp [freeOne, hstate, howner, htenant, hgen]

theorem exec_outputRetainExpiry {s : State} {b : Fin 65536} (hstate : (s.buf b.val).state = 2)
    (hdue : (s.buf b.val).rel + s.o Od.outputRetainBeats ≤ s.beat) :
    exec (.outputRetainExpiry b) s = .next ((s.addO (Od.retainExpired (s.buf b.val).owner) 1).freeBuf b.val).pumpOutput :=
  congrArg Host.Outcome.next (guardS_of (by simp [hstate, hdue]) _ _)

/-- Settles O34: a message or a command that is ready is taken and acts; what a CANCEL, a handle of a FREE and the two expiries do
follows from the conditions they test. -/
theorem cancelFreeAndFetch : Obligations.CancelFreeAndFetch := by
  refine ⟨fun s port f d hport h => ?cancelPort, fun s f c rest h => ?cancelFunction,
    fun _ _ _ beat seq p _ _ => State.doCancel_ends beat seq p, fun _ _ _ beat seq p => State.doCancel_precancels beat seq p,
    fun _ _ _ => preCancelExpiry_drops, fun s port f list d hport h => ?freePort, fun s f list c rest h => ?freeFunction,
    fun _ _ _ n => freeOne_of_released n, fun s port f list d hport h => ?fetchPort, fun s f list c rest h => ?fetchFunction,
    fun _ _ => exec_outputRetainExpiry⟩
  case cancelPort => rw [exec_cancel_port s f hport, State.takeMsg_of_ready h]
  case cancelFunction => rw [exec_cancel_function s f, State.takeCmd_of_ready h]
  case freePort => rw [exec_free_port s f list hport, State.takeMsg_of_ready h]
  case freeFunction => rw [exec_free_function s f list, State.takeCmd_of_ready h]
  case fetchPort => rw [exec_fetch_port s f list hport, State.takeMsg_of_ready h]
  case fetchFunction => rw [exec_fetch_function s f list, State.takeCmd_of_ready h]

end Sys2Proof.Machine
end

section
/-!
PROOFS of the family 10_sampling_topk_random.md: dice jobs and mask frames (R310 to R312, R349, R351) and the keys of the random-bit
generators (R320 to R323).
-/
namespace Sys2Proof.Machine

/-! ## Dice units, job queues and sequences as stores -/

theorem State.die_congr {s t : State} (h : t.dice = s.dice) (u : Nat) : t.die_ u = s.die_ u := by
  rw [State.die_, h, State.die_]

@[simp] theorem State.die_setDice_same (s : State) (u : Nat) (x : Dice) : (s.setDice u x).die_ u = x := tGet_tSet_same _ _ _ _

@[simp] theorem State.die_addO (s : State) (k n u : Nat) : (s.addO k n).die_ u = s.die_ u := State.die_congr (by simp) u

theorem State.diceQ_congr {s t : State} (h : t.dice = s.dice) (a : Nat) : t.diceQ a = s.diceQ a := by
  rw [State.diceQ, State.die_congr h, State.diceQ]

@[simp] theorem State.diceQ_setDiceQ_same (s : State) (a : Nat) (q : List DiceJob) : (s.setDiceQ a q).diceQ a = q := by
  rw [State.diceQ, State.setDiceQ, State.die_setDice_same]
  exact tGet_tSet_same _ _ _ _

@[simp] theorem State.hasKey_setDiceQ (s : State) (a : Nat) (q : List DiceJob) :
    ((s.setDiceQ a q).die_ (a / 4)).hasKey = (s.die_ (a / 4)).hasKey := by
  rw [State.setDiceQ, State.die_setDice_same]

@[simp] theorem State.maskReady_setDiceQ (s : State) (a : Nat) (q : List DiceJob) (b y p ep : Nat) :
    (s.setDiceQ a q).maskReady b y p ep = s.maskReady b y p ep := rfl

@[simp] theorem State.seq_setSeq_same (s : State) (q : Nat) (y : Seq) : (s.setSeq q y).seq q = y := tGet_tIns_same _ _ _ _

/-- What no write of a near byte changes, the bytes a resident writes do not change. -/
theorem State.putRes_leaves {τ : Type} (g : State → τ) (hg : ∀ t sl o b, g (State.setNearB t sl o b) = g t) (s : State) (a : Nat)
    (r : Resident) (addr : Nat) (bs : List Byte) : g (s.putRes a r addr bs) = g s := by
  refine applyAll_frame (fun p : State × Nat => g p.1) (fun p b => ?_) (s, addr) bs
  dsimp only [State.putResB]
  split
  · exact hg _ _ _ _
  · rfl

@[simp] theorem State.dice_putRes (s : State) (a : Nat) (r : Resident) (addr : Nat) (bs : List Byte) :
    (s.putRes a r addr bs).dice = s.dice := State.putRes_leaves State.dice (fun _ _ _ _ => rfl) s a r addr bs

@[simp] theorem State.incrs_putRes (s : State) (a : Nat) (r : Resident) (addr : Nat) (bs : List Byte) :
    (s.putRes a r addr bs).incrs = s.incrs := State.putRes_leaves State.incrs (fun _ _ _ _ => rfl) s a r addr bs

/-! ## Dice jobs (R310 to R312, R351) -/

/-- Array a's queue after firmware has written jobs `ws` into it, as far as its 64 places go. -/
def State.queueJobs (s : State) (a : Nat) (ws : List Nat) : List DiceJob :=
  s.diceQ a ++ (ws.take (64 - (s.diceQ a).length)).map fun w => { word := w % 2 ^ 256 }

/-- What performing a job of word w on array a leaves beside its result: the frames of its positions are freed when it has a
grammar. -/
def State.afterDice (s : State) (a w : Nat) : State :=
  if (djGram w).isSome then
    applyAll (fun s p => s.maskUsed a (djSeq w) p (djEpoch w)) (s.performDice a w).1 (List.range (djPos w))
  else (s.performDice a w).1

/-- A job with its result word and what its commit brings. -/
def DiceJob.performedIn (j : DiceJob) (s : State) (a : Nat) : DiceJob :=
  { j with result := some (s.performDice a j.word).2.1, drawn := some (s.performDice a j.word).2.2 }

/-- A ready job is performed and stays at its place in the queue. -/
theorem exec_diceJob {s : State} {a : Fin 32} {ws : List Nat} {i : Nat} {j : DiceJob} (h : ReadyDice s a.val ws i j) :
    exec (.diceJob a ws) s = .next (((s.setDiceQ a.val (s.queueJobs a.val ws)).afterDice a.val j.word).setDiceQ a.val
      ((s.queueJobs a.val ws).set i (j.performedIn (s.setDiceQ a.val (s.queueJobs a.val ws)) a.val))) := by
  obtain ⟨hon, ⟨hi, hj⟩, hkey, hok, harr, hframes⟩ := h
  have hpassed : (!djOk (a.val / 4) j.word || djArray j.word != a.val) = false := by simp [hok, harr]
  have hready : ((djGram j.word).isSome &&
      !(List.range (djPos j.word)).all fun p => s.maskReady a.val (djSeq j.word) p (djEpoch j.word)) = false := by
    rcases hframes with hnone | hall
    · simp [hnone]
    · simp [hall]
  change execDiceJob a ws s = _
  simp only [execDiceJob, hon, ← hi, hj, State.hasKey_setDiceQ, hkey, hpassed, State.maskReady_setDiceQ, hready, Bool.not_true,
    Bool.false_eq_true, if_false]
  rfl

theorem diceJob_performs {s : State} {a : Fin 32} {ws : List Nat} {i : Nat} {j : DiceJob} (h : ReadyDice s a.val ws i j) :
    Runs (.diceJob a ws) s fun u => ∃ d, (u.diceQ a.val)[i]? = some d ∧ d.word = j.word ∧ d.result.isSome = true := by
  refine ⟨_, exec_diceJob h, j.performedIn (s.setDiceQ a.val (s.queueJobs a.val ws)) a.val, ?_, rfl, rfl⟩
  obtain ⟨-, ⟨-, hj⟩, -⟩ := h
  have hplace : i < (s.queueJobs a.val ws).length := (List.getElem?_eq_some_iff.1 hj).1
  rw [State.diceQ_setDiceQ_same, List.getElem?_set_self hplace]

/-- The first job of array a's queue, performed with result word v, leaves the queue `rest`: its result is written and its draws wait
for the commit of its sequence. -/
def State.handsDraws (s : State) (a : Nat) (j : DiceJob) (rest : List DiceJob) (v : Nat) : State :=
  let s := s.setDiceQ a rest
  let s := s.putRes a (s.res a (djRes j.word)) (djResult j.word) (leBytes 16 v)
  s.setSeq (djSeq j.word) { s.seq (djSeq j.word) with drawn := j.drawn }

theorem State.handsDraws_frame (s : State) (a : Nat) (j : DiceJob) (rest : List DiceJob) (v : Nat) :
    (s.handsDraws a j rest v).dice = (s.setDiceQ a rest).dice ∧ (s.handsDraws a j rest v).incrs = s.incrs := by
  simp only [State.handsDraws, State.setSeq_frame, State.dice_putRes, State.incrs_putRes, State.setDiceQ, State.setDice_frame,
    and_self]

/-- Increment i goes to its counter. -/
def State.sendIncr (s : State) (i : Incr) : State := { s with incrs := s.incrs ++ [i] }

@[simp] theorem State.diceQ_sendIncr (s : State) (i : Incr) (a : Nat) : (s.sendIncr i).diceQ a = s.diceQ a := rfl
@[simp] theorem State.seq_sendIncr (s : State) (i : Incr) (q : Nat) : (s.sendIncr i).seq q = s.seq q := rfl
@[simp] theorem State.length_incrs_sendIncr (s : State) (i : Incr) : (s.sendIncr i).incrs.length = s.incrs.length + 1 :=
  List.length_append

theorem exec_diceJobComplete {s : State} {a : Fin 32} {j : DiceJob} {rest : List DiceJob} {v : Nat}
    (hq : s.diceQ a.val = j :: rest) (hv : j.result = some v) :
    exec (.diceJobComplete a) s = .next (if djLast j.word then
      (s.handsDraws a.val j rest v).sendIncr { target := a.val, res := djRes j.word, ctr := 15, value := 1, epoch := djEpoch j.word }
      else s.handsDraws a.val j rest v) := by
  change execDiceJobComplete a s = _
  simp only [execDiceJobComplete, hq, hv]
  rfl

theorem diceJobComplete_hands {s : State} {a : Fin 32} {j : DiceJob} {rest : List DiceJob} {v : Nat}
    (hq : s.diceQ a.val = j :: rest) (hv : j.result = some v) :
    Runs (.diceJobComplete a) s fun u => u.diceQ a.val = rest ∧ (u.seq (djSeq j.word)).drawn = j.drawn ∧
      u.incrs.length = s.incrs.length + b2n (djLast j.word) := by
  obtain ⟨hdice, hincrs⟩ := s.handsDraws_frame a.val j rest v
  have hqueue : (s.handsDraws a.val j rest v).diceQ a.val = rest :=
    (State.diceQ_congr hdice _).trans (State.diceQ_setDiceQ_same _ _ _)
  have hdrawn : ((s.handsDraws a.val j rest v).seq (djSeq j.word)).drawn = j.drawn :=
    congrArg Seq.drawn (State.seq_setSeq_same _ _ _)
  refine ⟨_, exec_diceJobComplete hq hv, ?_⟩
  cases djLast j.word with
  | true =>
    simp only [if_true, State.diceQ_sendIncr, hqueue, State.seq_sendIncr, hdrawn, State.length_incrs_sendIncr, hincrs, b2n_true,
      and_self]
  | false => simp only [Bool.false_eq_true, if_false, hqueue, hdrawn, hincrs, b2n_false, Nat.add_zero, and_self]

/-! ## Mask frames (R349) -/

@[simp] theorem State.masks_readSlot (s : State) (kind obj off n : Nat) : (s.readSlot kind obj off n).masks = s.masks := by
  have hpage (t : State) (p i : Nat) : (t.touchPage p i).masks = t.masks := by simp [State.touchPage, apply_ite State.masks]
  have hgran (t : State) (g : Nat) : (t.touchGran g).masks = t.masks := by simp [State.touchGran, apply_ite State.masks]
  refine applyAll_frame State.masks (fun t i => ?_) _ _
  split
  · dsimp only
    split <;> simp only [hpage, hgran]
  · rfl

/-- The engine of array a fills the frame; what it reads of the grammar's image leaves the frames as they are. -/
theorem maskFrameComplete_fills {s : State} {a : Fin 32} {f : Mask}
    (hnext : ((s.masks.filter fun f => 4 * f.dice + f.eng == a.val).take 32).find? (fun f => !f.full) = some f)
    (hon : s.pdOn (pdSpine (a.val / 8)) = true) :
    Runs (.maskFrameComplete a) s fun u => u.masks = s.masks.map fun m => if m == f then { m with full := true } else m := by
  change ∃ u, execMaskFrameComplete a s = .next u ∧ _
  simp only [execMaskFrameComplete, hnext, hon, Bool.not_true, Bool.false_eq_true, if_false]
  refine ⟨_, rfl, ?_⟩
  have hreads (t : State) (obj n : Nat) (off : Nat → Nat) (ms : List Nat) :
      (applyAll (fun (t : State) m => t.readSlot 4 obj (off m) n) t ms).masks = t.masks :=
    applyAll_frame State.masks (fun t m => t.masks_readSlot _ _ _ _) t ms
  split
  · rfl
  · split
    · exact hreads _ _ _ _ _
    · exact (State.masks_readSlot _ _ _ _ _).trans (hreads _ _ _ _ _)

/-! ## Keys of the generators (R322, R323) -/

/-- Under the key that replaces the old one the epoch rises, every lane starts again, and no fresh key waits. -/
theorem State.die_rngKey (s : State) (u : Nat) : ∃ key, (s.rngKey u).die_ u =
    { s.die_ u with key := key, epoch := ((s.die_ u).epoch + 1) % 2 ^ 32, lanes := [], blocks := 0, ready := none } := by
  unfold State.rngKey
  dsimp only
  split <;> exact ⟨_, (State.die_addO _ _ _ _).trans (State.die_setDice_same _ _ _)⟩

theorem rngKeyReplace_advances {s : State} {u : Fin 8} (hkey : (s.die_ u.val).hasKey = true)
    (hblocks : 2 ^ 20 ≤ (s.die_ u.val).blocks) :
    Runs (.rngKeyReplace u) s fun t => (t.die_ u.val).epoch = ((s.die_ u.val).epoch + 1) % 2 ^ 32 ∧ (t.die_ u.val).blocks = 0 ∧
      (t.die_ u.val).lanes = [] ∧ (t.die_ u.val).ready = none := by
  have hdue : ((s.die_ u.val).hasKey && decide (2 ^ 20 ≤ (s.die_ u.val).blocks)) = true := by
    rw [hkey, decide_eq_true hblocks, Bool.and_self]
  obtain ⟨key, hdie⟩ := s.die_rngKey u.val
  exact ⟨s.rngKey u.val, congrArg Host.Outcome.next (guardS_of hdue _ _), congrArg Dice.epoch hdie, congrArg Dice.blocks hdie,
    congrArg Dice.lanes hdie, congrArg Dice.ready hdie⟩

section
variable {s : State} {u : Fin 8} {raw : Nat} (hon : s.pdOn (pdSpine (u.val / 2)) = true) (hsource : s.o (Od.rngSourceState u.val) ≠ 2)
include hon hsource

/-- Healthy bits give a key, which is the generator's at once when it has none and waits for the next replacement otherwise. -/
theorem exec_rngConditionedKey_healthy (hbits : healthy ((List.range 1536).map fun i => bitAt raw i) = true) :
    exec (.rngConditionedKey u raw) s = .next (
      if (s.die_ u.val).hasKey then (s.setO (Od.rngSourceState u.val) 1).setDice u.val
        { s.die_ u.val with ready := some (sha384 (leBytes 192 raw) / 2 ^ 128), fails := 0 }
      else ((s.setO (Od.rngSourceState u.val) 1).setDice u.val
        { s.die_ u.val with hasKey := true, key := sha384 (leBytes 192 raw) / 2 ^ 128, fails := 0 }).addO
          (Od.rngKeysFresh 0 u.val) 1) := by
  refine congrArg Host.Outcome.next ((guardS_of ?_ _ _).trans ?_)
  · simp [hon, hsource]
  · simp only [hbits, if_true]

/-- Unhealthy bits before the 64th failure in a row are counted. -/
theorem exec_rngConditionedKey_unhealthy (hbits : healthy ((List.range 1536).map fun i => bitAt raw i) = false)
    (hfails : (s.die_ u.val).fails < 63) :
    exec (.rngConditionedKey u raw) s = .next ((s.setDice u.val { s.die_ u.val with fails := (s.die_ u.val).fails + 1 }).addO
      (Od.rngHealthFails 0 u.val) 1) := by
  have hfew : (s.die_ u.val).fails + 1 < 64 := by omega
  refine congrArg Host.Outcome.next ((guardS_of ?_ _ _).trans ?_)
  · simp [hon, hsource]
  · simp only [hbits, hfew, Bool.false_eq_true, if_false, if_true]

theorem rngConditionedKey_first (hbits : healthy ((List.range 1536).map fun i => bitAt raw i) = true)
    (hkey : (s.die_ u.val).hasKey = false) :
    Runs (.rngConditionedKey u raw) s fun t =>
      (t.die_ u.val).hasKey = true ∧ (t.die_ u.val).key = sha384 (leBytes 192 raw) / 2 ^ 128 := by
  refine ⟨_, exec_rngConditionedKey_healthy hon hsource hbits, ?_⟩
  simp only [hkey, Bool.false_eq_true, if_false, State.die_addO, State.die_setDice_same, and_self]

theorem rngConditionedKey_waits (hbits : healthy ((List.range 1536).map fun i => bitAt raw i) = true)
    (hkey : (s.die_ u.val).hasKey = true) :
    Runs (.rngConditionedKey u raw) s fun t => (t.die_ u.val).key = (s.die_ u.val).key ∧
      (t.die_ u.val).ready = some (sha384 (leBytes 192 raw) / 2 ^ 128) := by
  refine ⟨_, exec_rngConditionedKey_healthy hon hsource hbits, ?_⟩
  simp only [hkey, if_true, State.die_setDice_same, and_self]

theorem rngConditionedKey_counts (hbits : healthy ((List.range 1536).map fun i => bitAt raw i) = false)
    (hfails : (s.die_ u.val).fails < 63) :
    Runs (.rngConditionedKey u raw) s fun t => (t.die_ u.val).fails = (s.die_ u.val).fails + 1 ∧
      (t.die_ u.val).hasKey = (s.die_ u.val).hasKey ∧ t.o (Od.rngSourceState u.val) = s.o (Od.rngSourceState u.val) := by
  refine ⟨_, exec_rngConditionedKey_unhealthy hon hsource hbits hfails, ?_⟩
  have hkeys : Od.rngSourceState u.val ≠ Od.rngHealthFails 0 u.val := fun h => absurd (Nat.add_right_cancel h) (by decide)
  simp only [State.die_addO, State.die_setDice_same, State.o_addO, if_neg hkeys, State.setDice_frame, and_self]

end

/-- Settles O23: a job, a frame or a key takes the branch its conditions choose; the bytes a job writes and the image a mask engine
reads leave queues, increments and frames alone. -/
theorem diceMasksAndKeys : Obligations.DiceMasksAndKeys :=
  ⟨fun _ _ _ _ _ => diceJob_performs, fun _ _ _ _ _ => diceJobComplete_hands, fun _ _ _ => maskFrameComplete_fills,
    fun _ _ => rngKeyReplace_advances, fun _ _ _ => rngConditionedKey_first, fun _ _ _ => rngConditionedKey_waits,
    fun _ _ _ => rngConditionedKey_counts⟩

end Sys2Proof.Machine
end

section
/-!
PROOFS of the family 11_tokenizer_and_grammar.md: the slots of vocabularies and grammars (R331, R333, R346, R347), certification (R353)
and tokenization jobs (R335 to R339).
-/
namespace Sys2Proof.Machine

/-! ## Objects written and reset one after another, and measurements -/

/-- What follows the write of an object and writes other objects leaves the value written. -/
theorem State.o_setAll_head (s : State) {k v w : Nat} {es : List (Nat × Nat)} (hw : odWidth k = w) (hv : v < 2 ^ w)
    (hes : ∀ e ∈ es, k ≠ e.1) : (applyAll (fun s (e : Nat × Nat) => s.setO e.1 e.2) s ((k, v) :: es)).o k = v := by
  change (applyAll (fun s (e : Nat × Nat) => s.setO e.1 e.2) (s.setO k v) es).o k = v
  have hwritten : (s.setO k v).o k = v := s.o_setO_of_lt hw hv
  generalize s.setO k v = t at hwritten ⊢
  induction es generalizing t with
  | nil => exact hwritten
  | cons e es ih =>
    obtain ⟨hhead, htail⟩ := List.forall_mem_cons.1 hes
    exact ih htail (t.setO e.1 e.2) ((t.o_setO_ne e.2 hhead).trans hwritten)

/-- Among objects put back to their Defaults each reads its Default, and every other what it read before. -/
theorem State.o_resetAll (s : State) (ks : List Nat) (k : Nat) :
    (applyAll State.resetO s ks).o k = if k ∈ ks then odDefault k else s.o k := by
  induction ks generalizing s with
  | nil => rfl
  | cons j ks ih =>
    change (applyAll State.resetO (s.resetO j) ks).o k = _
    rw [ih, State.o_resetO]
    by_cases hk : k = j
    · simp [hk]
    · simp [hk]

theorem State.o_withBoot (s : State) (b : Boot) (k : Nat) : ({ s with boot := b } : State).o k = s.o k := rfl

/-- A measurement writes its slot and MEASUREMENT_LOG_ENTRIES, and no other object. -/
theorem State.o_measure (s : State) (slot event digest object info : Nat) {k : Nat} (hslot : k ≠ Od.measurement slot)
    (hlog : k ≠ Od.measurementLogEntries) : (s.measure slot event digest object info).o k = s.o k := by
  unfold State.measure
  rw [State.o_setO_ne _ _ hlog, State.o_withBoot, State.o_setO_ne _ _ hslot]

@[simp] theorem State.vocabs_measure (s : State) (slot event digest object info : Nat) :
    (s.measure slot event digest object info).vocabs = s.vocabs := by
  simp only [State.measure, State.setO_frame]

@[simp] theorem State.grammars_measure (s : State) (slot event digest object info : Nat) :
    (s.measure slot event digest object info).grammars = s.grammars := by
  simp only [State.measure, State.setO_frame]

/-- Every VOCAB_STATE and every GRAMMAR_SLOT_STATE is a byte with the Default EMPTY. -/
theorem odWidth_odDefault_vocabState : ∀ v < 16, odWidth (Od.vocabState v) = 8 ∧ odDefault (Od.vocabState v) = 0 := by
  decide +kernel

theorem odWidth_odDefault_grammarSlotState :
    ∀ g < 64, odWidth (Od.grammarSlotState g) = 8 ∧ odDefault (Od.grammarSlotState g) = 0 := by
  decide +kernel

/-! ## Slots as stores -/

theorem State.vslot_congr {s t : State} (h : t.vocabs = s.vocabs) (v : Nat) : t.vslot v = s.vslot v := by
  rw [State.vslot, h, State.vslot]

theorem State.gslot_congr {s t : State} (h : t.grammars = s.grammars) (g : Nat) : t.gslot g = s.gslot g := by
  rw [State.gslot, h, State.gslot]

@[simp] theorem State.vslot_setVslot_same (s : State) (v : Nat) (x : VSlot) : (s.setVslot v x).vslot v = x :=
  tGet_tSet_same _ _ _ _

@[simp] theorem State.gslot_setGslot_same (s : State) (g : Nat) (x : GSlot) : (s.setGslot g x).gslot g = x :=
  tGet_tSet_same _ _ _ _

@[simp] theorem State.vslot_setO (s : State) (k n v : Nat) : (s.setO k n).vslot v = s.vslot v := State.vslot_congr (by simp) v

@[simp] theorem State.gslot_setO (s : State) (k n g : Nat) : (s.setO k n).gslot g = s.gslot g := State.gslot_congr (by simp) g

@[simp] theorem State.vslot_resetO (s : State) (k v : Nat) : (s.resetO k).vslot v = s.vslot v := State.vslot_congr (by simp) v

@[simp] theorem State.gslot_resetO (s : State) (k g : Nat) : (s.resetO k).gslot g = s.gslot g := State.gslot_congr (by simp) g

@[simp] theorem State.vslot_measure (s : State) (slot event digest object info v : Nat) :
    (s.measure slot event digest object info).vslot v = s.vslot v := State.vslot_congr (by simp) v

@[simp] theorem State.gslot_measure (s : State) (slot event digest object info g : Nat) :
    (s.measure slot event digest object info).gslot g = s.gslot g := State.gslot_congr (by simp) g

/-! ## When a slot's command goes ahead (R333, R347) -/

/-- A load runs in a slot LOADING or REPLACING that has no next image yet. -/
theorem loadGuard {α : Type} {st : Nat} {next : Option α} (hstate : st = 1 ∨ st = 3) (hnext : next = none) :
    (!(st == 1 || st == 3) || next.isSome) = false := by
  rcases hstate with rfl | rfl
  · simp [hnext]
  · simp [hnext]

/-- A passed load takes over in a slot LOADING, or in one REPLACING whose references are gone. -/
theorem takeOverGuard {st refs : Nat} (h : st = 1 ∨ (st = 3 ∧ refs = 0)) : (!(st == 1 || (st == 3 && refs == 0))) = false := by
  rcases h with rfl | ⟨rfl, rfl⟩
  · rfl
  · rfl

/-! ## Vocabulary slots (R331, R333)

Where a command branches on a costly function of the state (State.pinImage, State.nextJob, State.pickTrie, takeBufs), its proof puts a
variable for the function first, so that checking the branch does not evaluate it. -/

/-- A load that passes its checks stands as the slot's next image, and VOCAB_PAGES counts its pages beside those of the current one. -/
theorem exec_vocabLoad {s : State} {v : Fin 16} {w : Vocab} {t : State} (h : ReadyVocabLoad s v.val w t) :
    exec (.vocabLoad v true) s = .next ((t.setVslot v.val
      { s.vslot v.val with next := some { w with src := s.o (Od.vocabSource v.val) } }).setO (Od.vocabPages v.val)
        ((((s.vslot v.val).cur.map (·.pages)).getD 0) + w.pages)) := by
  obtain ⟨hstate, hnext, hvalid, hparse, hpin⟩ := h
  refine congrArg Host.Outcome.next ((if_neg (ne_true_of_eq_false (loadGuard hstate hnext))).trans
    ((if_neg (by simp [hvalid])).trans ?_))
  rw [hparse]
  obtain ⟨pin, hpinned⟩ : ∃ pin, pin = s.pinImage (s.o (Od.vocabOwner v.val)) (s.o (Od.vocabTargetSlice v.val)) 3
    (slotObj v.val ((s.vslot v.val).gen + 1)) := exists_eq
  rw [← hpinned] at hpin ⊢
  simp only [hpin, Bool.not_true, Bool.false_eq_true, if_false]

theorem vocabLoad_waits {s : State} {v : Fin 16} {w : Vocab} {t : State} (h : ReadyVocabLoad s v.val w t) :
    Runs (.vocabLoad v true) s fun u => (u.vslot v.val).next = some { w with src := s.o (Od.vocabSource v.val) } ∧
      (u.vslot v.val).cur = (s.vslot v.val).cur :=
  ⟨_, exec_vocabLoad h, by simp⟩

theorem vocabLoadDone_takesOver {s : State} {v : Fin 16} {w : Vocab} (hnext : (s.vslot v.val).next = some w)
    (hdue : s.o (Od.vocabState v.val) = 1 ∨ (s.o (Od.vocabState v.val) = 3 ∧ s.o (Od.vocabRefs v.val) = 0)) :
    Runs (.vocabLoadDone v) s fun u =>
      u.o (Od.vocabState v.val) = 2 ∧ (u.vslot v.val).cur = some w ∧ (u.vslot v.val).next = none := by
  have hlt := v.isLt
  change ∃ u, execVocabLoadDone v s = .next u ∧ _
  simp only [execVocabLoadDone, hnext, takeOverGuard hdue, Bool.false_eq_true, if_false]
  refine ⟨_, rfl, ?_, ?_⟩
  · rw [State.o_measure _ _ _ _ _ _ (by unfold Od.vocabState Od.measurement; omega)
      (by unfold Od.vocabState Od.measurementLogEntries; omega)]
    exact State.o_setAll_head _ (odWidth_odDefault_vocabState v.val hlt).1 (by decide) (by simp)
  · simp [applyAll]

theorem exec_vocabClose {s : State} {v : Fin 16} (hstate : s.o (Od.vocabState v.val) = 2) (hcmd : s.o (Od.vocabCommand v.val) = 2) :
    exec (.vocabClose v) s = .next (s.setO (Od.vocabState v.val) 4) :=
  congrArg Host.Outcome.next (guardS_of (by simp [hstate, hcmd]) _ _)

theorem vocabCloseDone_empties {s : State} {v : Fin 16} (hstate : s.o (Od.vocabState v.val) = 4)
    (hrefs : s.o (Od.vocabRefs v.val) = 0) :
    Runs (.vocabCloseDone v) s fun u => u.o (Od.vocabState v.val) = 0 ∧ (u.vslot v.val).cur = none := by
  refine ⟨_, congrArg Host.Outcome.next (guardS_of (by simp [hstate, hrefs]) _ _), ?_, ?_⟩
  · rw [State.o_resetAll, if_pos List.mem_cons_self, (odWidth_odDefault_vocabState v.val v.isLt).2]
  · simp [applyAll]

/-! ## Grammar slots (R346, R347) -/

/-- A load that passes its checks stands as the slot's next image, and GRAMMAR_PAGES counts its pages beside those of the current
one. -/
theorem exec_grammarLoad {s : State} {g : Fin 64} {w : Grammar} {t : State} (h : ReadyGrammarLoad s g.val w t) :
    exec (.grammarLoad g true) s = .next ((t.setGslot g.val
      { s.gslot g.val with next := some { w with src := s.o (Od.grammarSource g.val) } }).setO (Od.grammarPages g.val)
        ((((s.gslot g.val).cur.map (·.pages)).getD 0) + w.pages)) := by
  obtain ⟨hstate, hnext, hvalid, hparse, hpin⟩ := h
  refine congrArg Host.Outcome.next ((if_neg (ne_true_of_eq_false (loadGuard hstate hnext))).trans
    ((if_neg (by simp [hvalid])).trans ?_))
  rw [hparse]
  obtain ⟨pin, hpinned⟩ : ∃ pin, pin = s.pinImage (s.o (Od.grammarOwner g.val)) (s.o (Od.grammarTargetSlice g.val)) 4
    (slotObj g.val ((s.gslot g.val).gen + 1)) := exists_eq
  rw [← hpinned] at hpin ⊢
  simp only [hpin, Bool.not_true, Bool.false_eq_true, if_false]

theorem grammarLoad_waits {s : State} {g : Fin 64} {w : Grammar} {t : State} (h : ReadyGrammarLoad s g.val w t) :
    Runs (.grammarLoad g true) s fun u => (u.gslot g.val).next = some { w with src := s.o (Od.grammarSource g.val) } ∧
      (u.gslot g.val).cur = (s.gslot g.val).cur :=
  ⟨_, exec_grammarLoad h, by simp⟩

theorem grammarLoadDone_takesOver {s : State} {g : Fin 64} {w : Grammar} (hnext : (s.gslot g.val).next = some w)
    (hdue : s.o (Od.grammarSlotState g.val) = 1 ∨ (s.o (Od.grammarSlotState g.val) = 3 ∧ s.o (Od.grammarRefs g.val) = 0)) :
    Runs (.grammarLoadDone g) s fun u =>
      u.o (Od.grammarSlotState g.val) = 2 ∧ (u.gslot g.val).cur = some w ∧ (u.gslot g.val).next = none := by
  have hlt := g.isLt
  change ∃ u, execGrammarLoadDone g s = .next u ∧ _
  simp only [execGrammarLoadDone, hnext, takeOverGuard hdue, Bool.false_eq_true, if_false]
  refine ⟨_, rfl, ?_, ?_⟩
  · rw [State.o_measure _ _ _ _ _ _ (by unfold Od.grammarSlotState Od.measurement; omega)
      (by unfold Od.grammarSlotState Od.measurementLogEntries; omega)]
    exact State.o_setAll_head _ (odWidth_odDefault_grammarSlotState g.val hlt).1 (by decide) (by simp)
  · simp [applyAll]

theorem exec_grammarClose {s : State} {g : Fin 64} (hstate : s.o (Od.grammarSlotState g.val) = 2)
    (hcmd : s.o (Od.grammarCommand g.val) = 2) : exec (.grammarClose g) s = .next (s.setO (Od.grammarSlotState g.val) 4) :=
  congrArg Host.Outcome.next (guardS_of (by simp [hstate, hcmd]) _ _)

theorem grammarCloseDone_empties {s : State} {g : Fin 64} (hstate : s.o (Od.grammarSlotState g.val) = 4)
    (hrefs : s.o (Od.grammarRefs g.val) = 0) :
    Runs (.grammarCloseDone g) s fun u => u.o (Od.grammarSlotState g.val) = 0 ∧ (u.gslot g.val).cur = none := by
  refine ⟨_, congrArg Host.Outcome.next (guardS_of (by simp [hstate, hrefs]) _ _), ?_, ?_⟩
  · rw [State.o_resetAll, if_pos List.mem_cons_self, (odWidth_odDefault_grammarSlotState g.val g.isLt).2]
  · simp [applyAll]

/-! ## Certification (R353) -/

/-- A loaded grammar's GRAMMAR_CERT_NS is written class by class. -/
theorem State.recertify_loaded (s : State) (g : Nat) {x : GSlot} (h : x.cur.isSome = true) :
    s.recertify (g, x) = s.setO (Od.grammarCertNs g)
      ((List.range 64).foldl (fun v c => octSet v 256 4 c (s.certOf g c)) (s.o (Od.grammarCertNs g))) := by
  have hloaded : x.cur.isNone = false := by rw [← Option.not_isSome, h, Bool.not_true]
  simp only [State.recertify, hloaded, Bool.false_eq_true, if_false]

theorem exec_certificationRecompute (s : State) :
    exec .certificationRecompute s = .next (applyAll State.recertify s s.grammars) := rfl

theorem exec_certificationRecompute_one {s : State} {g : Nat} {x : GSlot} (hone : s.grammars = [(g, x)])
    (h : x.cur.isSome = true) :
    exec .certificationRecompute s = .next (s.setO (Od.grammarCertNs g)
      ((List.range 64).foldl (fun v c => octSet v 256 4 c (s.certOf g c)) (s.o (Od.grammarCertNs g)))) := by
  rw [exec_certificationRecompute, hone, ← s.recertify_loaded g h]
  rfl

/-! ## Tokenization jobs (R335 to R339, R479) -/

section
variable {s : State} {die : Fin 2} {busy : List Nat} {j : TrieJob} {slot maxOut u : Nat} {v : Vocab}
  (h : ReadyTokenize s die busy j slot maxOut u v)
include h

/-- The next job runs on its unit: the tokens of a request that is gone go nowhere, those of any other into buffers taken for
them, without which it waits. -/
theorem exec_tokenizeJob :
    exec (.tokenizeJob die busy) s = .next (if !s.hasReq j.req then s.trieEnds j slot u v [] (s.trieRun j slot maxOut u v) else
      ((takeBufs die.val (s.req j.req).tenant j.req (cdiv (4 * ((s.trieRun j slot maxOut u v).1.length + 1)) 4096) s).map
        fun p => p.1.trieEnds j slot u v p.2 (s.trieRun j slot maxOut u v)).getD s) := by
  obtain ⟨hjob, hbounds, hvocab, hunit, hon⟩ := h
  refine congrArg Host.Outcome.next ?_
  obtain ⟨next, hnext⟩ : ∃ next, next = s.nextJob := exists_eq
  obtain ⟨pick, hpick⟩ : ∃ pick, pick = s.pickTrie := exists_eq
  obtain ⟨take, htake⟩ : ∃ take, take = takeBufs := exists_eq
  rw [← hnext] at hjob ⊢
  rw [← hpick] at hunit ⊢
  rw [← htake]
  simp only [hjob, hbounds, hvocab, hunit, hon, Bool.not_true, Bool.false_eq_true, if_false]
  congr 1
  cases take die.val (s.req j.req).tenant j.req (cdiv (4 * ((s.trieRun j slot maxOut u v).1.length + 1)) 4096) s with
  | none => rfl
  | some p => rfl

theorem exec_tokenizeJob_gone (hgone : s.hasReq j.req = false) :
    exec (.tokenizeJob die busy) s = .next (s.trieEnds j slot u v [] (s.trieRun j slot maxOut u v)) := by
  rw [exec_tokenizeJob h, hgone, Bool.not_false, if_pos rfl]

theorem exec_tokenizeJob_delivers {t : State} {bs : List Nat} (hreq : s.hasReq j.req = true)
    (hbufs : takeBufs die.val (s.req j.req).tenant j.req
      (cdiv (4 * ((s.trieRun j slot maxOut u v).1.length + 1)) 4096) s = some (t, bs)) :
    exec (.tokenizeJob die busy) s = .next (t.trieEnds j slot u v bs (s.trieRun j slot maxOut u v)) := by
  rw [exec_tokenizeJob h, hreq, hbufs, Bool.not_true, if_neg Bool.false_ne_true, Option.map_some, Option.getD_some]

end

/-- Settles O24: each slot command takes the branch its conditions choose, and the writes and measurement that follow a slot's change
leave its state object and its images; certification folds over the loaded grammars; a job's end follows its request and buffers. -/
theorem vocabulariesAndGrammars : Obligations.VocabulariesAndGrammars :=
  ⟨fun _ _ _ _ => vocabLoad_waits, fun _ _ _ => vocabLoadDone_takesOver, fun _ _ => exec_vocabClose,
    fun _ _ => vocabCloseDone_empties, fun _ _ _ _ => grammarLoad_waits, fun _ _ _ => grammarLoadDone_takesOver,
    fun _ _ => exec_grammarClose, fun _ _ => grammarCloseDone_empties, fun _ _ _ => exec_certificationRecompute_one,
    exec_certificationRecompute, fun _ _ _ _ _ _ _ _ => exec_tokenizeJob_gone,
    fun _ _ _ _ _ _ _ _ _ _ h => exec_tokenizeJob_delivers h⟩

end Sys2Proof.Machine
end

section
namespace Sys2Proof.Machine

-- One lemma per function of the model: checked one after another, they need no thread each.
set_option Elab.async false

/-! ## What every step keeps: the queue, and the canonical form of the two tiers

A step takes the front of the queue before the command runs, so it is enough that no function of the model writes the queue, and that
every write of a tier goes through the operations that keep it canonical. Kept says both of a state s and one reached from it. For
each function f of the model there is one lemma Kept.f: when s₀ is kept up to s, it is kept up to f of s. Its proof follows the body of
f: Kept.ite and a split at the branches, the lemma of each function called, Kept.upd at an update of other fields. -/

/-- State t has the queue of s, and its near store and stack store are canonical where those of s are. -/
def Kept (s t : State) : Prop := t.pending = s.pending ∧ (s.mem.wf = true → t.mem.wf = true)

theorem Kept.refl (s : State) : Kept s s := ⟨rfl, id⟩

theorem Kept.ite {s a b : State} {c : Prop} [Decidable c] (ha : Kept s a) (hb : Kept s b) : Kept s (if c then a else b) := by
  split <;> assumption

theorem Kept.iteFst {α : Type} {s : State} {a b : State × α} {c : Prop} [Decidable c] (ha : Kept s a.1) (hb : Kept s b.1) :
    Kept s (if c then a else b).1 := by
  split <;> assumption

/-- An update of other fields keeps what every step keeps. -/
theorem Kept.upd {s t u : State} (h : Kept s t) (hqueue : u.pending = t.pending := by dsimp only <;> exact rfl)
    (hnear : u.mem.near = t.mem.near := by dsimp only <;> exact rfl)
    (hstack : u.mem.stack = t.mem.stack := by dsimp only <;> exact rfl) : Kept s u := by
  refine ⟨hqueue.trans h.1, fun hw => (Mem.wf_iff _).2 ?_⟩
  rw [hnear, hstack]
  exact (Mem.wf_iff _).1 (h.2 hw)

/-- What a command answers: a next state, which keeps what every step keeps. -/
def Answers (s : State) (r : Res) : Prop := ∃ t, r = .next t ∧ Kept s t

theorem Answers.next {s t : State} (h : Kept s t) : Answers s (.next t) := ⟨t, rfl, h⟩

theorem Kept.applyAllFst {α β : Type} {s u : State} {f : State × α → β → State × α} {a : α} {xs : List β} (hu : Kept s u)
    (hf : ∀ q x, Kept s q.1 → Kept s (f q x).1) : Kept s (Machine.applyAll f (u, a) xs).1 :=
  applyAll_keeps (fun q : State × α => Kept s q.1) hf xs hu

section
variable {s₀ s : State} (h : Kept s₀ s)
include h

theorem Kept.guardS {c : Bool} {f : State → State} (hf : Kept s₀ (f s)) : Kept s₀ (Machine.guardS c s f) :=
  guardS_keeps (Kept s₀) h hf

theorem Kept.applyAll {β : Type} {f : State → β → State} {xs : List β} (hf : ∀ t x, Kept s₀ t → Kept s₀ (f t x)) :
    Kept s₀ (Machine.applyAll f s xs) := applyAll_keeps (Kept s₀) hf xs h

/-! ### Objects, counters, domains, arrays and mailboxes -/

theorem Kept.setO {k v : Nat} : Kept s₀ (s.setO k v) := h

theorem Kept.addO {k n : Nat} : Kept s₀ (s.addO k n) := h.setO

theorem Kept.subO {k n : Nat} : Kept s₀ (s.subO k n) := h.setO

theorem Kept.resetO {k : Nat} : Kept s₀ (s.resetO k) := h

theorem Kept.took : Kept s₀ s.took := h

theorem Kept.writeRec {r : Rec} : Kept s₀ (s.writeRec r) := h.upd (by simp) (by simp) (by simp)

theorem Kept.record {kind part data : Nat} : Kept s₀ (s.record kind part data) := by
  simp only [State.record]
  refine Kept.ite h.took.writeRec ?_
  split
  · exact h.took.writeRec.upd
  · exact h.took.upd

theorem Kept.carryRecords : Kept s₀ s.carryRecords := by
  simp only [State.carryRecords]
  exact (h.applyAll (fun _ _ ht => ht.writeRec)).upd

theorem Kept.faultRec {kind pk part outcome intr aff : Nat} {extra : List (Nat × Nat)} : Kept s₀
    (s.faultRec kind pk part outcome intr aff extra) :=
  h.record

theorem Kept.countFault {kind pk part outcome intr aff : Nat} : Kept s₀ (s.countFault kind pk part outcome intr aff) :=
  h.addO.setO.setO

theorem Kept.pulseFault : Kept s₀ s.pulseFault := h

theorem Kept.fault1 {kind pk part outcome intr aff : Nat} {extra : List (Nat × Nat)} : Kept s₀
    (s.fault1 kind pk part outcome intr aff extra) :=
  h.countFault.pulseFault.faultRec

theorem Kept.setMbox {c n : Nat} {m : Mbox} : Kept s₀ (s.setMbox c n m) := h

theorem Kept.post {c n tag payload : Nat} : Kept s₀ (s.post c n tag payload) := Kept.ite h.setMbox h.setMbox.addO.faultRec

theorem Kept.setPd {p : Nat} {x : Pd} : Kept s₀ (s.setPd p x) := h

theorem Kept.setArr {a : Nat} {x : Arr} : Kept s₀ (s.setArr a x) := h

theorem Kept.setRes {a r : Nat} {x : Resident} : Kept s₀ (s.setRes a r x) := h

theorem Kept.setCore {c : Nat} {x : RCore} : Kept s₀ (s.setCore c x) := h

theorem Kept.setKeeper {k : Nat} {x : Keeper} : Kept s₀ (s.setKeeper k x) := h

theorem Kept.setNearB {sl o : Nat} {b : Byte} : Kept s₀ (s.setNearB sl o b) := ⟨h.1, fun hw => State.setNearB_wf _ _ _ _ (h.2 hw)⟩

theorem Kept.setStackB {p o : Nat} {b : Byte} : Kept s₀ (s.setStackB p o b) := ⟨h.1, fun hw => State.setStackB_wf _ _ _ _ (h.2 hw)⟩

theorem Kept.setPage {p : Nat} {x : Page} : Kept s₀ (s.setPage p x) := h

theorem Kept.setGran {g : Nat} {x : Gran} : Kept s₀ (s.setGran g x) := h

theorem Kept.putStack {p o : Nat} {bs : List Byte} : Kept s₀ (s.putStack p o bs) := h.applyAllFst (fun _ _ ht => ht.setStackB)

theorem Kept.wipePage {p : Nat} : Kept s₀ (s.wipePage p) := ⟨h.1, fun hw => State.wipePage_wf _ _ (h.2 hw)⟩

theorem Kept.wipeGran {g : Nat} : Kept s₀ (s.wipeGran g) := ⟨h.1, fun hw => State.wipeGran_wf _ _ (h.2 hw)⟩

theorem Kept.setDice {u : Nat} {x : Dice} : Kept s₀ (s.setDice u x) := h

theorem Kept.rngKey {u : Nat} : Kept s₀ (s.rngKey u) := by
  simp only [State.rngKey]
  split <;> exact h.setDice.addO

theorem Kept.rngBlock {u l : Nat} : Kept s₀ (s.rngBlock u l).1 := (Kept.ite h.rngKey h).setDice

theorem Kept.rngDraw {u l w per : Nat} : Kept s₀ (s.rngDraw u l w per).1 := by
  simp only [State.rngDraw]
  split
  · exact h.setDice
  · exact h.rngBlock.setDice

theorem Kept.rngDone {u l : Nat} : Kept s₀ (s.rngDone u l) := h.setDice

theorem Kept.rngMany {a n : Nat} : Kept s₀ (Machine.rngMany a n s).1 := by
  induction n generalizing s with
  | zero => exact h
  | succ n ih => exact ih h.rngDraw

theorem Kept.draws {a : Nat} {sr : Bool} {n : Nat} : Kept s₀ (s.draws a sr n).1 := Kept.iteFst h.rngMany h

theorem Kept.draw24 {u : Nat} : Kept s₀ (s.draw24 u).1 := h.rngDraw

theorem Kept.execRngKeyReplace {u : Fin 8} : Answers s₀ (execRngKeyReplace u s) := .next (h.guardS h.rngKey)

theorem Kept.execRngConditionedKey {u : Fin 8} {raw : Nat} : Answers s₀ (execRngConditionedKey u raw s) :=
  .next (h.guardS (Kept.ite (Kept.ite h.setO.setDice h.setO.setDice.addO) (Kept.ite h.setDice.addO h.setDice.addO.setO.fault1)))

theorem Kept.sendFrame {up : Bool} {f : Frame} : Kept s₀ (s.sendFrame up f) := by
  simp only [State.sendFrame]
  exact Kept.ite h (Kept.ite h.upd h.upd)

theorem Kept.ownFrame {ftype dst : Nat} {up : Bool} {session handle tag : Nat} {payload : List Byte} : Kept s₀
    (s.ownFrame ftype dst up session handle tag payload) :=
  h.sendFrame

theorem Kept.chainRecord {old : Nat} : Kept s₀ (s.chainRecord old) := h.record

theorem Kept.setImage {i : Nat} {bs : List Byte} {valid : Bool} {release : Nat} : Kept s₀ (s.setImage i bs valid release) := by
  simp only [State.setImage]
  exact (Kept.ite h.upd h.upd).setO

theorem Kept.setUpdate {st image : Nat} : Kept s₀ (s.setUpdate st image) := Kept.ite h h.setO.record

theorem Kept.setPath {p : Nat} {x : Path} : Kept s₀ (s.setPath p x) := by
  simp only [State.setPath]
  exact Kept.ite h.upd h.upd

theorem Kept.dropSeg {p : Nat} : Kept s₀ (s.dropSeg p) := by
  simp only [State.dropSeg]
  split
  · exact h.setPath
  · exact Kept.ite h.setPath.upd (Kept.ite h.setPath.setUpdate h.setPath)

theorem Kept.freeLock : Kept s₀ s.freeLock := by
  simp only [State.freeLock]
  exact h.upd.setO.setO.setO.setO

theorem Kept.breakLock {cause : Nat} : Kept s₀ (s.breakLock cause) := Kept.ite h h.freeLock.addO.setO.setO.record

theorem Kept.breakPath {p cause : Nat} : Kept s₀ (s.breakPath p cause) := Kept.ite h.breakLock h

theorem Kept.endSession {p cause : Nat} : Kept s₀ (s.endSession p cause) := h.breakPath.dropSeg.setPath

theorem Kept.putGran {g : Nat} {x : Gran} : Kept s₀ (s.putGran g x) := h.subO.subO.addO.addO.subO.setGran

theorem Kept.putPage {p : Nat} {x : Page} : Kept s₀ (s.putPage p x) := h.subO.addO.setPage

theorem Kept.dropGran {g : Nat} : Kept s₀ (s.dropGran g) := h.setPage.putGran.wipeGran.addO

theorem Kept.cancelMigr {g : Nat} : Kept s₀ (s.cancelMigr g) := by
  simp only [State.cancelMigr]
  exact h.putGran.upd

theorem Kept.cancelMigrOf {p : Nat} : Kept s₀ (s.cancelMigrOf p) := h.applyAll (fun _ _ ht => Kept.ite ht.cancelMigr ht)

theorem Kept.untier {p : Nat} : Kept s₀ (s.untier p) := h.cancelMigrOf.applyAll (fun _ _ ht => Kept.ite ht.dropGran ht)

theorem Kept.freePage {p : Nat} : Kept s₀ (s.freePage p) := h.untier.putPage.wipePage

theorem Kept.touchPage {p i : Nat} : Kept s₀ (s.touchPage p i) := by
  simp only [State.touchPage]
  exact Kept.ite h (Kept.ite h.setPage h.setPage.upd)

theorem Kept.touchGran {g : Nat} : Kept s₀ (s.touchGran g) := by
  simp only [State.touchGran]
  exact Kept.ite h h.setGran.upd

theorem Kept.halveTiers : Kept s₀ s.halveTiers := h

theorem Kept.promoteInto {sl p i : Nat} {q : Option Nat} : Kept s₀ (s.promoteInto sl p i q) := by
  unfold State.promoteInto
  dsimp only
  split
  · refine .upd (.putGran ?_)
    split
    · exact h.dropGran
    · exact h
  · split
    · exact h.addO
    · refine .ite h.addO (.upd (.putGran ?_))
      split
      · exact h.dropGran.dropGran
      · exact h.dropGran

theorem Kept.promote {sl : Nat} {c : Nat × Nat} : Kept s₀ (s.promote sl c) := by
  simp only [State.promote]
  refine Kept.ite h.addO (Kept.ite h.promoteInto ?_)
  split
  · exact h.addO
  · exact Kept.ite h.addO h.promoteInto

theorem Kept.floorDrop : Kept s₀ s.floorDrop := h.applyAll (fun _ _ ht => Kept.ite ht.dropGran ht)

theorem Kept.shedQuota {n t : Nat} : Kept s₀ (State.shedQuota n s t) := by
  induction n generalizing s with
  | zero => exact h
  | succ n ih =>
    simp only [State.shedQuota]
    refine .ite h ?_
    split
    · exact h
    · exact ih h.dropGran

theorem Kept.tierDecision : Kept s₀ s.tierDecision := by
  simp only [State.tierDecision]
  exact ((h.floorDrop.applyAll (fun _ _ ht => ht.shedQuota)).applyAll (fun _ _ ht1 => ht1.applyAll (fun _ _ ht2 => ht2.promote))).upd

theorem Kept.execTierDecision : Answers s₀ (execTierDecision s) := .next (h.guardS h.tierDecision)

theorem Kept.near_tSets {f : Nat × Byte → Nat} {xs : List (Nat × Byte)} :
    Kept s₀ { s with mem := { s.mem with
      near := Machine.applyAll (fun (t : Tbl Byte) (e : Nat × Byte) => tSet 0 t (f e) e.2) s.mem.near xs } } := by
  refine ⟨h.1, fun hw => (Mem.wf_iff _).2 ?_⟩
  obtain ⟨hnear, hstack⟩ := (Mem.wf_iff _).1 (h.2 hw)
  exact ⟨applyAll_keeps (fun t => tWf (fun _ => (0 : Byte)) t = true) (fun _ _ ht => tWf_tSet_const _ _ ht) xs hnear, hstack⟩

theorem Kept.execMigrationComplete {sl : Fin 32} : Answers s₀ (execMigrationComplete sl s) := by
  simp only [Machine.execMigrationComplete]
  refine .next ?_
  split
  · exact h
  · refine .ite h.upd (.ite h.upd.putGran (.addO (.setPage (.putGran ?_))))
    exact (Kept.wipeGran h.upd).near_tSets

theorem Kept.takePage {d cls owner target : Nat} {u : PUse} {t : State} {p : Nat}
    (e : s.takePage d cls owner target u = some (t, p)) : Kept s₀ t := by
  simp only [State.takePage] at e
  split at e
  · cases e
  · split at e <;> cases e
    exact h.putPage

theorem Kept.takePages {d cls owner target kind obj n k : Nat} {t : State} {ps : List Nat}
    (e : Machine.takePages d cls owner target kind obj n k s = some (t, ps)) : Kept s₀ t := by
  induction n generalizing s k ps with
  | zero => cases e; exact h
  | succ n ih =>
    simp only [Machine.takePages] at e
    split at e
    · cases e
    next _ _ e₁ =>
      split at e <;> cases e
      next e₂ => exact ih (h.takePage e₁) e₂

theorem Kept.fillPages {ps : List Nat} {bs : List Byte} : Kept s₀ (State.fillPages s ps bs) := by
  induction ps generalizing s bs with
  | nil => exact h
  | cons p ps ih => exact ih h.putStack

theorem Kept.freeObject {kind obj : Nat} : Kept s₀ (s.freeObject kind obj) := h.applyAll (fun _ _ ht => ht.freePage)

theorem Kept.claimGran {g state owner res : Nat} : Kept s₀ (s.claimGran g state owner res) :=
  (Kept.ite h.cancelMigr (Kept.ite h.dropGran.addO h)).putGran

omit h in
set_option maxRecDepth 3000 in
theorem claimGrans_succ (sl state owner res n : Nat) (s : State) : claimGrans sl state owner res (n + 1) s =
    match s.nextClaim sl with
    | none => none
    | some g =>
      match claimGrans sl state owner res n (s.claimGran g state owner res) with
      | none => none
      | some (s, gs) => some (s, g :: gs) := rfl

theorem Kept.claimGrans {sl state owner res n : Nat} {t : State} {gs : List Nat}
    (e : Machine.claimGrans sl state owner res n s = some (t, gs)) : Kept s₀ t := by
  induction n generalizing s gs with
  | zero =>
    change some (s, []) = some (t, gs) at e
    cases e
    exact h
  | succ n ih =>
    rw [claimGrans_succ] at e
    split at e
    · cases e
    · split at e <;> cases e
      next e₂ => exact ih h.claimGran e₂

theorem Kept.putResB {a : Nat} {r : Resident} {addr : Nat} {b : Byte} : Kept s₀ (s.putResB a r addr b) := by
  simp only [State.putResB]
  split
  · exact h.setNearB
  · exact h

theorem Kept.putRes {a : Nat} {r : Resident} {addr : Nat} {bs : List Byte} : Kept s₀ (s.putRes a r addr bs) :=
  h.applyAllFst (fun _ _ ht => ht.putResB)

/-! ### Requests, steps, memory tiers, what losses take, power -/

theorem Kept.writeRow {a : Nat} {r : Resident} {d n m : Nat} {row : List Byte × List Byte × Nat} : Kept s₀ (s.writeRow a r d n m row) :=
  h.putRes.putRes

theorem Kept.postStatus {a : Nat} {b : Bundle} : Kept s₀ (s.postStatus a b) := (Kept.ite h h.addO).took.post

theorem Kept.dropDraws {a r ep : Nat} : Kept s₀ (s.dropDraws a r ep) := by
  simp only [State.dropDraws]
  exact h.setDice.upd

theorem Kept.abandonArr {a r ep : Nat} : Kept s₀ (s.abandonArr a r ep) :=
  (h.setArr.applyAll (fun _ _ ht => ht.postStatus)).dropDraws

theorem Kept.endBundle {a key code word : Nat} : Kept s₀ (s.endBundle a key code word) := by
  simp only [State.endBundle]
  split
  · exact h
  · exact h.setArr.postStatus

theorem Kept.setBuf {b : Nat} {x : Buf} : Kept s₀ (s.setBuf b x) := h

theorem Kept.takeBuf {die tenant req : Nat} {t : State} {b : Nat} (e : s.takeBuf die tenant req = some (t, b)) : Kept s₀ t := by
  simp only [State.takeBuf] at e
  split at e <;> cases e
  exact h.setBuf.addO.subO

theorem Kept.takeBufs {die tenant req n : Nat} {t : State} {bs : List Nat}
    (e : Machine.takeBufs die tenant req n s = some (t, bs)) : Kept s₀ t := by
  induction n generalizing s bs with
  | zero => cases e; exact h
  | succ n ih =>
    simp only [Machine.takeBufs] at e
    split at e
    · cases e
    next e₁ =>
      split at e <;> cases e
      next e₂ => exact ih (h.takeBuf e₁) e₂

theorem Kept.setFn {f : Nat} {x : Fn} : Kept s₀ (s.setFn f x) := h

theorem Kept.freeBuf {b : Nat} : Kept s₀ (s.freeBuf b) := by
  simp only [State.freeBuf]
  refine Kept.ite h (Kept.ite (Kept.subO ?_).addO.subO (Kept.subO ?_).addO).setBuf
  · split
    · exact h.setFn
    · exact h
  · split
    · exact h.setFn
    · exact h

theorem Kept.sealBuf {b : Nat} : Kept s₀ (s.sealBuf b) := Kept.ite h h.setBuf.addO

theorem Kept.putEntry {m : Msg} : Kept s₀ (s.putEntry m) := by
  simp only [State.putEntry]
  exact h.setFn.upd

theorem Kept.sendMsg {m : Msg} : Kept s₀ (s.sendMsg m) := by
  simp only [State.sendMsg]
  exact Kept.ite (Kept.ite h.upd.addO h) (Kept.ite h (Kept.ite h.putEntry h.setFn))

theorem Kept.setReq {r : Nat} {x : Req} : Kept s₀ (s.setReq r x) := h

theorem Kept.setIdWin {t : Nat} {w : IdWin} : Kept s₀ (s.setIdWin t w) := h

theorem Kept.notice {path : RetPath} {tenant id kind detail freed stale foreign busy first : Nat} : Kept s₀
    (s.notice path tenant id kind detail freed stale foreign busy first) :=
  h.sendMsg

theorem Kept.newOut {r kind : Nat} {t : State} (e : s.newOut r kind = some t) : Kept s₀ t := by
  simp only [State.newOut, Option.ite_none_left_eq_some] at e
  obtain ⟨-, -, e⟩ := e
  split at e <;> cases e
  next e₁ =>
    refine .setReq (.setBuf ?_)
    split
    · exact (h.takeBuf e₁).setFn
    · exact h.takeBuf e₁

theorem Kept.emitOne {r : Nat} {t : State} (e : s.emitOne r = some t) : Kept s₀ t := by
  simp only [State.emitOne] at e
  split at e
  · cases e
  · split at e
    · cases e
      exact h.setReq
    · split at e
      · exact h.newOut e
      · split at e
        · exact h.sealBuf.newOut e
        · cases e
          exact .sendMsg (.setReq (.ite (.sealBuf (.setBuf h)) (.setBuf h)))

theorem Kept.flushOut {n r : Nat} : Kept s₀ (Machine.flushOut n s r) := by
  induction n generalizing s with
  | zero => exact h
  | succ n ih =>
    simp only [Machine.flushOut]
    split
    next e => exact ih (h.emitOne e)
    · exact .ite h.setReq (.setReq (.ite h h.addO))

theorem Kept.emit {r kind sz : Nat} {bs : List Byte} {fin : Bool} : Kept s₀ (s.emit r kind sz bs fin) := h.setReq.flushOut

theorem Kept.endKind {r kind : Nat} : Kept s₀ (s.endKind r kind) := by
  simp only [State.endKind]
  split
  · exact h.sealBuf.setReq
  · exact h

theorem Kept.sealAll {r : Nat} : Kept s₀ (s.sealAll r) := h.applyAll (fun _ _ ht => ht.endKind)

theorem Kept.kvAlloc {d tenant slice : Nat} {t : State} {k : Nat} (e : s.kvAlloc d tenant slice = some (t, k)) : Kept s₀ t := by
  simp only [State.kvAlloc] at e
  split at e
  · split at e <;> cases e
    exact h.setPage
  · split at e <;> cases e
    next e₁ => exact h.takePage e₁

theorem Kept.stack_tDrop {p : Nat → Bool} : Kept s₀ { s with mem := { s.mem with stack := tDrop p s.mem.stack } } :=
  ⟨h.1, fun hw => (Mem.wf_iff _).2 ⟨((Mem.wf_iff _).1 (h.2 hw)).1, tWf_tDrop p ((Mem.wf_iff _).1 (h.2 hw)).2⟩⟩

theorem Kept.kvFree {k : Nat} : Kept s₀ (s.kvFree k) := by
  simp only [State.kvFree]
  exact .ite h (.ite h.freePage (.setPage h.stack_tDrop))

theorem Kept.idRec {t id : Nat} {f : IdRec → IdRec} : Kept s₀ (s.idRec t id f) := Kept.ite h.setIdWin h

theorem Kept.respond {r resp reason beats : Nat} : Kept s₀ (s.respond r resp reason beats) := h.idRec.sendMsg

theorem Kept.unbind {r : Nat} : Kept s₀ (s.unbind r) := by
  simp only [State.unbind]
  refine Kept.applyAll ?_ (fun _ _ ht8 => ht8.subO)
  split
  · refine Kept.subO ?_
    split
    · exact ((h.applyAll (fun _ _ ht => ht.subO)).applyAll (fun _ _ ht1 => ht1.subO)).subO
    · exact (h.applyAll (fun _ _ ht2 => ht2.subO)).applyAll (fun _ _ ht3 => ht3.subO)
  · split
    · exact ((h.applyAll (fun _ _ ht4 => ht4.subO)).applyAll (fun _ _ ht5 => ht5.subO)).subO
    · exact (h.applyAll (fun _ _ ht6 => ht6.subO)).applyAll (fun _ _ ht7 => ht7.subO)

theorem Kept.freeSeq {q : Nat} : Kept s₀ (s.freeSeq q) := by
  simp only [State.freeSeq, Kept]
  refine Kept.subO (Kept.applyAll ?_ fun _ _ ht => .ite ht.upd ht)
  split
  · exact (h.applyAll fun _ _ ht => .ite ht ht.kvFree).kvFree
  · exact h.applyAll fun _ _ ht => .ite ht ht.kvFree

theorem Kept.release {r : Nat} : Kept s₀ (s.release r) := by
  simp only [State.release]
  refine Kept.ite (((h.applyAll (fun _ _ ht => ht.freeBuf)).applyAll (fun _ _ ht1 => ht1.freeBuf)).applyAll (fun _ _ ht2 => ht2.kvFree))
    (Kept.unbind ?_).subO.subO.subO.subO
  split
  · exact (((h.applyAll (fun _ _ ht3 => ht3.freeBuf)).applyAll (fun _ _ ht4 => ht4.freeBuf)).applyAll (fun _ _ ht5 => ht5.kvFree)).freeSeq
  · exact ((h.applyAll (fun _ _ ht6 => ht6.freeBuf)).applyAll (fun _ _ ht7 => ht7.freeBuf)).applyAll (fun _ _ ht8 => ht8.kvFree)

theorem Kept.complete {r code retry detail : Nat} {deliver : Bool} : Kept s₀ (s.complete r code retry detail deliver) := by
  unfold State.complete
  extract_lets x s₁ close s₂ rec_ pay s₃ s₄ s₅ s₆ s₇ s₈ g
  have h₂ : Kept s₀ s₂ := .ite h.sealAll.sendMsg h.sealAll
  have h₄ : Kept s₀ s₄ := .ite h₂.idRec.sendMsg h₂.idRec
  have h₅ : Kept s₀ s₅ := .ite h₄.addO h₄
  have h₆ : Kept s₀ s₆ := .ite h₅.addO h₅
  have h₈ : Kept s₀ s₈ := .ite h₆.release.subO h₆.release
  exact .ite h h₈.upd

theorem Kept.finishReq {r : Nat} : Kept s₀ (s.finishReq r) := Kept.ite h (Kept.ite h.setReq.complete h.setReq.setReq)

theorem Kept.pumpOutput : Kept s₀ s.pumpOutput := by
  simp only [State.pumpOutput]
  refine h.applyAll (fun _ _ ht => Kept.ite ht ?_)
  split
  · exact Kept.ite ht.flushOut.complete ht.flushOut
  · exact ht.flushOut

theorem Kept.setItem {r i : Nat} {f : Item → Item} : Kept s₀ (s.setItem r i f) := h.setReq

theorem Kept.emitOutcomes {r : Nat} {ending : Bool} : Kept s₀ (s.emitOutcomes r ending) := Kept.ite h.setReq h.setReq.emit

theorem Kept.pumpOutcomes {r : Nat} : Kept s₀ (s.pumpOutcomes r) := Kept.ite h (Kept.ite h.emitOutcomes.finishReq h.emitOutcomes)

theorem Kept.setVslot {v : Nat} {x : VSlot} : Kept s₀ (s.setVslot v x) := h

theorem Kept.readSlot {kind obj off n : Nat} : Kept s₀ (s.readSlot kind obj off n) := by
  simp only [State.readSlot]
  refine h.applyAll (fun _ _ ht => ?_)
  split
  · refine Kept.touchPage ?_
    split
    · exact ht.touchGran
    · exact ht
  · exact ht

theorem Kept.streamCommit {q : Nat} : Kept s₀ (s.streamCommit q) := by
  simp only [State.streamCommit]
  split
  · exact h
  · refine Kept.ite (Kept.ite (Kept.upd ?_).setReq (Kept.upd ?_)) (Kept.ite (Kept.upd ?_).setReq (Kept.upd ?_)).emit
    · split
      · exact h.applyAll (fun _ _ ht => ht.readSlot)
      · exact h
    · split
      · exact h.applyAll (fun _ _ ht1 => ht1.readSlot)
      · exact h
    · split
      · exact h.applyAll (fun _ _ ht2 => ht2.readSlot)
      · exact h
    · split
      · exact h.applyAll (fun _ _ ht3 => ht3.readSlot)
      · exact h

theorem Kept.streamAll {q : Nat} : Kept s₀ (s.streamAll q) := by
  simp only [State.streamAll]
  exact Kept.ite (h.applyAll (fun _ _ ht => ht.streamCommit)) (h.applyAll (fun _ _ ht1 => ht1.streamCommit)).upd.emit

theorem Kept.endReq {r code : Nat} : Kept s₀ (s.endReq r code) := by
  simp only [State.endReq]
  refine Kept.ite h (Kept.ite (Kept.emitOutcomes ?_) ?_).complete
  · split
    · exact h.streamAll
    · exact h
  · split
    · exact h.streamAll
    · exact h

theorem Kept.putKv {k o : Nat} {bs : List Byte} : Kept s₀ (s.putKv k o bs) := h.putStack

theorem Kept.setKvHeader {k h₁ : Nat} : Kept s₀ (s.setKvHeader k h₁) := h.putKv

theorem Kept.kvKeyVectors {k lane : Nat} {x : PlanX} {valid : Nat} : Kept s₀ (s.kvKeyVectors k lane x valid) := by
  simp only [State.kvKeyVectors]
  exact h.putKv.putKv.applyAllFst fun _ _ ht => ht.putKv.putKv

theorem Kept.setKvValid {k : Nat} {x : PlanX} {valid : Nat} : Kept s₀ (s.setKvValid k x valid) :=
  Kept.ite h (h.setKvHeader.applyAll (fun _ _ ht => ht.kvKeyVectors))

theorem Kept.setSeq {q : Nat} {y : Seq} : Kept s₀ (s.setSeq q y) := h

theorem Kept.setModel {m : Nat} {x : Model} : Kept s₀ (s.setModel m x) := h

theorem Kept.truncate {q side : Nat} : Kept s₀ (s.truncate q side) := h.applyAll (fun _ _ ht => Kept.ite ht ht.setKvValid)

theorem Kept.setStake {n : Nat} {x : Stake} : Kept s₀ (s.setStake n x) := h

theorem Kept.setStep {k : Nat} {x : Step} : Kept s₀ (s.setStep k x) := h

theorem Kept.abandonOn {n : Nat} : Kept s₀ (s.abandonOn n) := by
  simp only [State.abandonOn]
  refine h.applyAll (fun _ _ ht => ?_)
  split
  · exact ht.abandonArr
  · exact ht

theorem Kept.bumpEpoch {n : Nat} : Kept s₀ (s.bumpEpoch n) := h.setStake

theorem Kept.discardRows {t : Step} : Kept s₀ (s.discardRows t) := by
  simp only [State.discardRows]
  refine h.applyAll (fun _ _ ht => ?_)
  split
  · exact Kept.ite ht.truncate ht.truncate.setSeq
  · exact ht

theorem Kept.chargeCourse {t : Step} {cycles : Nat} : Kept s₀ (s.chargeCourse t cycles) :=
  h.applyAll (fun _ _ ht => Kept.ite ht.setReq ht)

theorem Kept.setPeer {l : Nat} {x : Peer} : Kept s₀ (s.setPeer l x) := h

theorem Kept.sendFlit {l kind stake epoch : Nat} : Kept s₀ (s.sendFlit l kind stake epoch) :=
  Kept.ite h (Kept.ite h.addO h).setPeer

theorem Kept.sendStart {n : Nat} : Kept s₀ (s.sendStart n) := Kept.ite (h.applyAll (fun _ _ ht => ht.sendFlit)) h

theorem Kept.nextOn {n : Nat} : Kept s₀ (s.nextOn n) := by
  simp only [State.nextOn]
  split
  · exact h.setStake
  · exact h.setStake.setStep.upd.sendStart

theorem Kept.leaveStake {k : Nat} : Kept s₀ (s.leaveStake k) := Kept.ite h (Kept.ite h.setStake.nextOn h.setStake)

theorem Kept.dropStep {k : Nat} : Kept s₀ (s.dropStep k) := by
  simp only [State.dropStep]
  exact h.leaveStake.upd

theorem Kept.abandonStep {k : Nat} {fault : Bool} : Kept s₀ (s.abandonStep k fault) := by
  unfold State.abandonStep
  extract_lets t issued s₁ s₂ s₃ s₄ t₁ s₅ rows
  have h₁ : Kept s₀ s₁ := .ite h.abandonOn.addO.took.chargeCourse h
  have h₂ : Kept s₀ s₂ := .ite h₁.bumpEpoch h₁
  have h₄ : Kept s₀ s₄ := h₂.discardRows.leaveStake
  have h₅ : Kept s₀ s₅ := .ite (h₄.applyAll fun _ _ ht => .ite ht.setReq ht) h₄
  exact .ite h (.ite (h₅.upd.applyAll fun _ _ ht => ht.endReq) (.ite h₅.upd h₅.setStep))

theorem Kept.tidySteps : Kept s₀ s.tidySteps :=
  h.applyAll (fun _ _ ht => Kept.ite ht (Kept.ite ht (Kept.ite ht.bumpEpoch.discardRows.dropStep ht.dropStep)))

theorem Kept.failReq {r code : Nat} : Kept s₀ (s.failReq r code) := h.endReq.tidySteps

theorem Kept.indexFailed : Kept s₀ s.indexFailed := (h.setO.applyAll (fun _ _ ht => Kept.ite ht.endReq ht)).tidySteps

theorem Kept.degradeStake {n : Nat} {fault : Bool} : Kept s₀ (s.degradeStake n fault) :=
  Kept.ite h (h.applyAll (fun _ _ ht => ht.abandonStep)).setStake

theorem Kept.degradeWhere {p : Nat → Stake → Bool} {fault : Bool} : Kept s₀ (s.degradeWhere p fault) :=
  h.applyAll (fun _ _ ht => Kept.ite ht.degradeStake ht)

theorem Kept.degradeFor {p : Nat} {counted : Bool} : Kept s₀ (s.degradeFor p counted) := h.degradeWhere

theorem Kept.linkLost {l : Nat} : Kept s₀ (s.linkLost l) := h.degradeWhere

theorem Kept.retireArray {a cause : Nat} : Kept s₀ (s.retireArray a cause) :=
  Kept.ite h (Kept.ite h.setO.degradeWhere h.setO.degradeWhere.faultRec)

theorem Kept.arrayEcc {a : Nat} : Kept s₀ (s.arrayEcc a) := Kept.ite h.setArr.retireArray h.setArr

theorem Kept.failModel {m : Nat} : Kept s₀ (s.failModel m) :=
  (h.setO.record.applyAll (fun _ _ ht => Kept.ite ht.endReq ht)).applyAll (fun _ _ ht1 => Kept.ite ht1.abandonStep.dropStep ht1)

theorem Kept.instrFault {a r ep code word : Nat} : Kept s₀ (s.instrFault a r ep code word) := by
  simp only [State.instrFault]
  split
  · exact h
  · exact Kept.ite h.faultRec.failModel h.faultRec.setModel.abandonStep

theorem Kept.checkFailed {a r ep rows : Nat} : Kept s₀ (s.checkFailed a r ep rows) := by
  simp only [State.checkFailed]
  split
  · exact Kept.ite h.addO.setArr.retireArray h.addO.setArr
  · exact Kept.ite h.addO.setArr.setStep.fault1.abandonStep.retireArray h.addO.setArr.setStep.fault1.abandonStep

theorem Kept.homeLost {p : Nat} : Kept s₀ (s.homeLost p) := by
  unfold State.homeLost
  extract_lets qs rs lost s₁ s₂ s₃ s₄
  have h₁ : Kept s₀ s₁ := h.applyAll fun _ _ ht => .ite ht.abandonStep ht
  have h₂ : Kept s₀ s₂ := h₁.applyAll fun _ _ ht => .ite ht.upd.subO ht
  have h₃ : Kept s₀ s₃ := h₂.applyAll fun _ _ ht => ht.failReq
  have h₄ : Kept s₀ s₄ := h₃.applyAll fun _ _ ht => ht.applyAll fun _ _ ht => .ite ht ht.kvFree
  exact h₄.applyAll fun _ _ ht => .ite ht ht.setStep

theorem Kept.featLost {r p : Nat} : Kept s₀ (s.featLost r p) := Kept.ite h h.setReq

theorem Kept.failPage {p cls : Nat} : Kept s₀ (s.failPage p cls) := by
  unfold State.failPage
  extract_lets x s₁ s₂ s₃ s₄ m
  have h₁ : Kept s₀ s₁ := h.untier
  have h₂ : Kept s₀ s₂ := .ite h₁.homeLost h₁
  have h₃ : Kept s₀ s₃ := .ite (h₂.applyAll fun _ _ ht => .ite (.featLost (ht.applyAll fun _ _ ht => .ite ht.abandonStep ht)) ht) h₁
  have h₄ : Kept s₀ s₄ := h₃.putPage.wipePage
  refine .ite h.putPage (.ite h₄.upd (.ite ?_ h₄))
  split
  next e => exact h₄.takePage e
  · exact h₄

theorem Kept.failStack {h₁ cls : Nat} : Kept s₀ (s.failStack h₁ cls).1 := h.applyAll (fun _ _ ht => ht.failPage)

theorem Kept.placeHome {a r : Nat} {p : Plan} {t : State} (e : s.placeHome a r p = some t) : Kept s₀ t := by
  simp only [State.placeHome] at e
  split at e
  · cases e
  next e₁ =>
    split at e <;> cases e
    next e₂ => exact ((h.claimGrans e₁).claimGrans e₂).setRes

theorem Kept.sliceBack {a : Nat} : Kept s₀ (s.sliceBack a) := by
  simp only [State.sliceBack]
  refine h.applyAll (fun _ _ ht => ?_)
  split
  · split
    next _ e1 => exact (ht.placeHome e1).setRes
    · exact ht
  · exact ht

theorem Kept.sliceLost {a : Nat} : Kept s₀ (s.sliceLost a) := by
  simp only [State.sliceLost]
  exact ((h.applyAll (fun _ _ ht => Kept.ite ht.dropGran (Kept.ite ht.cancelMigr ht.putGran.wipeGran))).applyAll
    (fun _ _ ht1 => Kept.ite ht1.setRes ht1)).upd

theorem Kept.arrLost {a : Nat} : Kept s₀ (s.arrLost a) := h.setArr

theorem Kept.coresLost {lo n : Nat} : Kept s₀ (s.coresLost lo n) := h

theorem Kept.diceLost {u : Nat} : Kept s₀ (s.diceLost u) := by
  simp only [State.diceLost]
  refine (Kept.ite (h.applyAll (fun _ _ ht => ?_)) h).upd
  split
  · exact Kept.ite ht.abandonStep ht
  · exact ht

theorem Kept.dropReq {r : Nat} : Kept s₀ (s.dropReq r) := by
  simp only [State.dropReq]
  exact h.release.upd

theorem Kept.rimLost {rs : Bool} : Kept s₀ (s.rimLost rs) := by
  simp only [State.rimLost]
  exact Kept.ite ((h.applyAll (fun _ _ ht => Kept.ite ht.dropReq ht)).applyAll
    (fun _ _ ht1 => Kept.ite ht1.freeBuf ht1)).coresLost.upd.tidySteps ((h.applyAll (fun _ _ ht2 => Kept.ite ht2.dropReq ht2)).applyAll
    (fun _ _ ht3 => Kept.ite ht3.freeBuf ht3)).coresLost.upd.addO.tidySteps

theorem Kept.spokesBack {lo n : Nat} : Kept s₀ (s.spokesBack lo n) := h

theorem Kept.partsLost {p : Nat} : Kept s₀ (s.partsLost p) := by
  simp only [State.partsLost]
  exact Kept.ite (Kept.ite h.arrLost (Kept.ite h.sliceLost (Kept.ite h.coresLost (Kept.ite (Kept.ite h h.failStack).upd ((h.applyAll
    (fun _ _ ht => ht.diceLost.setO)).applyAll (fun _ _ ht1 => ht1.setDice)).upd)))) (Kept.ite h.rimLost (Kept.ite h.rimLost
    (Kept.ite h.spokesBack (Kept.ite h.upd (Kept.ite h.upd (Kept.ite h.spokesBack (Kept.ite h.upd.setO (h.upd.applyAll
    (fun _ _ ht2 => ht2.setO.setO)))))))))

theorem Kept.partCleared {kind unit : Nat} : Kept s₀ (s.partCleared kind unit) := by
  simp only [State.partCleared]
  split
  · exact h.diceLost
  · refine (h.applyAll (fun _ _ ht => ?_)).upd
    split
    · exact Kept.ite ht.abandonStep ht
    · exact ht
  · exact h.upd
  · exact h.spokesBack
  · exact h.coresLost
  · exact h

theorem Kept.mainLost : Kept s₀ s.mainLost := by
  unfold State.mainLost
  dsimp only
  refine Kept.setO (Kept.addO ⟨?_, ?_⟩)
  · dsimp only
    refine (Kept.applyAll ?_ ?_ : Kept s₀ _).1
    · split
      · exact .ite h.endSession h.endSession.dropSeg.setPath
      · exact h.endSession
    · intro _ _ ht
      exact .ite ht.addO ht
  · intro
    rfl

theorem Kept.setPdState {p st : Nat} : Kept s₀ (s.setPdState p st) :=
  Kept.ite (h.setO.addO.applyAll (fun _ _ ht => Kept.ite ht.post ht)) h.setO

theorem Kept.setLedger {d : Nat} {l : Ledger} : Kept s₀ (s.setLedger d l) := by
  simp only [State.setLedger]
  exact h.upd.setO

theorem Kept.enqueue {d : Nat} {r : WakeReq} : Kept s₀ (s.enqueue d r) := Kept.ite h h.setLedger

theorem Kept.requestWake {n p order : Nat} {rank : List Nat} : Kept s₀ (Machine.requestWake n s p order rank) := by
  induction n generalizing s p with
  | zero => exact h
  | succ n ih =>
    simp only [Machine.requestWake]
    exact .ite h (.ite h.setPd (.ite (h.applyAll fun _ _ ht => ih ht).setPdState.enqueue h))

theorem Kept.wake {p order : Nat} {rank : List Nat} : Kept s₀ (s.wake p order rank) := h.requestWake

theorem Kept.askRamp {a : Nat} {rank : List Nat} : Kept s₀ (s.askRamp a rank) := Kept.ite h.enqueue h

theorem Kept.execWakeGrant {d : Fin 6} {t : Nat} : Answers s₀ (execWakeGrant d t s) := by
  simp only [Machine.execWakeGrant]
  refine .next ?_
  split
  · exact h
  · exact Kept.ite h (Kept.ite h.upd.setLedger.addO.setPdState.setPdState h.upd.setLedger.addO.setPdState)

theorem Kept.execRampUpGrant {d : Fin 6} {t : Nat} : Answers s₀ (execRampUpGrant d t s) := by
  simp only [Machine.execRampUpGrant]
  refine .next ?_
  split
  · exact h
  · exact Kept.ite h h.upd.setLedger.addO.setArr

theorem Kept.toReset {p : Nat} : Kept s₀ (s.toReset p) := Kept.ite h.degradeFor.partsLost.setPd.setPdState (Kept.ite h.setPd h)

theorem Kept.resetNow {p : Nat} : Kept s₀ (s.resetNow p) :=
  (Kept.ite (h.applyAll (fun _ _ ht => ht.toReset)) (Kept.ite (h.applyAll (fun _ _ ht1 => ht1.toReset)) h)).toReset

theorem Kept.quiesce {p reason : Nat} : Kept s₀ (s.quiesce p reason) := Kept.ite (Kept.ite h h.degradeFor).setPd.setPdState h

theorem Kept.powerDown {p : Nat} : Kept s₀ (s.powerDown p) := Kept.ite h.quiesce.quiesce h.quiesce

theorem Kept.offNow {p : Nat} : Kept s₀ (s.offNow p) :=
  Kept.ite (Kept.ite h.degradeFor.partsLost.setPdState.setPdState h.degradeFor.partsLost.setPdState) h

theorem Kept.wakePending {p : Nat} : Kept s₀ (s.wakePending p) := Kept.ite h.setPd.wake h

theorem Kept.execQuiesceComplete {p : Fin 98} : Answers s₀ (execQuiesceComplete p s) :=
  .next (h.guardS (Kept.ite (Kept.ite (Kept.ite h h.setPdState) (Kept.ite h.partsLost.setPdState.setPd.setPdState
    h.partsLost.setPdState.setPd).wakePending) h.toReset))

theorem Kept.execDomainReset {p : Fin 98} {orderly : Bool} : Answers s₀ (execDomainReset p orderly s) :=
  .next (Kept.ite h.quiesce h.resetNow)

theorem Kept.execDomainResetComplete {p : Fin 98} : Answers s₀ (execDomainResetComplete p s) :=
  .next (h.guardS h.setPd.setPdState.enqueue)

theorem Kept.execWakeComplete {p : Fin 98} : Answers s₀ (execWakeComplete p s) :=
  .next (h.guardS (Kept.ite (Kept.ite (Kept.ite h.setPdState.setPd.setArr.askRamp h.setPdState.setPd.setArr)
    (Kept.ite h.setPdState.setPd.sliceBack h.setPdState.setPd)).toReset (Kept.ite
    (Kept.ite h.setPdState.setPd.setArr.askRamp h.setPdState.setPd.setArr) (Kept.ite h.setPdState.setPd.sliceBack h.setPdState.setPd))))

theorem Kept.execDomainFailure {p : Fin 98} {attempt : Bool} : Answers s₀ (execDomainFailure p attempt s) :=
  .next (Kept.ite h (Kept.ite h (Kept.ite h.setPd (Kept.ite (Kept.ite (h.applyAll (fun _ _ ht => ht.toReset)).degradeFor.partsLost
    (h.applyAll (fun _ _ ht1 => ht1.toReset))).setLedger.setPdState.indexFailed (Kept.ite (h.applyAll
    (fun _ _ ht2 => ht2.toReset)).degradeFor.partsLost (h.applyAll (fun _ _ ht3 => ht3.toReset))).setLedger.setPdState).fault1)))

theorem Kept.execHangWatchdog {init target : Fin 98} : Answers s₀ (execHangWatchdog init target s) :=
  .next (h.guardS h.addO.resetNow.fault1)

theorem Kept.execPartReset {kind : Fin 9} {unit ns : Nat} : Answers s₀ (execPartReset kind unit ns s) := by
  simp only [Machine.execPartReset]
  exact .next (h.upd.partCleared.fault1)

theorem Kept.execIdlePowerDown {p : Fin 98} : Answers s₀ (execIdlePowerDown p s) :=
  .next (h.guardS (Kept.ite (h.guardS h.powerDown) (h.guardS h.powerDown)))

theorem Kept.execRampComplete {a : Fin 32} : Answers s₀ (execRampComplete a s) := by
  simp only [Machine.execRampComplete]
  refine .next ?_
  split
  · exact h.setArr
  · exact Kept.ite h.setArr h.setArr.askRamp
  · exact h

theorem Kept.execRampDownStart {a : Fin 32} {bubbles : Nat} : Answers s₀ (execRampDownStart a bubbles s) :=
  .next (h.guardS h.setArr)

theorem Kept.restartHistory {i : Nat} : Kept s₀ (s.restartHistory i) := by
  simp only [State.restartHistory]
  exact h.upd.resetO

theorem Kept.execAclkChange {d : Fin 4} : Answers s₀ (execAclkChange d s) :=
  .next (Kept.ite h.setO (h.setO.applyAll (fun _ _ ht => ht.restartHistory)))

theorem Kept.execFastPowerComparator {avgW : Nat} : Answers s₀ (execFastPowerComparator avgW s) := by
  simp only [Machine.execFastPowerComparator]
  exact .next (h.guardS h.upd)

theorem Kept.execThrottleAssert : Answers s₀ (execThrottleAssert s) := by
  simp only [Machine.execThrottleAssert]
  exact .next (h.guardS h.upd.setO.addO)

theorem Kept.execThrottleDeassert : Answers s₀ (execThrottleDeassert s) := by
  simp only [Machine.execThrottleDeassert]
  exact .next (h.guardS h.upd.setO)

theorem Kept.powerLimitUpdate {tAvg : Int} : Kept s₀ (s.powerLimitUpdate tAvg) := h.setO

theorem Kept.powerCapStep : Kept s₀ s.powerCapStep := by
  simp only [State.powerCapStep]
  exact Kept.ite h.upd (Kept.ite (Kept.ite h.upd h.upd) h.upd)

theorem Kept.interlockRec {closed : Bool} : Kept s₀ (s.interlockRec closed) := h.record

theorem Kept.execCoolantInterlockOpen {flow : Nat} : Answers s₀ (execCoolantInterlockOpen flow s) :=
  .next (h.guardS h.setO.setO.addO.interlockRec)

theorem Kept.execCoolantInterlockClose {flow : Nat} : Answers s₀ (execCoolantInterlockClose flow s) := by
  simp only [Machine.execCoolantInterlockClose]
  exact .next (h.guardS h.setO.setO.upd.interlockRec)

theorem Kept.execInterlockOpenTimeout : Answers s₀ (execInterlockOpenTimeout s) := by
  simp only [Machine.execInterlockOpenTimeout]
  exact .next (h.guardS (h.applyAll (fun _ _ ht => Kept.ite ht.degradeFor.powerDown ht)).upd)

theorem Kept.execInletOverMax {temp : Int} : Answers s₀ (execInletOverMax temp s) := by
  simp only [Machine.execInletOverMax]
  exact .next (h.guardS h.setO.upd.addO.interlockRec)

theorem Kept.execInletTempRecovered {temp : Int} : Answers s₀ (execInletTempRecovered temp s) := by
  simp only [Machine.execInletTempRecovered]
  exact .next (h.guardS h.setO.upd)

theorem Kept.tripCount : Kept s₀ s.tripCount := by
  simp only [State.tripCount]
  exact h.upd.addO

theorem Kept.execThermalTripDie {d : Fin 4} {temp : Int} : Answers s₀ (execThermalTripDie d temp s) := by
  simp only [Machine.execThermalTripDie]
  exact .next (h.guardS (h.setO.applyAll (fun _ _ ht => ht.offNow)).upd.tripCount)

theorem Kept.execThermalTripClear {d : Fin 4} {temp : Int} : Answers s₀ (execThermalTripClear d temp s) := by
  simp only [Machine.execThermalTripClear]
  exact .next (h.guardS h.setO.upd)

theorem Kept.execThermalTripModule {d : Fin 6} {temp : Int} : Answers s₀ (execThermalTripModule d temp s) := by
  simp only [Machine.execThermalTripModule]
  exact .next (h.guardS h.setO.tripCount.record.mainLost.upd.setO)

theorem Kept.execEthernetLinkDown {port : Fin 2} : Answers s₀ (execEthernetLinkDown port s) := .next h

theorem Kept.execEthernetLinkUp {port : Fin 2} : Answers s₀ (execEthernetLinkUp port s) := by
  simp only [Machine.execEthernetLinkUp]
  exact .next (h.guardS h.upd)

theorem Kept.interrupted {ns : Nat} : Kept s₀ (s.interrupted ns) := h.setO

theorem Kept.retryCount {pk l : Nat} : Kept s₀ (s.retryCount pk l) := by
  simp only [State.retryCount]
  exact Kept.ite h.upd.faultRec h.upd

theorem Kept.execSpineFlitResend {inst ns : Nat} : Answers s₀ (execSpineFlitResend inst ns s) := .next h.retryCount.fault1

theorem Kept.execD2dFlitRetry {inst ns : Nat} : Answers s₀ (execD2dFlitRetry inst ns s) := .next h.addO.retryCount.interrupted

theorem Kept.execLinkLaneRepair {inst module lane spare ns : Nat} : Answers s₀ (execLinkLaneRepair inst module lane spare ns s) := by
  simp only [Machine.execLinkLaneRepair]
  exact .next (Kept.ite h.upd.fault1 (Kept.ite h.upd.linkLost.fault1 h.upd.fault1))

/-! ### Spine, arrays, slots and instructions -/

theorem Kept.acceptBundle {a h₁ : Nat} {ws : List Nat} : Kept s₀ (s.acceptBundle a h₁ ws) := by
  simp only [State.acceptBundle]
  refine Kept.ite (Kept.ite h.postStatus h.postStatus.instrFault) (Kept.ite (Kept.ite h.postStatus h.postStatus.instrFault) ?_)
  split
  · exact Kept.ite h.postStatus h.postStatus.instrFault
  · split
    · exact Kept.ite h.postStatus h.postStatus.instrFault
    · exact Kept.ite h.setArr.askRamp h.setArr

theorem Kept.portWord {a c w : Nat} : Kept s₀ (s.portWord a c w) := by
  simp only [State.portWord]
  refine Kept.ite h ?_
  split
  · exact Kept.ite h (Kept.ite h.acceptBundle h.setArr)
  · exact Kept.ite (Kept.ite h.setArr h.setArr.acceptBundle) (Kept.ite h.postStatus h)

theorem Kept.postWrite {t off bytes w : Nat} : Kept s₀ (s.postWrite t off bytes w) := Kept.ite (Kept.ite h.post h) h.addO

theorem Kept.doAccess {c : Nat} {acc : Access} : Kept s₀ (s.doAccess c acc) := by
  simp only [State.doAccess]
  split
  · exact h.portWord
  · exact Kept.ite h.portWord h.addO
  · exact h.postWrite

theorem Kept.access {c : Nat} {acc : Access} : Kept s₀ (s.access c acc) := Kept.ite h (Kept.ite h.doAccess h.setCore)

theorem Kept.prepare {a r : Nat} {ds kv : List (Nat × Nat)} {fill : List (Nat × List Byte)} : Kept s₀ (s.prepare a r ds kv fill) :=
  Kept.ite h (h.setRes.applyAll (fun _ _ ht => ht.putRes))

theorem Kept.execBundle {a : Fin 32} {c : Fin 144} {w : Nat} {ds kv : List (Nat × Nat)} {fill : List (Nat × List Byte)} : Answers s₀
    (execBundle a c w ds kv fill s) :=
  .next h.prepare.access

theorem Kept.execBundleWordWrite {a : Fin 32} {c : Fin 144} {bytes w : Nat} : Answers s₀ (execBundleWordWrite a c bytes w s) :=
  .next h.access

theorem Kept.execBundlePortTimeout {a : Fin 32} : Answers s₀ (execBundlePortTimeout a s) := by
  simp only [Machine.execBundlePortTimeout]
  refine .next ?_
  split
  · exact h
  · exact h.setArr.postStatus

theorem Kept.execBundleComplete {a : Fin 32} {key : Nat} : Answers s₀ (execBundleComplete a key s) := by
  simp only [Machine.execBundleComplete]
  refine .next ?_
  split
  · exact h
  · exact h.setArr.postStatus

theorem Kept.wordFault {a : Nat} {q : QWord} {code : Nat} : Kept s₀ (s.wordFault a q code) := h.endBundle.instrFault

theorem Kept.touchPieces {a : Nat} {ps : List (Nat × Nat)} : Kept s₀ (s.touchPieces a ps) := by
  simp only [State.touchPieces]
  refine h.applyAll (fun _ _ ht => ?_)
  split
  · exact ht.touchPage.touchGran
  · exact ht.touchPage

theorem Kept.readVecs {a : Nat} {q : QWord} : Kept s₀ (s.readVecs a q) := h.touchPieces

theorem Kept.fetchVecs {a : Nat} {q : QWord} : Kept s₀ (s.fetchVecs a q) := Kept.ite h h.setArr.addO.addO

theorem Kept.finishLoad {a : Nat} {q : QWord} : Kept s₀ (s.finishLoad a q) := by
  simp only [State.finishLoad]
  split
  · exact h.touchPieces.setArr
  · exact Kept.ite h.touchPieces.wordFault h.touchPieces.setArr
  · exact h.touchPieces.setArr

theorem Kept.startLoad {a op : Nat} : Kept s₀ (s.startLoad a op) := by
  simp only [State.startLoad]
  split
  · exact h
  · exact Kept.ite h (Kept.ite h.setArr.finishLoad h.setArr.addO.addO)

theorem Kept.execTload {a : Fin 32} : Answers s₀ (execTload a s) := .next h.startLoad

theorem Kept.execFeed {a : Fin 32} : Answers s₀ (execFeed a s) := .next h.startLoad

theorem Kept.execSkld {a : Fin 32} : Answers s₀ (execSkld a s) := .next h.startLoad

theorem Kept.execFetchComplete {a : Fin 32} : Answers s₀ (execFetchComplete a s) := by
  simp only [Machine.execFetchComplete]
  refine .next ?_
  split
  · exact h
  · exact Kept.ite h.setArr (Kept.ite h h.setArr.finishLoad)

theorem Kept.emitRow {a : Nat} {q : QWord} {o m : Nat} {sr : Bool} {ys : List FP32} : Kept s₀ (s.emitRow a q o m sr ys) :=
  h.draws.writeRow.setArr.addO

theorem Kept.finalRow {a : Nat} {q : QWord} {o row m : Nat} {bf16 sr : Bool} {bias : List FP32} : Kept s₀
    (s.finalRow a q o row m bf16 sr bias).1 :=
  h.setArr.addO.emitRow

theorem Kept.mmaRows {a : Nat} {q : QWord} {x : SHalf} {t : Tile} {sk : SkHalf} {fl : List (Nat × Nat)} :
    Kept s₀ (s.mmaRows a q x t sk fl) := by
  simp only [State.mmaRows]
  refine .ite (.setArr (.applyAllFst h.rngDone ?_)) (.checkFailed (.setArr (.applyAllFst h.rngDone ?_)))
  all_goals
    intro _ _ ht
    split
    · exact ht.setArr.upd
    · split
      · exact ht.setArr.finalRow
      · exact ht.setArr

theorem Kept.execMma {a : Fin 32} {upsets : List (Nat × Nat)} : Answers s₀ (execMma a upsets s) := by
  simp only [Machine.execMma]
  refine .next ?_
  split
  · exact h
  · refine Kept.ite h.wordFault (Kept.ite h (Kept.ite h (Kept.ite h (Kept.ite h ?_))))
    split
    · exact h
    · exact Kept.ite h.readVecs.setArr.mmaRows h.fetchVecs
    · exact Kept.ite h.readVecs.setArr.mmaRows h.fetchVecs

theorem Kept.importRows {a : Nat} {q : QWord} : Kept s₀ (s.importRows a q) := by
  simp only [State.importRows]
  refine .ite (.setArr (.applyAllFst h.setArr ?_)) (.checkFailed (.setArr (.applyAllFst h.setArr ?_)))
  all_goals
    intro _ _ ht
    split
    · exact ht.setArr.finalRow
    · exact ht.setArr

theorem Kept.execImport {a : Fin 32} : Answers s₀ (execImport a s) := by
  simp only [Machine.execImport]
  refine .next ?_
  split
  · exact h
  · exact Kept.ite h.wordFault (Kept.ite h (Kept.ite h.readVecs.importRows h.fetchVecs))

theorem Kept.execEstate {a : Fin 32} : Answers s₀ (execEstate a s) := by
  simp only [Machine.execEstate]
  refine .next ?_
  split
  · exact h
  · exact h.setArr

theorem Kept.execSmres {a : Fin 32} : Answers s₀ (execSmres a s) := by
  simp only [Machine.execSmres]
  refine .next ?_
  split
  · exact h
  · exact h.setArr

theorem Kept.execNorm {a : Fin 32} : Answers s₀ (execNorm a s) := by
  simp only [Machine.execNorm]
  refine .next ?_
  split
  · exact h
  · exact Kept.ite h (Kept.ite h.fetchVecs (h.readVecs.rngDone.setArr.applyAll (fun _ _ ht => ht.draws.writeRow.setArr.addO)))

theorem Kept.execTksub {a : Fin 32} : Answers s₀ (execTksub a s) := by
  simp only [Machine.execTksub]
  refine .next ?_
  split
  · exact h
  · exact Kept.ite h h.setArr.addO

theorem Kept.execTopkJobComplete {a : Fin 32} {c : Fin 4} : Answers s₀ (execTopkJobComplete a c s) := by
  simp only [Machine.execTopkJobComplete]
  refine .next ?_
  split
  · exact h
  · exact Kept.ite h h.putRes.setArr

theorem Kept.execWait {a : Fin 32} : Answers s₀ (execWait a s) := by
  simp only [Machine.execWait]
  refine .next ?_
  split
  · exact h
  · exact Kept.ite h h.setArr

theorem Kept.execSignal {a : Fin 32} : Answers s₀ (execSignal a s) := by
  simp only [Machine.execSignal]
  refine .next ?_
  split
  · exact h
  · exact Kept.ite h h.setArr.upd

theorem Kept.execFence {a : Fin 32} : Answers s₀ (execFence a s) := by
  simp only [Machine.execFence]
  refine .next ?_
  split
  · exact h
  · exact Kept.ite h (Kept.ite h.setArr.post h.setArr)

theorem Kept.increment {t : Nat} {i : Incr} : Kept s₀ (s.increment t i) := Kept.ite h.addO h.setArr

theorem Kept.execInstructionComplete {a : Fin 32} {n : Nat} : Answers s₀ (execInstructionComplete a n s) := by
  simp only [Machine.execInstructionComplete]
  refine .next ?_
  split
  · exact h
  · refine Kept.ite h ?_
    split
    · exact h.setArr.increment
    · exact h.setArr

theorem Kept.execSyncIncrementArrival {n : Nat} : Answers s₀ (execSyncIncrementArrival n s) := by
  simp only [Machine.execSyncIncrementArrival]
  refine .next ?_
  split
  · exact h
  · exact Kept.ite h.upd.increment h.upd.addO

theorem Kept.execAbandon {a : Fin 32} {r : Fin 4} {epoch : Nat} : Answers s₀ (execAbandon a r epoch s) :=
  .next (h.guardS h.abandonArr)

theorem Kept.execWaitLimit {a : Fin 32} {beats : Nat} : Answers s₀ (execWaitLimit a beats s) := by
  simp only [Machine.execWaitLimit]
  refine .next ?_
  split
  · exact h
  · refine Kept.ite h ?_
    split
    · exact h.endBundle.faultRec.abandonStep
    · exact h.endBundle.faultRec

theorem Kept.execEccFault {a : Fin 32} {mem : Fin 3} {key addr : Nat} : Answers s₀ (execEccFault a mem key addr s) :=
  .next (h.guardS h.addO.endBundle.degradeFor.fault1.arrayEcc.resetNow)

theorem Kept.execSpineOwnerWrite {c : Fin 144} {v : Nat} : Answers s₀ (execSpineOwnerWrite c v s) := by
  simp only [Machine.execSpineOwnerWrite]
  refine .next ?_
  refine h.guardS ?_
  split
  · exact Kept.ite h.setCore.setCore.doAccess h.setCore
  · exact h.setCore

theorem Kept.execCoreHoldLimit {c : Fin 144} : Answers s₀ (execCoreHoldLimit c s) := .next (h.guardS h.setCore)

theorem Kept.execMboxPop {c : Fin 146} {n : Fin 8} : Answers s₀ (execMboxPop c n s) := .next h.setMbox

theorem Kept.execMboxStatusWrite {c : Fin 146} {n : Fin 8} {v : Nat} : Answers s₀ (execMboxStatusWrite c n v s) := by
  simp only [Machine.execMboxStatusWrite]
  refine .next ?_
  refine Kept.ite (h.setMbox.applyAll (fun _ _ ht => ?_)) h.setMbox
  split
  · exact Kept.ite ht.abandonStep ht
  · exact ht

theorem Kept.execPostWindowWrite {c t : Fin 144} {off bytes w : Nat} : Answers s₀ (execPostWindowWrite c t off bytes w s) :=
  .next h.access

theorem Kept.keeperReset {k : Nat} : Kept s₀ (s.keeperReset k) := by
  simp only [State.keeperReset]
  exact (Kept.ite h.setKeeper.breakLock h.setKeeper).upd.addO

theorem Kept.execKeeperHeartbeat {k : Fin 2} {w : Nat} : Answers s₀ (execKeeperHeartbeat k w s) := .next (h.guardS h.setKeeper)

theorem Kept.execKeeperHeartbeatMiss {k : Fin 2} : Answers s₀ (execKeeperHeartbeatMiss k s) := by
  simp only [Machine.execKeeperHeartbeatMiss]
  exact .next (h.guardS h.keeperReset.setKeeper.addO.setO.upd.record)

theorem Kept.execKeeperDualTimeout : Answers s₀ (execKeeperDualTimeout s) :=
  .next (h.guardS (h.keeperReset.keeperReset.applyAll (fun _ _ ht => ht.record)))

theorem Kept.execLiveTableError {kind inst : Nat} {slot : Fin 256} : Answers s₀ (execLiveTableError kind inst slot s) := by
  simp only [Machine.execLiveTableError]
  refine .next ?_
  refine Kept.ite h (h.upd.addO.applyAll (fun _ _ ht => ?_))
  split
  · exact ht.abandonStep
  · exact ht

theorem Kept.execLiveTableReloadDone {kind inst ns : Nat} : Answers s₀ (execLiveTableReloadDone kind inst ns s) := by
  simp only [Machine.execLiveTableReloadDone]
  exact .next (Kept.ite h h.upd.fault1)

theorem Kept.execSlotLedgerError {addr : Nat} : Answers s₀ (execSlotLedgerError addr s) := by
  simp only [Machine.execSlotLedgerError]
  exact .next (h.guardS h.upd.addO.fault1)

theorem Kept.execSlotLedgerRebuilt : Answers s₀ (execSlotLedgerRebuilt s) := by
  simp only [Machine.execSlotLedgerRebuilt]
  exact .next (h.guardS h.upd)

theorem Kept.setStoreObj {n : Nat} {x : StoreObj} : Kept s₀ (s.setStoreObj n x) := h

theorem Kept.measure {slot event digest object info : Nat} : Kept s₀ (s.measure slot event digest object info) := by
  simp only [State.measure]
  exact h.setO.upd.setO

theorem Kept.slotRefused {model : Nat} {f : SlotFail} : Kept s₀ (s.slotRefused model f) := h.setO.addO.record

theorem Kept.loadRefused {m reason : Nat} : Kept s₀ (s.loadRefused m reason) := h.setO.setO.setModel.record

theorem Kept.claimAll {owner home : Nat} {as : List Nat} {t : State} (e : Machine.claimAll owner home as s = some t) : Kept s₀ t := by
  induction as generalizing s with
  | nil => cases e; exact h
  | cons a as ih =>
    simp only [Machine.claimAll] at e
    split at e
    · cases e
    next e₁ => exact ih (h.claimGrans e₁) e

theorem Kept.takeStake {m ps : Nat} {p : Plan} : Kept s₀ (s.takeStake m ps p) :=
  h.setStake.setO.applyAllFst (fun _ _ ht => Kept.iteFst ht ht.setRes)

theorem Kept.pinTiles {n owner : Nat} {is : List Nat} {t : State} (e : Machine.pinTiles n owner is s = some t) : Kept s₀ t := by
  induction is generalizing s with
  | nil => cases e; exact h
  | cons i is ih =>
    simp only [Machine.pinTiles] at e
    split at e
    · cases e
    next e₁ =>
      refine ih ((h.takePage e₁).applyAll fun _ _ ht => ?_) e
      split
      · exact ht.setRes
      · exact ht

set_option maxRecDepth 2000 in
theorem Kept.unloadModel {m : Nat} : Kept s₀ (s.unloadModel m) := by
  simp only [State.unloadModel]
  refine Kept.upd (Kept.setModel (Kept.setO (Kept.resetO (Kept.applyAll (h.applyAll fun _ _ ht => ?_) fun _ _ ht =>
    .ite (ht.freeObject.applyAll fun _ _ ht₁ => ht₁.resetO) ht))))
  refine Kept.setStake (Kept.upd (ht.freeObject.applyAll fun _ _ ht₁ => ?_))
  split
  · exact .ite (ht₁.applyAll fun _ _ ht₂ => .ite ht₂.putGran.wipeGran ht₂).setArr.setRes
      (ht₁.applyAll fun _ _ ht₂ => .ite ht₂.putGran.wipeGran ht₂).setArr
  · exact ht₁

theorem Kept.pinTiles_foldl {owner n : Nat} {ns : List Nat} {t : State} (e : ns.foldl (fun (acc : Option State) k => match acc with
    | some u => Machine.pinTiles k owner (List.range n) u
    | none => none) (some s) = some t) : Kept s₀ t := by
  induction ns generalizing s with
  | nil => cases e; exact h
  | cons k ns ih =>
    rw [List.foldl_cons] at e
    cases hp : Machine.pinTiles k owner (List.range n) s with
    | none =>
      simp only [hp] at e
      rw [List.foldl_fixed' (fun _ => rfl)] at e
      cases e
    | some u =>
      simp only [hp] at e
      exact ih (h.pinTiles hp) e

theorem Kept.takeLoad {m : Nat} {p : Plan} {t : State} (e : s.takeLoad m p = some t) : Kept s₀ t :=
  (h.applyAll fun _ _ ht => ht.takeStake).pinTiles_foldl e

theorem Kept.execModelLoad {m : Fin 64} {x : PlanX} : Answers s₀ (execModelLoad m x s) := by
  simp only [Machine.execModelLoad]
  refine .next ?_
  refine h.guardS (Kept.ite h.loadRefused ?_)
  split
  · exact h.loadRefused
  · refine Kept.ite h.loadRefused (Kept.ite (Kept.ite h.addO h).loadRefused ?_)
    split
    · exact h.loadRefused
    next _ e => exact (h.takeLoad e).setModel.setO

theorem Kept.execTileCopyComplete {m : Fin 64} {ok : Bool} : Answers s₀ (execTileCopyComplete m ok s) := by
  simp only [Machine.execTileCopyComplete]
  refine .next ?_
  split
  · exact h
  · refine Kept.ite h (Kept.ite h.unloadModel.loadRefused ?_)
    split
    · exact h.slotRefused.unloadModel.loadRefused
    · exact (h.applyAll (fun _ _ ht => ht.fillPages)).setModel

theorem Kept.placeAll {p : Plan} {as : List (Nat × Nat)} {t : State} (e : Machine.placeAll p as s = some t) : Kept s₀ t := by
  induction as generalizing s with
  | nil => cases e; exact h
  | cons a as ih =>
    simp only [Machine.placeAll] at e
    split at e
    · exact ih h e
    · split at e
      · cases e
      next e₁ => exact ih (h.placeHome e₁) e

theorem Kept.execModelLoadCommit {m : Fin 64} : Answers s₀ (execModelLoadCommit m s) := by
  simp only [Machine.execModelLoadCommit]
  refine .next ?_
  split
  · exact h
  · refine .ite h ?_
    split
    · exact h.unloadModel.loadRefused
    next e =>
      refine Kept.measure (Kept.upd (Kept.setO (Kept.setO (Kept.setO (Kept.setO (Kept.setModel ?_))))))
      exact Kept.applyAll (h.placeAll e).upd fun _ _ ht => ht.setStake

theorem Kept.execModelUnload {m : Fin 64} : Answers s₀ (execModelUnload m s) := .next (h.guardS h.setModel.setO)

theorem Kept.execModelUnloadCommit {m : Fin 64} : Answers s₀ (execModelUnloadCommit m s) := .next (h.guardS h.unloadModel)

theorem Kept.execModelClear {m : Fin 64} : Answers s₀ (execModelClear m s) := .next (h.guardS h.unloadModel)

theorem Kept.execModelFail {m : Fin 64} : Answers s₀ (execModelFail m s) := .next (h.guardS h.failModel)

theorem Kept.skeinStatus {m result slot : Nat} {old : Option Nat} : Kept s₀ (s.skeinStatus m result slot old) :=
  Kept.ite h.setO h.setO.setModel.record

theorem Kept.freeSkein {k : Nat} : Kept s₀ (s.freeSkein k) := by
  simp only [State.freeSkein]
  refine (h.freeObject.applyAll (fun _ _ ht => ht.applyAll (fun _ _ ht1 => ?_))).applyAll (fun _ _ ht2 => ht2.resetO)
  split
  · exact ht1.setRes
  · exact ht1

theorem Kept.skeinRefuse {m result : Nat} {c : SkCmd} : Kept s₀ (s.skeinRefuse m result c) :=
  (Kept.ite (Kept.ite h.freeSkein h).addO (Kept.ite h.freeSkein h)).skeinStatus

theorem Kept.skeinTry {m : Nat} {c : SkCmd} : Kept s₀ (s.skeinTry m c) := by
  unfold State.skeinTry
  dsimp only
  split
  · exact Kept.ite h.setModel.skeinStatus h.skeinRefuse
  · refine Kept.ite (Kept.ite h.setModel.skeinStatus h.skeinRefuse) (Kept.ite h.skeinRefuse (Kept.ite h.skeinRefuse ?_))
    split
    · exact Kept.ite h.setModel.skeinStatus h.skeinRefuse
    next e =>
      refine (((h.takePages e).applyAll fun _ _ ht => ht.applyAll fun _ _ ht₁ => ?_).applyAll fun _ _ ht => ht.setO).setModel.skeinStatus
      split
      · exact ht₁.setRes
      · exact ht₁

theorem Kept.execSkeinLoad {m : Fin 64} {pages : Nat} : Answers s₀ (execSkeinLoad m pages s) := by
  simp only [Machine.execSkeinLoad]
  refine .next ?_
  split
  · exact h
  · exact Kept.ite h h.skeinTry

theorem Kept.skeinRetry {m : Nat} : Kept s₀ (s.skeinRetry m) := by
  simp only [State.skeinRetry]
  split
  · exact h
  · exact Kept.ite (Kept.ite h.skeinTry h) h

theorem Kept.execSkeinWaitExpiry {m : Fin 64} : Answers s₀ (execSkeinWaitExpiry m s) := by
  simp only [Machine.execSkeinWaitExpiry]
  refine .next ?_
  split
  · exact h
  · exact Kept.ite h.skeinRefuse h

theorem Kept.execSkeinCopyComplete {m : Fin 64} {ok : Bool} {baseId : Nat} {tiles : List (Nat × Nat)} : Answers s₀
    (execSkeinCopyComplete m ok baseId tiles s) := by
  simp only [Machine.execSkeinCopyComplete]
  refine .next ?_
  split
  · exact h
  · exact Kept.ite h (Kept.ite h.skeinRefuse (Kept.ite h.skeinRefuse h.fillPages.setO.setModel))

theorem Kept.skeinActivate {m : Nat} : Kept s₀ (s.skeinActivate m) := by
  simp only [State.skeinActivate]
  split
  · exact h
  · refine Kept.ite h (Kept.setO ?_).setO.measure.skeinStatus
    split
    · exact h.setO
    · exact h

theorem Kept.execSkeinRemove {m : Fin 64} : Answers s₀ (execSkeinRemove m s) := by
  simp only [Machine.execSkeinRemove]
  refine .next ?_
  split
  · exact h
  · refine Kept.ite h ?_
    split
    · exact h.skeinStatus
    · exact h.setO.skeinStatus

theorem Kept.execSkeinSlotFree {k : Fin 512} : Answers s₀ (execSkeinSlotFree k s) := .next (h.guardS h.freeSkein)

/-! ### Tiers, models, skeins and the vocabulary and grammar slots -/

omit h in
theorem takeOn_none {d cls owner target kind obj n k : Nat} (hp : s.freePageOf d = none) :
    takeOn d cls owner target kind obj (n + 1) k s = none := by
  delta takeOn takeOn._f
  dsimp only [Nat.brecOn, Nat.brecOn.go]
  rw [hp]

omit h in
theorem takeOn_some {d cls owner target kind obj n k p : Nat} (hp : s.freePageOf d = some p) :
    takeOn d cls owner target kind obj (n + 1) k s = takeOn d cls owner target kind obj n (k + 1)
      (s.putPage p { cls := cls, owner := owner, target := target, use := ⟨kind, obj, k⟩ }) := by
  delta takeOn takeOn._f
  dsimp only [Nat.brecOn, Nat.brecOn.go]
  rw [hp]

theorem Kept.takeOn {d cls owner target kind obj n k : Nat} {t : State}
    (e : Machine.takeOn d cls owner target kind obj n k s = some t) : Kept s₀ t := by
  induction n generalizing s k with
  | zero => cases e; exact h
  | succ n ih =>
    cases hp : s.freePageOf d with
    | none => rw [takeOn_none hp] at e; cases e
    | some p => rw [takeOn_some hp] at e; exact ih h.putPage e

theorem Kept.pinImage {owner target kind obj : Nat} {bs : List Byte} {t : State}
    (e : s.pinImage owner target kind obj bs = some t) : Kept s₀ t := by
  simp only [State.pinImage, Option.ite_none_left_eq_some] at e
  obtain ⟨-, e⟩ := e
  split at e
  · cases e
  · obtain ⟨u, e₁, rfl⟩ := Option.map_eq_some_iff.1 e
    exact (h.takeOn e₁).fillPages

theorem Kept.imageRec {kind slot reason : Nat} : Kept s₀ (s.imageRec kind slot reason) := h.record

theorem Kept.setGslot {g : Nat} {x : GSlot} : Kept s₀ (s.setGslot g x) := h

theorem Kept.execVocabLoad {v : Fin 16} {ok : Bool} : Answers s₀ (execVocabLoad v ok s) := by
  refine .next (Kept.ite h (Kept.ite h.setO.setO.imageRec ?_))
  obtain ⟨pin, hp⟩ : ∃ pin, pin = s.pinImage (s.o (Od.vocabOwner v.val)) (s.o (Od.vocabTargetSlice v.val)) 3
    (slotObj v.val ((s.vslot v.val).gen + 1)) := exists_eq
  rw [← hp]
  split
  · exact h.setO.setO.imageRec
  · split
    · exact h.addO.setO.setO.imageRec
    next e => exact Kept.ite h.setO.setO.imageRec (h.pinImage (hp ▸ e)).setVslot.setO

theorem Kept.execVocabLoadDone {v : Fin 16} : Answers s₀ (execVocabLoadDone v s) := by
  simp only [Machine.execVocabLoadDone]
  refine .next ?_
  split
  · exact h
  · exact Kept.ite h (h.freeObject.setVslot.applyAll (fun _ _ ht => ht.setO)).measure

theorem Kept.execVocabClose {v : Fin 16} : Answers s₀ (execVocabClose v s) := .next (h.guardS h.setO)

theorem Kept.execVocabCloseDone {v : Fin 16} : Answers s₀ (execVocabCloseDone v s) :=
  .next (h.guardS (h.freeObject.setVslot.applyAll (fun _ _ ht => ht.resetO)))

theorem Kept.askTokens {r role item : Nat} : Kept s₀ (s.askTokens r role item) := by
  simp only [State.askTokens]
  exact (Kept.ite h h.addO).upd

theorem Kept.putTokens {j : TrieJob} {ts : List Nat} {trunc : Bool} : Kept s₀ (s.putTokens j ts trunc) := h.setReq

theorem Kept.passagesAfter {j : TrieJob} : Kept s₀ (s.passagesAfter j) :=
  Kept.ite h (h.applyAll (fun _ _ ht => Kept.ite ht.askTokens ht))

theorem Kept.execGrammarLoad {g : Fin 64} {ok : Bool} : Answers s₀ (execGrammarLoad g ok s) := by
  refine .next (Kept.ite h (Kept.ite h.setO.setO.imageRec ?_))
  obtain ⟨pin, hp⟩ : ∃ pin, pin = s.pinImage (s.o (Od.grammarOwner g.val)) (s.o (Od.grammarTargetSlice g.val)) 4
    (slotObj g.val ((s.gslot g.val).gen + 1)) := exists_eq
  rw [← hp]
  dsimp only
  split
  · exact h.setO.setO.imageRec
  · split
    · exact h.addO.setO.setO.imageRec
    next e => exact Kept.ite h.setO.setO.imageRec (h.pinImage (hp ▸ e)).setGslot.setO

theorem Kept.execGrammarLoadDone {g : Fin 64} : Answers s₀ (execGrammarLoadDone g s) := by
  simp only [Machine.execGrammarLoadDone]
  refine .next ?_
  split
  · exact h
  · exact Kept.ite h (h.freeObject.setGslot.applyAll (fun _ _ ht => ht.setO)).measure

theorem Kept.execGrammarClose {g : Fin 64} : Answers s₀ (execGrammarClose g s) := .next (h.guardS h.setO)

theorem Kept.execGrammarCloseDone {g : Fin 64} : Answers s₀ (execGrammarCloseDone g s) :=
  .next (h.guardS (h.freeObject.setGslot.applyAll (fun _ _ ht => ht.resetO)))

theorem Kept.recertify {e : Nat × GSlot} : Kept s₀ (s.recertify e) := Kept.ite h h.setO

theorem Kept.execCertificationRecompute : Answers s₀ (execCertificationRecompute s) :=
  .next (h.applyAll (fun _ _ ht => ht.recertify))

theorem Kept.setIndex {x : Index} : Kept s₀ (s.setIndex x) := h

theorem Kept.setList {l : Nat} {y : LList} : Kept s₀ (s.setList l y) := h

theorem Kept.putFill : Kept s₀ s.putFill := h.setO

theorem Kept.spokeEvent {core mb ev sp ctx count page : Nat} : Kept s₀ (s.spokeEvent core mb ev sp ctx count page) := h.post

theorem Kept.programmed {c : Nat} : Kept s₀ (s.programmed c) := h.addO

theorem Kept.recount : Kept s₀ s.recount := h.setO.setO.setO.putFill

theorem Kept.formSide {n : Nat} : Kept s₀ (s.formSide n) := by
  simp only [State.formSide]
  split
  · exact h
  · exact h.setIndex

theorem Kept.formFull {n : Nat} : Kept s₀ (Machine.formFull n s) := by
  induction n generalizing s with
  | zero => exact h
  | succ n ih => exact .ite (ih h.formSide) h

theorem Kept.tryStage {r i : Nat} : Kept s₀ (s.tryStage r i) := by
  simp only [State.tryStage]
  refine Kept.ite h (Kept.ite h.setItem (Kept.ite h ?_))
  split
  · exact h.setItem
  · exact h.setIndex.addO.addO.setItem.formFull

theorem Kept.pumpStaging : Kept s₀ s.pumpStaging :=
  h.applyAll (fun _ _ ht => Kept.ite (ht.applyAll (fun _ _ ht1 => ht1.tryStage)).pumpOutcomes ht)

theorem Kept.itemSettles {r i n : Nat} {f : Item → Item} : Kept s₀ (s.itemSettles r i n f) := Kept.ite h (Kept.ite h.setItem h)

theorem Kept.execSideFlushTimeout : Answers s₀ (execSideFlushTimeout s) := .next (h.guardS h.formSide)

theorem Kept.commitApp {page : Nat} {a : Staging × Nat} : Kept s₀ (s.commitApp page a) :=
  (Kept.ite h.setList.setIndex.addO h.setList.addO).itemSettles

theorem Kept.sideDone {p : SidePage} {core mb : Nat} : Kept s₀ (s.sideDone p core mb) :=
  (Kept.ite (h.setIndex.programmed.applyAll (fun _ _ ht => ht.commitApp)) (h.setIndex.programmed.applyAll
    (fun _ _ ht1 => ht1.commitApp)).programmed).putFill.spokeEvent

theorem Kept.execSidePageProgramDone {n core mb : Nat} : Answers s₀ (execSidePageProgramDone n core mb s) := by
  simp only [Machine.execSidePageProgramDone]
  refine .next ?_
  split
  · exact h
  · exact (h.sideDone.applyAll (fun _ _ ht => ht.pumpOutcomes)).pumpStaging

theorem Kept.closeStripe {t : Nat} : Kept s₀ (s.closeStripe t) := (h.applyAll (fun _ _ ht => ht.programmed)).setIndex.putFill

theorem Kept.execStripeCloseTimeout : Answers s₀ (execStripeCloseTimeout s) := by
  simp only [Machine.execStripeCloseTimeout]
  refine .next ?_
  split
  · exact h
  · exact Kept.ite h h.closeStripe.pumpStaging

theorem Kept.execCheckpoint : Answers s₀ (execCheckpoint s) := .next (h.guardS h.setIndex)

theorem Kept.execTextFlushTimeout : Answers s₀ (execTextFlushTimeout s) := by
  simp only [Machine.execTextFlushTimeout]
  refine .next ?_
  split
  · exact h
  · exact h.guardS h.setIndex

theorem Kept.textDone {g : Nat} : Kept s₀ (s.textDone g) :=
  h.setIndex.programmed.putFill.applyAll (fun _ _ ht => Kept.ite ht.itemSettles ht)

theorem Kept.execTextPageProgramDone {g : Nat} : Answers s₀ (execTextPageProgramDone g s) :=
  .next (h.guardS (h.textDone.applyAll (fun _ _ ht => ht.pumpOutcomes)))

theorem Kept.dictRefused {k reason : Nat} : Kept s₀ (s.dictRefused k reason) := h.setO.setIndex.imageRec

theorem Kept.execTextDictLoad {k : Fin 64} : Answers s₀ (execTextDictLoad k s) :=
  .next (h.guardS (Kept.ite h.setIndex.dictRefused (Kept.ite h.setIndex.dictRefused h.setIndex.setIndex.setO.measure)))

theorem Kept.execTextDictRemove {k : Fin 64} : Answers s₀ (execTextDictRemove k s) := .next (h.guardS h.setIndex.setO)

theorem Kept.execCompaction : Answers s₀ (execCompaction s) := by
  simp only [Machine.execCompaction]
  refine .next ?_
  refine Kept.ite h ?_
  split
  · exact h
  · split
    · exact h
    · exact h.setIndex.putFill

theorem Kept.remapBlock {c d b : Nat} : Kept s₀ (s.remapBlock c d b) := h.setIndex.addO

theorem Kept.queueRebuild {st : Nat} {ks : List Nat} : Kept s₀ (s.queueRebuild st ks) :=
  Kept.ite h (Kept.ite h.setIndex.setO.setO h.setIndex).addO.setO

theorem Kept.indexDegraded : Kept s₀ s.indexDegraded := Kept.ite h.setO h

theorem Kept.channelFails {c core mb : Nat} : Kept s₀ (s.channelFails c core mb) :=
  Kept.ite h h.setIndex.setO.setO.indexDegraded.queueRebuild.fault1.spokeEvent

theorem Kept.dieFails {c d ms core mb : Nat} : Kept s₀ (s.dieFails c d ms core mb) :=
  Kept.ite h (Kept.ite h.setIndex.setO.setO.indexDegraded.fault1.spokeEvent.channelFails
    h.setIndex.setO.setO.indexDegraded.fault1.spokeEvent.queueRebuild)

theorem Kept.retireBlock {c d b core mb : Nat} : Kept s₀ (s.retireBlock c d b core mb) :=
  Kept.ite h.remapBlock.dieFails h.remapBlock

theorem Kept.programFails {c d b q core mb : Nat} : Kept s₀ (s.programFails c d b q core mb) := h.retireBlock.spokeEvent

theorem Kept.execProgramFailure {kind : Fin 3} {n core mb : Nat} : Answers s₀ (execProgramFailure kind n core mb s) := by
  simp only [Machine.execProgramFailure]
  refine .next ?_
  refine Kept.ite ?_ (Kept.ite (Kept.ite h ?_) ?_)
  · split
    · exact h
    · split
      · exact h
      · exact h.setIndex.programFails
  · split
    · exact h
    · exact h.setIndex.programFails
  · split
    · exact h
    · exact Kept.ite h h.programFails

theorem Kept.execDieFailure {c : Fin 32} {d : Fin 12} {ms core mb : Nat} : Answers s₀ (execDieFailure c d ms core mb s) :=
  .next h.dieFails

theorem Kept.execChannelFailure {c : Fin 32} {core mb : Nat} : Answers s₀ (execChannelFailure c core mb s) := .next h.channelFails

theorem Kept.narrowed : Kept s₀ s.narrowed := h.setIndex.setO.putFill

theorem Kept.blockRebuilt {k : Nat} {rest : List Nat} : Kept s₀ (s.blockRebuilt k rest) :=
  Kept.ite h.remapBlock.setIndex.setO h.remapBlock

theorem Kept.rebuildGoesOn {rest : List Nat} : Kept s₀ (s.rebuildGoesOn rest) := Kept.ite h.setO (Kept.ite h.setO h)

theorem Kept.execRebuildBlockDone : Answers s₀ (execRebuildBlockDone s) := by
  simp only [Machine.execRebuildBlockDone]
  refine .next ?_
  split
  · exact h
  · exact (Kept.ite (Kept.ite h.setIndex.addO.narrowed h.setIndex.addO) h.setIndex.addO.blockRebuilt).rebuildGoesOn

theorem Kept.pageLost {c d b q list version core mb : Nat} : Kept s₀ (s.pageLost c d b q list version core mb) :=
  h.fault1.spokeEvent

theorem Kept.readBack {c d b q cw core mb : Nat} : Kept s₀ (s.readBack c d b q cw core mb) :=
  Kept.ite (h.addO.addO.applyAll (fun _ _ ht => Kept.ite ht ht.addO)).spokeEvent (h.addO.addO.applyAll
    (fun _ _ ht1 => Kept.ite ht1 ht1.addO)).spokeEvent.queueRebuild

theorem Kept.mainLostPage {l page : Nat} : Kept s₀ (s.mainLostPage l page) := h.setList.addO

theorem Kept.sideLostPage {n : Nat} : Kept s₀ (s.sideLostPage n) := h.setIndex.addO

theorem Kept.textLostPage {n : Nat} : Kept s₀ (s.textLostPage n) := h.setIndex

theorem Kept.execReadReconstruct {kind : Fin 4} {n page : Nat} {c : Fin 32} {cw : Nat} {ok : Bool} {core mb : Nat} : Answers s₀
    (execReadReconstruct kind n page c cw ok core mb s) := by
  simp only [Machine.execReadReconstruct]
  refine .next ?_
  refine Kept.ite (Kept.ite h (Kept.ite h.readBack h.addO.mainLostPage.pageLost)) (Kept.ite ?_ (Kept.ite (Kept.ite h
    (Kept.ite h.readBack h.addO.textLostPage.pageLost)) (Kept.ite h (Kept.ite h.readBack h.addO.setStoreObj.pageLost))))
  split
  · exact h
  · exact Kept.ite h.addO (Kept.ite h.readBack h.addO.sideLostPage.pageLost)

theorem Kept.execIndexDirectoryRebuilt : Answers s₀ (execIndexDirectoryRebuilt s) :=
  .next (h.guardS (Kept.ite h.setIndex.setO h.setIndex))

theorem Kept.execIndexFormat : Answers s₀ (execIndexFormat s) :=
  .next (h.guardS ((h.setIndex.applyAll (fun _ _ ht => ht.setO)).applyAll (fun _ _ ht1 => ht1.setO)).recount)

theorem Kept.putSpoke {c : Nat} : Kept s₀ (s.putSpoke c) := h.setO.setO

theorem Kept.mountIndex {led : Tbl Nat} : Kept s₀ (s.mountIndex led) := by
  simp only [State.mountIndex]
  exact (((h.upd.setStake.setIndex.applyAll (fun _ _ ht => ht.setO)).applyAll (fun _ _ ht1 => ht1.putSpoke)).applyAll
    (fun _ _ ht2 => ht2.setO)).setO.recount

theorem Kept.execIndexMount : Answers s₀ (execIndexMount s) := by
  simp only [Machine.execIndexMount]
  refine .next ?_
  refine Kept.ite h (Kept.ite h.setO (Kept.ite h (Kept.ite h.setO.slotRefused ?_)))
  split
  · exact h.setO.slotRefused
  · exact h.mountIndex

theorem Kept.unmountIndex : Kept s₀ s.unmountIndex := by
  simp only [State.unmountIndex]
  exact (h.applyAll (fun _ _ ht => ht.applyAll (fun _ _ ht1 => ht1.applyAll (fun _ _ ht2 =>
    ht2.freePage)))).upd.setIndex.setStake.setO.setO

theorem Kept.execIndexUnmount : Answers s₀ (execIndexUnmount s) := .next (h.guardS h.unmountIndex)

theorem Kept.setTslot {t : Nat} {x : TableSlot} : Kept s₀ (s.setTslot t x) := h

theorem Kept.setTable {t : Nat} {x : Table} : Kept s₀ (s.setTable t x) := h.setTslot

theorem Kept.setPool {x : Pool} : Kept s₀ (s.setPool x) := h

theorem Kept.lineFails {r t k : Nat} : Kept s₀ (s.lineFails r t k) := Kept.ite h.setReq h.setReq.addO

theorem Kept.heatChunk {t c : Nat} : Kept s₀ (s.heatChunk t c) := by
  simp only [State.heatChunk]
  split
  · exact h
  · exact Kept.ite h h.setTslot

theorem Kept.askLine {r t off : Nat} {cache : Bool} : Kept s₀ (s.askLine r t off cache) := by
  simp only [State.askLine]
  refine Kept.ite h (Kept.ite h ?_)
  split
  · exact h.heatChunk.setReq.touchPage
  · refine Kept.ite h.heatChunk.setReq (Kept.ite h.heatChunk.lineFails.lineFails ?_)
    split
    · exact h.heatChunk
    · exact h.heatChunk.setPool.addO.addO

theorem Kept.askLines {r t off n : Nat} {cache : Bool} : Kept s₀ (s.askLines r t off n cache) :=
  h.applyAll (fun _ _ ht => ht.askLine)

theorem Kept.askRow {r t row : Nat} : Kept s₀ (s.askRow r t row) := by
  simp only [State.askRow]
  refine Kept.ite h ?_
  split
  · exact h
  · split
    · exact h.askLines
    · exact h.setReq.askLines
    · exact Kept.ite h h.askLines
    · exact h

theorem Kept.pumpGather {r : Nat} : Kept s₀ (s.pumpGather r) :=
  ((h.applyAll (fun _ _ ht => ht.askRow)).applyAll (fun _ _ ht1 => ht1.askRow)).applyAll (fun _ _ ht2 => ht2.askRow)

theorem Kept.pumpGathers : Kept s₀ s.pumpGathers := h.applyAll (fun _ _ ht => Kept.ite ht.pumpGather ht)

theorem Kept.freeTag {n : Nat} : Kept s₀ (s.freeTag n) := h.setPool.subO

theorem Kept.execPoolReadReply {tag : Fin 4096} {data : List Byte} : Answers s₀ (execPoolReadReply tag data s) :=
  .next (Kept.ite h (Kept.ite h.addO (Kept.ite h.freeTag.setReq.pumpGather.pumpGathers h.freeTag.addO.pumpGathers)))

theorem Kept.readFails {tag : Nat} : Kept s₀ (s.readFails tag) := Kept.ite h.setPool.lineFails h.setPool

theorem Kept.execPoolReadTimeout {tag : Fin 4096} {poison : Bool} : Answers s₀ (execPoolReadTimeout tag poison s) :=
  .next (Kept.ite h h.addO.readFails.pumpGathers)

theorem Kept.execPoolTagQuarantineEnd {tag : Fin 4096} : Answers s₀ (execPoolTagQuarantineEnd tag s) :=
  .next (Kept.ite h.freeTag.pumpGathers h)

theorem Kept.execPoolLinkDown : Answers s₀ (execPoolLinkDown s) :=
  .next ((h.setPool.setO.applyAll (fun _ _ ht => ht.readFails)).pumpGathers)

theorem Kept.execPoolLinkUp {rate lanes : Nat} : Answers s₀ (execPoolLinkUp rate lanes s) := .next (h.guardS h.setPool.setO)

theorem Kept.featPage {r a i : Nat} {t : State} {k : Nat} (e : s.featPage r a i = some (t, k)) : Kept s₀ t := by
  simp only [State.featPage] at e
  split at e
  · cases e; exact h
  · split at e <;> cases e
    next e₁ => exact (h.kvAlloc e₁).setReq

theorem Kept.countRow {t row : Nat} : Kept s₀ (s.countRow t row) := Kept.ite h h.setTable

theorem Kept.putFeature {r a c f : Nat} {bs : List Byte} {t : State} (e : s.putFeature r a c f bs = some t) : Kept s₀ t := by
  simp only [State.putFeature] at e
  split at e <;> cases e
  next e₁ => exact (h.featPage e₁).putKv.setReq

theorem Kept.putFeatures {r a f : Nat} {bs : List Byte} {cs : List Nat} {t : State}
    (e : Machine.putFeatures r a f bs cs s = some t) : Kept s₀ t := by
  induction cs generalizing s with
  | nil => cases e; exact h
  | cons c cs ih =>
    simp only [Machine.putFeatures] at e
    split at e
    · cases e
    next e₁ => exact ih (h.putFeature e₁) e

theorem Kept.poolFeature {r c f : Nat} : Kept s₀ (s.poolFeature r c f) := by
  simp only [State.poolFeature]
  refine Kept.ite h.pumpGather ?_
  split
  · exact h
  · split
    · exact h
    next _ e => exact (h.putFeatures e).setReq.addO.addO.addO.addO.applyAll (fun _ _ ht1 => Kept.ite ht1 ht1.countRow)

theorem Kept.takeRowPage {n idx : Nat} {t : State} {p : Nat} (e : s.takeRowPage n idx = some (t, p)) : Kept s₀ t := by
  simp only [State.takeRowPage, Option.ite_none_left_eq_some] at e
  obtain ⟨-, e⟩ := e
  split at e
  · cases e
  · split at e <;> cases e
    exact h.putPage

theorem Kept.dropTable {x : Option Table} : Kept s₀ (s.dropTable x) := by
  simp only [State.dropTable]
  split
  · exact h
  · exact h.applyAll (fun _ _ ht => ht.freePage)

theorem Kept.tableFails {t reason : Nat} : Kept s₀ (s.tableFails t reason) := h.setO.setO.imageRec

theorem Kept.tableReads {hdr : List Byte} : Kept s₀ (s.tableReads hdr) := h.addO

theorem Kept.tablePassed {t p base : Nat} {hdr l1 dflt : List Byte} {counts : List Nat} : Kept s₀
    (s.tablePassed t p base hdr l1 dflt counts) :=
  h.putStack.putStack.putStack.setTslot

theorem Kept.execTableLoad {t : Fin 64} {hdr l1 dflt : List Byte} {counts : List Nat} {ok : Bool} : Answers s₀
    (execTableLoad t hdr l1 dflt counts ok s) := by
  simp only [Machine.execTableLoad]
  refine .next ?_
  refine Kept.ite h (Kept.ite h.tableFails (Kept.ite h.tableReads.tableFails ?_))
  split
  · exact h.tableReads.tableFails
  next _ _ e => exact Kept.ite h.tableReads.tableFails (Kept.ite h.tableReads.tableFails (h.tableReads.takeRowPage e).tablePassed)

theorem Kept.execTableLoadDone {t : Fin 64} : Answers s₀ (execTableLoadDone t s) := by
  simp only [Machine.execTableLoadDone]
  refine .next ?_
  split
  · exact h
  · exact Kept.ite h (h.dropTable.setTslot.applyAll (fun _ _ ht => ht.setO))

theorem Kept.execTableClose {t : Fin 64} : Answers s₀ (execTableClose t s) := .next (h.guardS h.setO)

theorem Kept.execTableCloseDone {t : Fin 64} : Answers s₀ (execTableCloseDone t s) :=
  .next (h.guardS (h.dropTable.setTslot.applyAll (fun _ _ ht => ht.resetO)))

theorem Kept.dropChunk {t c : Nat} : Kept s₀ (s.dropChunk t c) := h.freePage.setTable.subO

theorem Kept.admitChunk {n c : Nat} {t : State} (e : s.admitChunk n c = some t) : Kept s₀ t := by
  obtain ⟨p, e₁, rfl⟩ := Option.map_eq_some_iff.1 e
  exact (h.takeRowPage e₁).setTable

theorem Kept.getD {o : Option State} (ho : ∀ t, o = some t → Kept s₀ t) : Kept s₀ (o.getD s) := by
  cases o with
  | none => exact h
  | some t => exact ho t rfl

theorem Kept.admitHot {x : Nat × Nat × Nat} : Kept s₀ (s.admitHot x) := by
  simp only [State.admitHot]
  split
  next e => exact h.admitChunk e
  · split
    · exact h
    · exact h.getD fun _ e => h.dropChunk.admitChunk e

theorem Kept.execRowCacheDecision : Answers s₀ (execRowCacheDecision s) :=
  .next (h.guardS (h.applyAll (fun _ _ ht => ht.admitHot)))

theorem Kept.execChunkFillDone {t : Fin 64} {c : Nat} {bytes : List Byte} : Answers s₀ (execChunkFillDone t c bytes s) :=
  .next (Kept.ite h h.putStack.setTable.addO.addO)

/-! ### Texts, tables, the index and decoding -/

theorem Kept.joinQuery {r : Nat} : Kept s₀ (s.joinQuery r) := h.setIndex.setReq

theorem Kept.execWindowClose : Answers s₀ (execWindowClose s) := by
  simp only [Machine.execWindowClose]
  refine .next ?_
  refine h.guardS ?_
  split <;> exact h.setIndex

theorem Kept.heatList {l : Nat} : Kept s₀ (s.heatList l) := h.setList

theorem Kept.beginWindow {w : Window} : Kept s₀ (s.beginWindow w) :=
  (h.addO.setIndex.applyAll (fun _ _ ht => ht.heatList)).applyAll (fun _ _ ht1 => Kept.ite ht1.setReq ht1)

theorem Kept.execWindowStart : Answers s₀ (execWindowStart s) := by
  simp only [Machine.execWindowStart]
  refine .next ?_
  split
  · exact h
  · exact h.guardS h.beginWindow

theorem Kept.readCached {l b sp : Nat} : Kept s₀ (s.readCached l b sp) := by
  simp only [State.readCached]
  refine Kept.ite h ?_
  split
  · exact h
  · split
    · exact h
    · exact h.applyAll (fun _ _ ht => Kept.ite ht.touchPage ht)

theorem Kept.shareScanned {w : Window} {sp : Nat} : Kept s₀ (s.shareScanned w sp) :=
  Kept.ite h (h.applyAll (fun _ _ ht => ht.addO.addO.readCached))

theorem Kept.contextScanned {w : Window} {sp r core mb : Nat} : Kept s₀ (s.contextScanned w sp r core mb) :=
  h.shareScanned.addO.addO.setIndex.spokeEvent

theorem Kept.execContextDone {sp : Fin 32} {r core mb : Nat} : Answers s₀ (execContextDone sp r core mb s) := by
  simp only [Machine.execContextDone]
  refine .next ?_
  split
  · exact h
  · exact h.guardS h.contextScanned

theorem Kept.endWindows : Kept s₀ s.endWindows := h.setIndex

theorem Kept.startTexts {r : Nat} {cs : List Cand} : Kept s₀ (s.startTexts r cs) := h.setReq.askTokens.pumpGather

theorem Kept.markMerged {w : Window} {r : Nat} : Kept s₀ (s.markMerged w r) := h.setIndex

theorem Kept.mergeCounted {r : Nat} {w : Window} {q : WQuery} : Kept s₀ (s.mergeCounted r w q) :=
  h.addO.addO.setReq.markMerged.endWindows

theorem Kept.searchEnds {r : Nat} {cs : List Cand} : Kept s₀ (s.searchEnds r cs) := (Kept.ite h.setReq h.setReq.emit).finishReq

theorem Kept.execRimMerge {r : Nat} : Answers s₀ (execRimMerge r s) := by
  simp only [Machine.execRimMerge]
  refine .next ?_
  split
  · exact h
  · exact Kept.ite h (Kept.ite h.markMerged.endWindows (Kept.ite h.mergeCounted.searchEnds h.mergeCounted.startTexts))

theorem Kept.takeCache {l : Nat} {hs : List (Nat × Nat)} {t : State} {ps : List Nat}
    (e : Machine.takeCache l hs s = some (t, ps)) : Kept s₀ t := by
  induction hs generalizing s ps with
  | nil => cases e; exact h
  | cons x hs ih =>
    simp only [Machine.takeCache, Option.ite_none_left_eq_some] at e
    obtain ⟨-, e⟩ := e
    split at e
    · cases e
    next e₁ =>
      split at e <;> cases e
      next e₂ => exact ih (h.takeOn e₁) e₂

theorem Kept.freeDropped {l : Nat} : Kept s₀ (s.freeDropped l) :=
  (h.applyAll (fun _ _ ht => ht.applyAll (fun _ _ ht1 => ht1.freePage))).setList

theorem Kept.dropCopies {l : Nat} : Kept s₀ (s.dropCopies l) := h.addO.subO.setList.freeDropped

theorem Kept.markFill {l : Nat} {t : State} (e : s.markFill l = some t) : Kept s₀ t := by
  simp only [State.markFill, Option.ite_none_left_eq_some] at e
  obtain ⟨-, e⟩ := e
  split at e <;> cases e
  next e₁ => exact (h.takeCache e₁).setList

theorem Kept.admitList {n l heat : Nat} {t : State} (e : Machine.admitList n l heat s = some t) : Kept s₀ t := by
  induction n generalizing s with
  | zero => cases e
  | succ n ih =>
    simp only [Machine.admitList] at e
    split at e
    next e₁ => cases e; exact h.markFill e₁
    · split at e
      · cases e
      · exact ih h.dropCopies e

theorem Kept.admitOne {x : Nat × LList} : Kept s₀ (s.admitOne x) := h.getD fun _ e => h.admitList e

theorem Kept.execListCacheDecision : Answers s₀ (execListCacheDecision s) :=
  .next (h.guardS (h.applyAll (fun _ _ ht => ht.admitOne)))

theorem Kept.execListCacheFillDone {l : Nat} : Answers s₀ (execListCacheFillDone l s) := by
  simp only [Machine.execListCacheFillDone]
  refine .next ?_
  split
  · exact h
  · exact Kept.ite h h.setList.addO.addO

theorem Kept.startMerge {l : Nat} {sweep : Bool} {t : State} (e : s.startMerge l sweep = some t) : Kept s₀ t := by
  simp only [State.startMerge] at e
  split at e
  · cases e; exact h.setList
  · split at e
    · cases e
    · split at e <;> cases e
      exact h.setIndex.setList.putFill

theorem Kept.startMerges : Kept s₀ s.startMerges := by
  simp only [State.startMerges]
  refine Kept.ite h (h.applyAll (fun _ _ ht => Kept.ite ht ?_))
  split
  · exact ht
  next _ e1 => exact (ht.startMerge e1).setIndex

theorem Kept.execMergeProgrammed {l : Nat} : Answers s₀ (execMergeProgrammed l s) := by
  simp only [Machine.execMergeProgrammed]
  refine .next ?_
  split
  · exact h
  · exact Kept.ite h (h.applyAll (fun _ _ ht => ht.applyAll (fun _ _ ht1 => ht1.programmed))).setList

theorem Kept.sweepStep {l : Nat} : Kept s₀ (s.sweepStep l) := Kept.ite h.setList.setIndex.addO.setO h.setList.setO

theorem Kept.flipList {l : Nat} {m : Merge} : Kept s₀ (s.flipList l m) := by
  simp only [State.flipList]
  have hbase {f : State → SideEnt → State} (hf : ∀ t x, Kept s₀ t → Kept s₀ (f t x)) {y : LList} {x : Index} {k n : Nat} :
      Kept s₀ (((((Machine.applyAll f (s.setList l y) m.sides).setIndex x).addO Od.mergesDone 1).recount).subO k n) :=
    (h.setList.applyAll hf).setIndex.addO.recount.subO
  exact .ite ((hbase fun _ _ ht => ht.subO).getD fun _ e => (hbase fun _ _ ht => ht.subO).markFill e) (hbase fun _ _ ht => ht.subO)

theorem Kept.execListFlip {l : Nat} : Answers s₀ (execListFlip l s) := by
  simp only [Machine.execListFlip]
  refine .next ?_
  split
  · exact h
  · exact Kept.ite h h.flipList.sweepStep.pumpStaging

theorem Kept.raiseFloor {l cut : Nat} : Kept s₀ (s.raiseFloor l cut) := h.setList

theorem Kept.execSideFloorRaise {l : Nat} : Answers s₀ (execSideFloorRaise l s) := by
  simp only [Machine.execSideFloorRaise]
  refine .next ?_
  split
  · exact h
  · exact Kept.ite h h.raiseFloor.sweepStep

theorem Kept.retireTombs {cut : Nat} {rest : List (Nat × Nat)} : Kept s₀ (s.retireTombs cut rest) :=
  (h.setIndex.applyAll (fun _ _ ht => ht.setList.subO)).setO

theorem Kept.execTombstoneRetire : Answers s₀ (execTombstoneRetire s) := by
  simp only [Machine.execTombstoneRetire]
  refine .next ?_
  split
  · exact h
  · exact Kept.ite h h.retireTombs.pumpStaging

theorem Kept.tidySidePages : Kept s₀ s.tidySidePages := h.setIndex.putFill

theorem Kept.dropVersion {l : Nat} : Kept s₀ (s.dropVersion l) :=
  (h.freeDropped.applyAll (fun _ _ ht => ht.applyAll (fun _ _ ht1 => ht1.freePage))).setList.setIndex

theorem Kept.dropMerged {l : Nat} : Kept s₀ (s.dropMerged l) := h.freeDropped.setList

theorem Kept.execVersionRelease {l : Nat} : Answers s₀ (execVersionRelease l s) :=
  .next (Kept.ite h.freeDropped (Kept.ite h.dropMerged h.dropVersion).tidySidePages.pumpStaging)

theorem Kept.startPack {r : Nat} : Kept s₀ (s.startPack r) := h.setReq.askTokens.applyAll (fun _ _ ht => Kept.ite ht.askTokens ht)

theorem Kept.selectReq {r : Nat} : Kept s₀ (s.selectReq r) :=
  Kept.ite (Kept.ite h.setReq h.setReq.emit).finishReq h.setReq.startPack

theorem Kept.tryRerank {r : Nat} : Kept s₀ (s.tryRerank r) :=
  Kept.ite h (Kept.ite (Kept.ite h.selectReq h) (Kept.ite h.setReq.selectReq h))

theorem Kept.trieEnds {j : TrieJob} {slot u : Nat} {v : Vocab} {bs : List Nat} {run : List Nat × List Byte × TrieRun} :
    Kept s₀ (s.trieEnds j slot u v bs run) := by
  unfold State.trieEnds
  extract_lets x crown text out rest y x₁ s₁ s₂ s₃ s₄ s₅ obj s₆ s₇
  have h₁ : Kept s₀ s₁ := .ite h.setReq h
  have h₅ : Kept s₀ s₅ := h₁.upd.addO.addO.addO.addO.addO
  have h₆ : Kept s₀ s₆ := .ite h₅ h₅.readSlot.readSlot
  have h₇ : Kept s₀ s₇ := h₆.applyAll fun _ _ ht => ht.readSlot
  exact .ite h₇.putTokens.passagesAfter.tryRerank h₇

theorem Kept.execTokenizeJob {die : Fin 2} {busy : List Nat} : Answers s₀ (execTokenizeJob die busy s) := by
  unfold Machine.execTokenizeJob
  obtain ⟨bufs, hb⟩ : ∃ bufs, bufs = Machine.takeBufs := exists_eq
  rw [← hb]
  refine .next ?_
  dsimp only
  split
  · exact h
  · split
    · refine Kept.ite h (Kept.ite h.trieEnds ?_)
      split
      · exact h
      next _ _ e => exact (h.takeBufs (hb ▸ e)).trieEnds
    · exact h

theorem Kept.setCand {r i : Nat} {c : Cand} : Kept s₀ (s.setCand r i c) := h.setReq

theorem Kept.textRead {c : Cand} {ok : Bool} {core mb : Nat} : Kept s₀ (s.textRead c ok core mb) :=
  Kept.ite h h.addO.addO.spokeEvent

theorem Kept.textDropped {r i status core mb : Nat} : Kept s₀ (s.textDropped r i status core mb) :=
  h.addO.addO.setCand.textRead.tryRerank

theorem Kept.textTaken {r i status : Nat} {text : List Byte} {bs : List Nat} {core mb : Nat} : Kept s₀
    (s.textTaken r i status text bs core mb) :=
  (Kept.ite h.setCand.textRead.askTokens h.setCand.textRead).tryRerank

theorem Kept.execTextReadDone {r i core mb : Nat} : Answers s₀ (execTextReadDone r i core mb s) := by
  simp only [Machine.execTextReadDone]
  refine .next ?_
  refine Kept.ite h (Kept.ite h (Kept.ite h.textDropped ?_))
  split
  · exact h
  next _ _ e => exact (h.takeBufs e).textTaken

theorem Kept.execBagPool {r c f : Nat} : Answers s₀ (execBagPool r c f s) := .next (Kept.ite h h.poolFeature)

theorem Kept.packDone {r q : Nat} {p : List (Nat × Nat) × Nat × List Nat} : Kept s₀ (s.packDone r q p) := by
  simp only [State.packDone]
  refine (Kept.ite (Kept.applyAll ?_ (fun _ _ ht => ht.freeBuf)).setReq (Kept.applyAll ?_
    (fun _ _ ht1 => ht1.freeBuf)).setReq.emit.endKind).setSeq
  · split
    · exact h.addO.addO
    · exact h.addO
  · split
    · exact h.addO.addO
    · exact h.addO

theorem Kept.execPromptPack {r : Nat} : Answers s₀ (execPromptPack r s) := by
  simp only [Machine.execPromptPack]
  refine .next ?_
  refine Kept.ite h ?_
  split
  · exact Kept.ite h h.packDone
  · exact h

theorem Kept.drawPos {u : Nat} {p : DicePos} : Kept s₀ (s.drawPos u p).1 := by
  simp only [State.drawPos]
  refine Kept.iteFst h ?_
  split
  · exact h
  · exact h.draw24

theorem Kept.drawResidual {u : Nat} {p : DicePos} {q : Proposal} : Kept s₀ (s.drawResidual u p q).1 :=
  Kept.iteFst h.draw24 h.drawPos

theorem Kept.verifyFrom {u : Nat} {t0 : Bool} {endTok i : Nat} {ps : List DicePos} {gs : List Proposal} :
    Kept s₀ (Machine.verifyFrom u t0 endTok ps gs i s).1 := by
  induction gs generalizing s i with
  | nil => exact h.drawPos.rngDone
  | cons g gs ih =>
    simp only [Machine.verifyFrom]
    exact .iteFst (.iteFst (.iteFst h (ih h)) h.rngDone)
      (.iteFst (.iteFst h.draw24.rngDone (ih h.draw24.rngDone)) h.draw24.drawResidual.rngDone)

theorem Kept.queueMask {a gram gs : Nat} {stack : List Nat} {q p res ep : Nat} : Kept s₀ (s.queueMask a gram gs stack q p res ep) := by
  simp only [State.queueMask]
  split
  · exact h
  · exact Kept.ite h.upd.addO h.upd

theorem Kept.execMaskFrameComplete {a : Fin 32} : Answers s₀ (execMaskFrameComplete a s) := by
  simp only [Machine.execMaskFrameComplete]
  refine .next ?_
  split
  · exact h
  · refine Kept.ite h ?_
    split
    · exact h.upd.addO
    · exact Kept.ite (h.upd.addO.applyAll (fun _ _ ht => ht.readSlot)) (h.upd.addO.applyAll (fun _ _ ht1 => ht1.readSlot)).readSlot

theorem Kept.maskUsed {a q p ep : Nat} : Kept s₀ (s.maskUsed a q p ep) := h

theorem Kept.putProposal {a q : Nat} {g : Proposal} : Kept s₀ (s.putProposal a q g) := by
  simp only [State.putProposal]
  split
  · exact h.putKv
  · split
    next _ _ e => exact (h.kvAlloc e).setSeq.putKv
    · exact h

theorem Kept.performDice {a w : Nat} : Kept s₀ (s.performDice a w).1 := by
  simp only [State.performDice]
  refine Kept.iteFst ?_ ?_
  · split
    · refine (Kept.ite ?_ (h.applyAll (fun _ _ ht2 => ht2.putRes)).addO.addO.addO.verifyFrom).putProposal
      split
      · exact (h.applyAll (fun _ _ ht => ht.putRes)).addO.addO.addO.verifyFrom.addO
      · exact (h.applyAll (fun _ _ ht1 => ht1.putRes)).addO.addO.addO.verifyFrom
    · refine Kept.ite ?_ (h.applyAll (fun _ _ ht5 => ht5.putRes)).addO.addO.addO.verifyFrom
      split
      · exact (h.applyAll (fun _ _ ht3 => ht3.putRes)).addO.addO.addO.verifyFrom.addO
      · exact (h.applyAll (fun _ _ ht4 => ht4.putRes)).addO.addO.addO.verifyFrom
  · split
    · refine (Kept.ite ?_ (h.applyAll (fun _ _ ht8 => ht8.putRes)).addO.addO.addO.drawPos.rngDone).putProposal
      split
      · exact (h.applyAll (fun _ _ ht6 => ht6.putRes)).addO.addO.addO.drawPos.rngDone.addO
      · exact (h.applyAll (fun _ _ ht7 => ht7.putRes)).addO.addO.addO.drawPos.rngDone
    · refine Kept.ite ?_ (h.applyAll (fun _ _ ht11 => ht11.putRes)).addO.addO.addO.drawPos.rngDone
      split
      · exact (h.applyAll (fun _ _ ht9 => ht9.putRes)).addO.addO.addO.drawPos.rngDone.addO
      · exact (h.applyAll (fun _ _ ht10 => ht10.putRes)).addO.addO.addO.drawPos.rngDone

theorem Kept.setDiceQ {a : Nat} {q : List DiceJob} : Kept s₀ (s.setDiceQ a q) := h.setDice

theorem Kept.execDiceJob {a : Fin 32} {ws : List Nat} : Answers s₀ (execDiceJob a ws s) := by
  simp only [Machine.execDiceJob]
  refine .next ?_
  refine Kept.ite h ?_
  split
  · exact h.setDiceQ
  · exact Kept.ite h.setDiceQ (Kept.ite h.setDiceQ.putRes.setDiceQ.instrFault (Kept.ite (Kept.ite h.setDiceQ h.setDiceQ.setDiceQ.addO)
      (Kept.ite (h.setDiceQ.performDice.applyAll (fun _ _ ht => ht.maskUsed)) h.setDiceQ.performDice).setDiceQ))

theorem Kept.execDiceJobComplete {a : Fin 32} : Answers s₀ (execDiceJobComplete a s) := by
  simp only [Machine.execDiceJobComplete]
  refine .next ?_
  split
  · exact h
  · split
    · exact h
    · exact Kept.ite h.setDiceQ.putRes.setSeq.upd h.setDiceQ.putRes.setSeq

theorem Kept.kvScales {k base lanes : Nat} {x : PlanX} : Kept s₀ (s.kvScales k base lanes x) :=
  Kept.ite h (h.applyAll (fun _ _ ht => ht.putKv))

theorem Kept.kvPutRow {k base lane m : Nat} {x : PlanX} {key scale : List Byte} {vals : Nat} : Kept s₀
    (s.kvPutRow k base lane m x key scale vals) :=
  ((Kept.ite h.putKv h.putKv.putKv).applyAll (fun _ _ ht => ht.putKv)).putKv.putKv

theorem Kept.kvPageFor {q side block g : Nat} {x : Stake} {px : PlanX} {a : Nat} {t : State} {k : Nat}
    (e : s.kvPageFor q side block g x px a = some (t, k)) : Kept s₀ t := by
  simp only [State.kvPageFor] at e
  split at e
  · cases e; exact h
  · split at e <;> cases e
    next e₁ => exact (h.kvAlloc e₁).setKvHeader.kvScales.setSeq

theorem Kept.writeKvRows {a : Nat} {w : Resident} {p : Nat} {px : PlanX} {g pos n keyA keyS valA : Nat} {sr : Bool} : Kept s₀
    (s.writeKvRows a w p px g pos n keyA keyS valA sr) :=
  (h.applyAll (fun _ _ ht => ht.kvPutRow)).setKvHeader.applyAll (fun _ _ ht1 => ht1.kvKeyVectors)

theorem Kept.execPageWriteComplete {a : Fin 32} {r : Fin 4} {q : Fin 4096} {draft : Bool} {g pos n keyA keyS valA : Nat} {sr : Bool} :
    Answers s₀ (execPageWriteComplete a r q draft g pos n keyA keyS valA sr s) := by
  simp only [Machine.execPageWriteComplete]
  refine .next ?_
  split
  · exact h
  · refine Kept.ite h ?_
    split
    · exact h
    next _ _ e => exact Kept.ite (h.kvPageFor e) (h.kvPageFor e).writeKvRows

theorem Kept.nextRound {q : Nat} : Kept s₀ (s.nextRound q) := Kept.ite h h.setSeq

theorem Kept.publishBlock {q side stake j : Nat} : Kept s₀ (s.publishBlock q side stake j) := by
  simp only [State.publishBlock]
  exact Kept.ite h (h.applyAll (fun _ _ ht => ht.setPage.setKvHeader)).upd.addO.addO.subO.setReq.setSeq

theorem Kept.publish {q side stake old new : Nat} : Kept s₀ (s.publish q side stake old new) :=
  h.applyAll (fun _ _ ht => ht.publishBlock)

theorem Kept.releasePrefix {p : Nat} : Kept s₀ (s.releasePrefix p) := by
  simp only [State.releasePrefix]
  exact h.upd.subO.addO.applyAll (fun _ _ ht => ht.kvFree)

theorem Kept.execPrefixRelease {p : Nat} : Answers s₀ (execPrefixRelease p s) := .next (h.guardS h.releasePrefix)

theorem Kept.commitDraw {q len : Nat} {alone verify : Bool} : Kept s₀ (s.commitDraw q len alone verify) := by
  simp only [State.commitDraw]
  split
  · exact h
  · exact (Kept.ite h.addO.addO h).setSeq.setReq.truncate.truncate

theorem Kept.commitProposal {q len : Nat} : Kept s₀ (s.commitProposal q len) := by
  simp only [State.commitProposal]
  split
  · exact h
  · exact h.setReq.setSeq.truncate

theorem Kept.commitKv {stake : Nat} {z : Row} : Kept s₀ (s.commitKv stake z) := by
  simp only [State.commitKv]
  split
  · exact h
  · exact Kept.ite (Kept.ite (Kept.ite h.commitProposal h.setSeq.truncate) (Kept.ite h.commitDraw
      (Kept.ite h.setSeq.truncate h.setSeq.truncate))).publish (Kept.ite (Kept.ite h.commitProposal h.setSeq.truncate)
      (Kept.ite h.commitDraw (Kept.ite h.setSeq.truncate h.setSeq.truncate))).publish.nextRound

theorem Kept.commitEncode {z : Row} {o : StepOut} : Kept s₀ (s.commitEncode z o) := by
  simp only [State.commitEncode]
  split
  · exact Kept.ite h.setReq.setItem (Kept.ite (Kept.ite h.setReq.setReq.emit.emit h.setReq.setReq.emit).finishReq h.setReq.setReq)
  · exact Kept.ite h.setReq.setItem.tryStage.pumpOutcomes h.setReq.setReq.joinQuery
  · exact h.setReq.setReq.tryRerank

theorem Kept.commitRow {stake : Nat} {p : Row × StepOut} : Kept s₀ (s.commitRow stake p) :=
  Kept.ite h (Kept.ite h.commitEncode h.commitKv)

theorem Kept.commitStep {k : Nat} {outs : List StepOut} : Kept s₀ (s.commitStep k outs) :=
  (h.dropStep.addO.setModel.applyAll (fun _ _ ht => ht.commitRow)).tidySteps

theorem Kept.execCourseEnd {k cycles : Nat} {outs : List StepOut} : Answers s₀ (execCourseEnd k cycles outs s) :=
  .next (Kept.ite h (Kept.ite (Kept.ite h.sendFlit.dropStep h.sendFlit.setStep) (Kept.ite h (Kept.ite h
    (Kept.ite h.chargeCourse.abandonOn.addO.bumpEpoch.dropStep (Kept.ite h.chargeCourse.commitStep
    (Kept.ite h.chargeCourse.addO.setStake.nextOn.setStep h.chargeCourse.setStep)))))))

theorem Kept.execRemoteWaitLimit {k ns : Nat} : Answers s₀ (execRemoteWaitLimit k ns s) := by
  simp only [Machine.execRemoteWaitLimit]
  refine .next ?_
  split
  · exact h
  · exact h.guardS h.abandonStep.tidySteps

theorem Kept.execDetokenizeStream {q : Fin 4096} : Answers s₀ (execDetokenizeStream q s) := by
  simp only [Machine.execDetokenizeStream]
  refine .next ?_
  split
  · exact h
  · exact Kept.ite h (Kept.ite (Kept.ite (Kept.ite h.streamAll.addO h.streamAll).complete.tidySteps
      (Kept.ite h.streamAll.addO h.streamAll).finishReq.tidySteps) h.streamCommit)

/-! ### Admission, datagrams, the chain and writes of objects -/

theorem Kept.makeRoom {x n fuel : Nat} {keep : List Nat} : Kept s₀ (State.makeRoom x n keep fuel s) := by
  induction fuel generalizing s with
  | zero => exact h
  | succ n ih =>
    simp only [State.makeRoom]
    refine .ite h ?_
    split
    · exact h
    · exact ih h.releasePrefix

theorem Kept.gateChecks {r : Nat} {x : Req} : Kept s₀ (s.gateChecks r x).1 :=
  Kept.iteFst h (Kept.iteFst h (Kept.iteFst h (Kept.iteFst h (Kept.iteFst h (Kept.iteFst (Kept.ite h h.makeRoom) (Kept.iteFst
    (Kept.ite h h.makeRoom).addO (Kept.iteFst (Kept.ite h h.makeRoom) (Kept.iteFst (Kept.ite h h.makeRoom) (Kept.ite h h.makeRoom)))))))))

theorem Kept.bindRefs {x : Req} : Kept s₀ (s.bindRefs x) := by
  simp only [State.bindRefs]
  refine Kept.applyAll ?_ (fun _ _ ht8 => ht8.addO)
  split
  · refine Kept.addO ?_
    split
    · exact ((h.applyAll (fun _ _ ht => ht.addO)).applyAll (fun _ _ ht1 => ht1.addO)).addO
    · exact (h.applyAll (fun _ _ ht2 => ht2.addO)).applyAll (fun _ _ ht3 => ht3.addO)
  · split
    · exact ((h.applyAll (fun _ _ ht4 => ht4.addO)).applyAll (fun _ _ ht5 => ht5.addO)).addO
    · exact (h.applyAll (fun _ _ ht6 => ht6.addO)).applyAll (fun _ _ ht7 => ht7.addO)

theorem Kept.takeSeq {r : Nat} {x : Req} : Kept s₀ (s.takeSeq r x) := by
  unfold State.takeSeq
  split
  · exact h
  · exact (h.applyAll (fun _ _ ht => ht.upd)).addO.addO.setSeq.setReq

theorem Kept.startReq {r : Nat} : Kept s₀ (s.startReq r) :=
  Kept.ite h.askTokens (Kept.ite (h.applyAll (fun _ _ ht => ht.askTokens)) h.pumpStaging)

theorem Kept.admitReq {r : Nat} {x : Req} : Kept s₀ (s.admitReq r x) := by
  simp only [State.admitReq]
  exact (Kept.ite h.setReq.upd.subO.addO.addO.addO.addO.addO.bindRefs.takeSeq
    h.setReq.upd.subO.addO.addO.addO.addO.addO.bindRefs).startReq

theorem Kept.countRefusal {c reason : Nat} : Kept s₀ (s.countRefusal c reason) := h.setO

theorem Kept.refuse {r reason code retry : Nat} : Kept s₀ (s.refuse r reason code retry) :=
  (Kept.ite h.countRefusal h.countRefusal.respond).complete

theorem Kept.defer {r why beats : Nat} : Kept s₀ (s.defer r why beats) := by
  simp only [State.defer]
  exact h.respond.setReq.upd.addO.addO

theorem Kept.decide1 {r : Nat} : Kept s₀ (s.decide1 r) := by
  simp only [State.decide1]
  refine Kept.ite h.refuse ?_
  have hc := h.gateChecks (r := r) (x := s.boundReq (s.req r))
  split
  next e => rw [e] at hc; exact Kept.refuse hc
  next e =>
    rw [e] at hc
    split
    · exact (Kept.respond hc).admitReq
    · exact Kept.refuse hc
    · exact Kept.defer hc

theorem Kept.releaseReq {r : Nat} : Kept s₀ (s.releaseReq r) := by
  simp only [State.releaseReq]
  refine Kept.ite h.refuse ?_
  have hc := h.gateChecks (r := r) (x := s.boundReq (s.req r))
  split
  next e => rw [e] at hc; exact Kept.refuse hc
  next e =>
    rw [e] at hc
    split
    · exact Kept.admitReq hc
    · exact Kept.refuse hc
    · exact hc

theorem Kept.grant {port r : Nat} : Kept s₀ (s.grant port r) := h

theorem Kept.execGateDecision {port : Fin 3} : Answers s₀ (execGateDecision port s) := by
  simp only [Machine.execGateDecision]
  refine .next ?_
  split
  · exact h
  · exact Kept.ite h.grant.decide1.failReq h.grant.decide1

theorem Kept.enterGate {r h₁ : Nat} : Kept s₀ (s.enterGate r h₁) := by
  simp only [State.enterGate]
  exact Kept.ite h.upd (Kept.ite h.upd.refuse (Kept.ite h.upd.refuse h.upd.defer))

theorem Kept.execDeferLimitExpiry {r : Nat} : Answers s₀ (execDeferLimitExpiry r s) := .next (h.guardS h.refuse)

theorem Kept.execDeadlineExpiry {r : Nat} : Answers s₀ (execDeadlineExpiry r s) := .next (h.guardS h.failReq)

theorem Kept.execDatagramArrival {port : Fin 2} {net : Net} {bytes : List Byte} : Answers s₀ (execDatagramArrival port net bytes s) := by
  simp only [Machine.execDatagramArrival]
  exact .next (Kept.ite h (Kept.ite h.addO (Kept.ite h.upd (Kept.ite h.addO (Kept.ite h.addO (Kept.ite h.addO h.upd))))))

theorem Kept.rxPop {port : Nat} : Kept s₀ (s.rxPop port) := h

theorem Kept.execDatagramAuthFail {port : Fin 2} : Answers s₀ (execDatagramAuthFail port s) := by
  simp only [Machine.execDatagramAuthFail]
  refine .next ?_
  split
  · exact h
  · exact Kept.ite h h.rxPop.addO

theorem Kept.takeMsg {port typ : Nat} {f : State → Datagram → Nat → State} (hf : ∀ t d w, Kept s₀ t → Kept s₀ (f t d w)) :
    Kept s₀ (s.takeMsg port typ f) := by
  simp only [State.takeMsg]
  split
  · exact h
  · exact .ite h (hf _ _ _ h.rxPop)

theorem Kept.acceptId {t id : Nat} : Kept s₀ (s.acceptId t id) := h.setIdWin

theorem Kept.resend {t id : Nat} : Kept s₀ (s.resend t id) := by
  simp only [State.resend]
  split
  · refine Kept.sendMsg ?_
    split
    · exact h.sendMsg
    · exact h
  · split
    · exact h.sendMsg
    · exact h

theorem Kept.ingress : Kept s₀ s.ingress := h.addO

theorem Kept.dropPre {t id : Nat} : Kept s₀ (s.dropPre t id) := h

theorem Kept.cancelAtOnce {r : Nat} : Kept s₀ (s.cancelAtOnce r) := h.dropPre.respond.complete

theorem Kept.accept {x : Req} : Kept s₀ (s.accept x).1 := by
  simp only [State.accept]
  exact h.ingress.acceptId.setReq.upd.applyAll (fun _ _ ht => ht.setBuf)

theorem Kept.meetGate {r h₁ : Nat} : Kept s₀ (s.meetGate r h₁) :=
  Kept.ite h.cancelAtOnce (Kept.ite h.enterGate.failReq h.enterGate)

theorem Kept.takeAssembly {t n : Nat} {u : State} {bs : List Nat} (e : s.takeAssembly t n = .inr (u, bs)) : Kept s₀ u := by
  simp only [State.takeAssembly] at e
  split at e
  · cases e
  · split at e
    · cases e
    · split at e <;> cases e
      next e₁ => exact h.takeBufs e₁

theorem Kept.joinAssembly {a : Assembly} {port hint : Nat} {d : Datagram} : Kept s₀ (s.joinAssembly a port hint d) := by
  simp only [State.joinAssembly]
  exact Kept.ite h.upd h.upd.accept.meetGate

theorem Kept.takeFragment {port hint : Nat} {d : Datagram} {w : Nat} : Kept s₀ (s.takeFragment port hint d w) := by
  simp only [State.takeFragment]
  split
  · exact h.addO.resend
  · exact h.notice
  · split
    · exact Kept.ite h.addO h.joinAssembly
    · split
      · exact h.notice
      next _ _ e => exact (h.takeAssembly e).joinAssembly

theorem Kept.execRequestFragment {port : Fin 2} {hint : Nat} : Answers s₀ (execRequestFragment port hint s) :=
  .next (h.takeMsg fun _ _ _ ht => ht.takeFragment)

theorem Kept.dropAssembly {a : Assembly} : Kept s₀ (s.dropAssembly a) := by
  simp only [State.dropAssembly]
  exact (h.upd.applyAll (fun _ _ ht => ht.freeBuf)).pumpOutput

theorem Kept.execReassemblyTimeout {t : Fin 256} {id : Nat} : Answers s₀ (execReassemblyTimeout t id s) := by
  simp only [Machine.execReassemblyTimeout]
  refine .next ?_
  split
  · exact h
  · exact Kept.ite h h.dropAssembly.notice

theorem Kept.doCancel {t id beat seq : Nat} {p : RetPath} : Kept s₀ (s.doCancel t id beat seq p) := by
  simp only [State.doCancel]
  split
  · exact h.addO.notice
  · exact Kept.ite h h.upd
  · split
    · exact h.addO.notice
    · exact Kept.ite h (Kept.ite h.setReq (Kept.ite h.setReq h.setReq.endReq.tidySteps))

theorem Kept.execCancel {port : Fin 3} {f : Fin 256} : Answers s₀ (execCancel port f s) := by
  simp only [Machine.execCancel]
  refine .next (.ite (h.takeMsg fun _ _ _ ht => ht.ingress.doCancel) ?_)
  split
  · exact h
  · exact .ite h h.setFn.doCancel

theorem Kept.execPreCancelExpiry {t : Fin 256} {id : Nat} : Answers s₀ (execPreCancelExpiry t id s) := .next (h.guardS h.dropPre)

theorem Kept.bufFault {t stale foreign h₁ : Nat} : Kept s₀ (s.bufFault t stale foreign h₁) := by
  simp only [State.bufFault]
  exact (Kept.iteFst h.took h).upd

omit h in
theorem Kept.freeOne {t i : Nat} {a : State × FreeSum} (h : Kept s₀ a.1) : Kept s₀ (Machine.freeOne t a i).1 :=
  Kept.iteFst h.addO.bufFault (Kept.iteFst h.addO.bufFault (Kept.iteFst h.addO.bufFault (Kept.iteFst h.addO h.freeBuf)))

omit h in
theorem Kept.foldl_freeOne {t : Nat} {hs : List Nat} {a : State × FreeSum} (h : Kept s₀ a.1) : Kept s₀ (hs.foldl
    (Machine.freeOne t) a).1 := by
  induction hs generalizing a with
  | nil => exact h
  | cons i hs ih => exact ih h.freeOne

theorem Kept.doFree {t : Nat} {hs : List Nat} {p : RetPath} : Kept s₀ (s.doFree t hs p) :=
  (Kept.foldl_freeOne (a := (s, {})) h).notice.pumpOutput

theorem Kept.doFetch {t id : Nat} {hs : List Nat} {p : RetPath} : Kept s₀ (s.doFetch t id hs p) :=
  Kept.ite (Kept.ite h.resend h.notice) (Kept.ite (h.applyAll (fun _ _ ht => ht.applyAll (fun _ _ ht1 => ht1.sendMsg))) (h.applyAll
    (fun _ _ ht2 => ht2.applyAll (fun _ _ ht3 => ht3.sendMsg))).notice)

theorem Kept.execFree {port : Fin 3} {f : Fin 256} {list : List Byte} : Answers s₀ (execFree port f list s) := by
  simp only [Machine.execFree]
  refine .next (.ite (h.takeMsg fun _ _ _ ht => ht.doFree) ?_)
  split
  · exact h
  · exact .ite h h.setFn.doFree

theorem Kept.execFetch {port : Fin 3} {f : Fin 256} {list : List Byte} : Answers s₀ (execFetch port f list s) := by
  simp only [Machine.execFetch]
  refine .next (.ite (h.takeMsg fun _ _ _ ht => ht.doFetch) ?_)
  split
  · exact h
  · exact .ite h h.setFn.doFetch

theorem Kept.bufFaultRecs : Kept s₀ s.bufFaultRecs := by
  simp only [State.bufFaultRecs]
  exact (h.applyAll (fun _ _ ht => ht.writeRec)).upd

theorem Kept.execOutputRetainExpiry {b : Fin 65536} : Answers s₀ (execOutputRetainExpiry b s) :=
  .next (h.guardS h.addO.freeBuf.pumpOutput)

theorem Kept.execTenantDisable {t : Fin 256} : Answers s₀ (execTenantDisable t s) := by
  simp only [Machine.execTenantDisable]
  exact .next (h.guardS ((h.record.applyAll (fun _ _ ht => ht.endReq)).tidySteps.applyAll
    (fun _ _ ht1 => ht1.dropAssembly)).setO.setO.upd)

theorem Kept.repeatFrame {up : Bool} {f : Frame} : Kept s₀ (s.repeatFrame up f) := Kept.ite h.sendFrame.addO h

theorem Kept.execFrameRepeat {up : Bool} {hdr : BitVec 128} {payload : List (BitVec 8)} {fcs : Bool} : Answers s₀
    (execFrameRepeat up hdr payload fcs s) :=
  .next (h.guardS (Kept.ite (Kept.ite h h.addO) (Kept.ite (Kept.ite h h.addO).repeatFrame (Kept.ite h h.addO))))

theorem Kept.setAddress {a : Nat} : Kept s₀ (s.setAddress a) := Kept.ite h.setO.setO h.setO.setO.chainRecord

theorem Kept.enumReply {late : Bool} : Kept s₀ (s.enumReply late) := h.ownFrame

theorem Kept.enumerate {hop acc : Nat} : Kept s₀ (s.enumerate hop acc) :=
  Kept.ite h.breakPath.addO.setO.setAddress.repeatFrame.enumReply h.breakPath.addO.setO.setAddress.enumReply

theorem Kept.execEnumerate {hop : Fin 256} {acc : Fin 4294967296} : Answers s₀ (execEnumerate hop acc s) := by
  simp only [Machine.execEnumerate]
  exact .next (h.guardS (Kept.ite h.enumerate h.upd))

theorem Kept.execProbe {src : Fin 128} : Answers s₀ (execProbe src s) := .next (h.guardS h.ownFrame)

theorem Kept.execEcho {delay : Fin 4294967296} {src : Fin 128} : Answers s₀ (execEcho delay src s) := by
  refine .next (h.guardS ?_)
  extract_lets d old s₁ c s₂ s₃
  have h₂ : Kept s₀ s₂ := h.setO.upd
  have h₃ : Kept s₀ s₃ := .ite h₂ (.ite h₂.setO h₂.setAddress)
  clear_value s₃
  split
  · exact h₃
  · exact h₃.upd.enumerate

theorem Kept.execPathDown {src : Fin 128} : Answers s₀ (execPathDown src s) := .next (h.guardS h.breakPath.repeatFrame)

theorem Kept.cutFrame {up : Bool} : Kept s₀ (s.cutFrame up) := by
  simp only [State.cutFrame]
  exact Kept.ite h.upd h.upd

theorem Kept.execUpstreamLinkUp : Answers s₀ (execUpstreamLinkUp s) := by
  simp only [Machine.execUpstreamLinkUp]
  exact .next (h.guardS h.setO.upd.chainRecord.ownFrame)

theorem Kept.execUpstreamLinkDown {cutUp cutDown : Bool} : Answers s₀ (execUpstreamLinkDown cutUp cutDown s) := by
  refine .next (h.guardS ?_)
  extract_lets s₁ s₂ s₃ s₄ c s₅ s₆ held c₆ s₇ s₈
  have h₁ : Kept s₀ s₁ := h.setO
  have h₂ : Kept s₀ s₂ := .ite h₁.cutFrame h₁
  have h₃ : Kept s₀ s₃ := .ite h₂.cutFrame h₂
  have h₄ : Kept s₀ s₄ := h₃.breakPath
  have h₅ : Kept s₀ s₅ := h₄.upd
  exact .chainRecord (.ite h₅ (.setO h₅.ownFrame.upd))

theorem Kept.execAddressHoldExpiry : Answers s₀ (execAddressHoldExpiry s) := .next (h.guardS h.setAddress)

theorem Kept.execDownstreamLinkUp : Answers s₀ (execDownstreamLinkUp s) := .next (h.guardS h.setO.chainRecord)

theorem Kept.execDownstreamLinkDown {cutUp cutDown : Bool} : Answers s₀ (execDownstreamLinkDown cutUp cutDown s) :=
  .next (h.guardS (Kept.ite (Kept.ite h.setO.cutFrame h.setO).cutFrame (Kept.ite h.setO.cutFrame h.setO)).chainRecord)

theorem Kept.setBeatState {st : Nat} {resync : Option Nat} : Kept s₀ (s.setBeatState st resync) := Kept.ite h.setO.record h.setO

theorem Kept.enterHoldover : Kept s₀ s.enterHoldover := by
  simp only [State.enterHoldover]
  exact h.addO.setO.setBeatState.upd

theorem Kept.lockingWord {w gap : Nat} : Kept s₀ (s.lockingWord w gap) := by
  unfold State.lockingWord
  extract_lets c p good n c₁ s₁ s₂ c₂
  have h₁ : Kept s₀ s₁ := h.upd
  have h₂ : Kept s₀ s₂ := h₁.setO.setO.setO
  exact .ite h₁ h₂.upd

theorem Kept.lockedWord {w : Nat} {off : Int} : Kept s₀ (s.lockedWord w off) := by
  simp only [State.lockedWord]
  exact Kept.ite (Kept.ite h.setO.upd.enterHoldover h.setO.upd) (Kept.ite h.upd h.enterHoldover)

theorem Kept.holdoverWord {w : Nat} {off : Int} : Kept s₀ (s.holdoverWord w off) := by
  simp only [State.holdoverWord]
  exact h.setO.addO.upd

theorem Kept.execBeatWord {word : BitVec 64} {off : Int} {gap : Nat} : Answers s₀ (execBeatWord word off gap s) := by
  refine .next (h.guardS ?_)
  extract_lets st lim ok s₁ c s₂ s₃
  have h₁ : Kept s₀ s₁ := .ite h h.addO
  have h₂ : Kept s₀ s₂ := .ite h₁ h₁.upd
  clear_value s₂
  exact .ite (.ite h₂.upd.setO h₂) (.ite h₂.lockingWord (.ite h₂.lockedWord (.ite h₂.upd (.ite h₂.holdoverWord h₂.upd))))

theorem Kept.execBeatMarkerMissing : Answers s₀ (execBeatMarkerMissing s) := .next (h.guardS h.enterHoldover)

theorem Kept.stopSpanning {stop : Bool} : Kept s₀ (s.stopSpanning stop) := h

theorem Kept.execHoldoverLimit : Answers s₀ (execHoldoverLimit s) := .next (h.guardS h.setO.stopSpanning)

theorem Kept.beatAdvance : Kept s₀ s.beatAdvance := by
  simp only [State.beatAdvance]
  refine Kept.ite h (Kept.ite (Kept.ite (Kept.setBeatState ?_) ?_).setO.setO.stopSpanning (Kept.ite (Kept.ite
    (Kept.setBeatState ?_) ?_).addO (Kept.ite (Kept.setBeatState ?_) ?_))).upd
  · split
    · refine Kept.setO ?_
      split
      · exact Kept.ite h.setO.setBeatState h.addO
      · exact h.addO
    · split
      · exact Kept.ite h.setO.setBeatState h.addO
      · exact h.addO
  · split
    · refine Kept.setO ?_
      split
      · exact Kept.ite h.setO.setBeatState h.addO
      · exact h.addO
    · split
      · exact Kept.ite h.setO.setBeatState h.addO
      · exact h.addO
  · split
    · refine Kept.setO ?_
      split
      · exact Kept.ite h.setO.setBeatState h.addO
      · exact h.addO
    · split
      · exact Kept.ite h.setO.setBeatState h.addO
      · exact h.addO
  · split
    · refine Kept.setO ?_
      split
      · exact Kept.ite h.setO.setBeatState h.addO
      · exact h.addO
    · split
      · exact Kept.ite h.setO.setBeatState h.addO
      · exact h.addO
  · split
    · refine Kept.setO ?_
      split
      · exact Kept.ite h.setO.setBeatState h.addO
      · exact h.addO
    · split
      · exact Kept.ite h.setO.setBeatState h.addO
      · exact h.addO
  · split
    · refine Kept.setO ?_
      split
      · exact Kept.ite h.setO.setBeatState h.addO
      · exact h.addO
    · split
      · exact Kept.ite h.setO.setBeatState h.addO
      · exact h.addO

theorem Kept.readObj {p k : Nat} : Kept s₀ (s.readObj p k).1 :=
  Kept.iteFst h (Kept.iteFst h (Kept.iteFst h (Kept.iteFst h (Kept.iteFst h (Kept.iteFst h (Kept.iteFst h (Kept.iteFst h (Kept.iteFst h
    (Kept.iteFst h (Kept.iteFst h (Kept.iteFst h (Kept.iteFst h (Kept.iteFst h (Kept.iteFst h.took (Kept.iteFst h (Kept.iteFst h.took
    (Kept.iteFst h (Kept.iteFst h (Kept.iteFst h.took h)))))))))))))))))))

theorem Kept.slotCommand {k v stKey reasonKey kind busy : Nat} : Kept s₀ (s.slotCommand k v stKey reasonKey kind busy) :=
  Kept.ite (Kept.ite h.setO.imageRec h.setO) (Kept.ite h.setO.setO h.setO)

theorem Kept.putKey {k v : Nat} : Kept s₀ (s.putKey k v) := h.setO.setO

theorem Kept.putPeerEnable {l v : Nat} : Kept s₀ (s.putPeerEnable l v) := by
  simp only [State.putPeerEnable]
  exact (Kept.ite h.setO.setO h.setO).upd

theorem Kept.putObj {w : SWrite} : Kept s₀ (s.putObj w) := by
  simp only [State.putObj]
  exact Kept.ite (Kept.ite h.setO.setO.setO h.setO) (Kept.ite h.putKey (Kept.ite h.upd (Kept.ite (Kept.ite h.setO.setO
    (Kept.ite h.setO.setModel h.setO)) (Kept.ite h.setO.setModel.skeinStatus (Kept.ite (Kept.ite h.setO.setO
    (Kept.ite h.setO.setO h.setO.setIndex)) (Kept.ite h.setO.setIndex (Kept.ite h.slotCommand (Kept.ite h.slotCommand
    (Kept.ite h.slotCommand (Kept.ite h.upd.setO (Kept.ite h.putPeerEnable (Kept.ite h.upd (Kept.ite h.upd h.setO)))))))))))))

theorem Kept.switchPins {old : State} : Kept s₀ (s.switchPins old) := by
  unfold State.switchPins
  extract_lets moved src beatPin lost s₁ s₂ p s₃
  have h₁ : Kept s₀ s₁ := .ite h.enterHoldover h
  have h₂ : Kept s₀ s₂ := (h₁.applyAll fun _ _ ht => ht.upd).addO
  have h₃ : Kept s₀ s₃ := .ite h₂.upd h₂
  clear_value s₁ s₂ s₃
  exact .ite h₁ (.ite h₃.upd.setO h₃)

theorem Kept.tryWrites {ws : List SWrite} {i : Nat} {t : State} (e : Machine.tryWrites ws i s = .inr t) : Kept s₀ t := by
  induction ws generalizing s i with
  | nil => cases e; exact h
  | cons w ws ih =>
    simp only [Machine.tryWrites] at e
    split at e
    · cases e
    · split at e
      · cases e
      · exact ih h.putObj e

theorem Kept.trySet {ws : List SWrite} {t : State} (e : Machine.trySet ws s = .inr t) : Kept s₀ t := by
  simp only [Machine.trySet] at e
  split at e
  · cases e
  next _ _ e₁ =>
    split at e <;> cases e
    exact (h.tryWrites e₁).switchPins

theorem Kept.putRwp {ws : List SWrite} : Kept s₀ (s.putRwp ws) := by
  simp only [State.putRwp]
  exact Kept.ite h h.upd.took.measure

/-! ### The dictionary, the host path, peers, start-up, updates and the beat boundary -/

theorem Kept.sendReply {p : Nat} {r : Reply} : Kept s₀ (s.sendReply p r) := by
  simp only [State.sendReply]
  exact Kept.ite h.ownFrame h.upd

theorem Kept.answer {p session tag word : Nat} {keep : Bool} {a : Ans} : Kept s₀ (s.answer p session tag word keep a) :=
  (Kept.ite (Kept.ite h.addO h).setPath (Kept.ite h.addO h)).sendReply

theorem Kept.newSession {m : DMsg} : Kept s₀ (s.newSession m) := (Kept.ite h.endSession h).setPath

theorem Kept.renewed {m : DMsg} : Kept s₀ (s.renewed m) := Kept.ite h.setO h

theorem Kept.serve {m : DMsg} {full : Nat} {f : State → DMsg → State × Option Ans} (hf : ∀ t, Kept s₀ t → Kept s₀ (f t m).1) :
    Kept s₀ (s.serve m full f) := by
  simp only [State.serve]
  refine .ite h.addO.addO.answer ?_
  split
  · exact h.addO.newSession.sendReply
  · refine .ite h.addO.newSession ?_
    have hr : Kept s₀ (if m.bad = true then (((s.addO Od.dictRequests 1).newSession m).renewed m, some { status := rsMALFORMED })
        else f (((s.addO Od.dictRequests 1).newSession m).renewed m) m).1 := .iteFst h.addO.newSession.renewed
          (hf _ h.addO.newSession.renewed)
    split
    · exact hr.answer
    · exact hr

theorem Kept.dictRow {row p : Nat} {hdr : BitVec 128} {payload : List Byte} {full : Nat} {f : State → DMsg → State × Option Ans}
    (hf : ∀ t m, Kept s₀ t → Kept s₀ (f t m).1) : Kept s₀ (s.dictRow row p hdr payload full f) := by
  simp only [State.dictRow]
  split
  · exact h
  · exact .ite (h.serve fun t ht => hf t _ ht) h

theorem Kept.doRead {m : DMsg} : Kept s₀ (s.doRead m).1 := by
  simp only [State.doRead]
  split
  · exact h
  · exact Kept.iteFst h (Kept.iteFst h (Kept.iteFst h h.readObj))

theorem Kept.execDictRead {path : Fin 2} {hdr : BitVec 128} {payload : List (BitVec 8)} {full : Nat} :
    Answers s₀ (execDictRead path hdr payload full s) := .next (h.dictRow fun _ _ ht => ht.doRead)

theorem Kept.setStaged {ws : List SWrite} : Kept s₀ (s.setStaged ws) := by
  simp only [State.setStaged]
  exact h.upd.setO

theorem Kept.stage {w : SWrite} : Kept s₀ (s.stage w).1 := Kept.iteFst h h.setStaged

theorem Kept.writeVal {m : DMsg} {k : Nat} {r : ObjRow} {bs : List Byte} : Kept s₀ (s.writeVal m k r bs).1 := by
  simp only [State.writeVal]
  exact Kept.iteFst h (Kept.iteFst h (Kept.iteFst h.stage (Kept.iteFst h (Kept.iteFst h.setPath (Kept.iteFst h
    (Kept.iteFst h.upd h.putObj))))))

theorem Kept.doWrite {m : DMsg} : Kept s₀ (s.doWrite m).1 := by
  simp only [State.doWrite]
  split
  · exact h
  · refine Kept.iteFst h ?_
    split
    · exact h
    · exact h.writeVal

theorem Kept.execDictWrite {path : Fin 2} {hdr : BitVec 128} {payload : List (BitVec 8)} {full : Nat} :
    Answers s₀ (execDictWrite path hdr payload full s) := .next (h.dictRow fun _ _ ht => ht.doWrite)

theorem Kept.doSegReadInit {m : DMsg} : Kept s₀ (s.doSegReadInit m).1 := by
  unfold State.doSegReadInit
  extract_lets s₁
  have h₁ : Kept s₀ s₁ := h.dropSeg
  split
  · exact h₁
  · refine .iteFst h₁ (.iteFst h₁ ?_)
    extract_lets x
    have hx : Kept s₀ x.1 := .iteFst h₁ (.iteFst h₁ h₁.readObj)
    exact hx.setPath

theorem Kept.execSegReadInit {path : Fin 2} {hdr : BitVec 128} {payload : List (BitVec 8)} {full : Nat} :
    Answers s₀ (execSegReadInit path hdr payload full s) := .next (h.dictRow fun _ _ ht => ht.doSegReadInit)

theorem Kept.noSeg {m : DMsg} : Kept s₀ (s.noSeg m).1 := Kept.iteFst h.dropSeg h

theorem Kept.doSegRead {m : DMsg} : Kept s₀ (s.doSegRead m).1 := by
  simp only [State.doSegRead]
  split
  · exact h.noSeg
  · exact Kept.iteFst h (Kept.iteFst h h.setPath)

theorem Kept.execSegRead {path : Fin 2} {hdr : BitVec 128} {payload : List (BitVec 8)} {full : Nat} :
    Answers s₀ (execSegRead path hdr payload full s) := .next (h.dictRow fun _ _ ht => ht.doSegRead)

theorem Kept.endWrite {m : DMsg} {g : Seg} : Kept s₀ (s.endWrite m g).1 := by
  simp only [State.endWrite]
  split
  · exact h
  · split
    · exact h.dropSeg
    · exact Kept.iteFst (Kept.iteFst h.setPath.setStoreObj.measure h.setPath.setStoreObj) (Kept.iteFst
        (Kept.iteFst h.setPath.setImage.setUpdate.measure h.setPath.setImage.setUpdate) h.setPath.writeVal)

theorem Kept.doSegWriteInit {m : DMsg} : Kept s₀ (s.doSegWriteInit m).1 := by
  unfold State.doSegWriteInit
  extract_lets s₁ sel g s₂ x s₃ y
  have h₁ : Kept s₀ s₁ := h.dropSeg
  split
  · exact h₁
  · split
    · exact h₁
    · have h₂ : Kept s₀ s₂ := .ite h₁.setStoreObj (.ite h₁.setImage.setUpdate h₁)
      have h₃ : Kept s₀ s₃ := h₂.setPath
      exact .iteFst h₁ (.iteFst h₁ (.iteFst h₃.endWrite h₃))

theorem Kept.execSegWriteInit {path : Fin 2} {hdr : BitVec 128} {payload : List (BitVec 8)} {full : Nat} :
    Answers s₀ (execSegWriteInit path hdr payload full s) := .next (h.dictRow fun _ _ ht => ht.doSegWriteInit)

theorem Kept.doSegWrite {m : DMsg} : Kept s₀ (s.doSegWrite m).1 := by
  simp only [State.doSegWrite]
  split
  · exact h.noSeg
  · exact Kept.iteFst h (Kept.iteFst h.dropSeg (Kept.iteFst h (Kept.iteFst (Kept.ite h.setPath.setImage h.setPath)
      (Kept.ite h.setPath.setImage h.setPath).endWrite)))

theorem Kept.execSegWrite {path : Fin 2} {hdr : BitVec 128} {payload : List (BitVec 8)} {full : Nat} :
    Answers s₀ (execSegWrite path hdr payload full s) := .next (h.dictRow fun _ _ ht => ht.doSegWrite)

theorem Kept.doSegAbort {m : DMsg} : Kept s₀ (s.doSegAbort m).1 := h.dropSeg

theorem Kept.execSegAbort {path : Fin 2} {hdr : BitVec 128} {payload : List (BitVec 8)} {full : Nat} :
    Answers s₀ (execSegAbort path hdr payload full s) := .next (h.dictRow fun _ _ ht => ht.doSegAbort)

theorem Kept.execSegTimeout {path : Fin 2} : Answers s₀ (execSegTimeout path s) := .next (h.guardS h.dropSeg)

theorem Kept.holder {m : DMsg} {f : State → DMsg → State × Option Ans} (hf : Kept s₀ (f s m).1) : Kept s₀ (s.holder m f).1 :=
  .iteFst h (.iteFst h hf)

theorem Kept.acquire {m : DMsg} : Kept s₀ (s.acquire m).1 := by
  unfold State.acquire
  extract_lets st lease n d s₁ d₁ s₂ a
  have h₁ : Kept s₀ s₁ := .ite h.upd.setO.setO h
  have h₂ : Kept s₀ s₂ := h₁.upd.setO
  exact .iteFst h (.iteFst h h₂.setO)

theorem Kept.execLockAcquire {path : Fin 2} {hdr : BitVec 128} {payload : List (BitVec 8)} {full : Nat} :
    Answers s₀ (execLockAcquire path hdr payload full s) := .next (h.dictRow fun _ _ ht => ht.acquire)

theorem Kept.renew {x1 : DMsg} : Kept s₀ (s.renew x1).1 := h.setO

theorem Kept.fixStaged {m : DMsg} : Kept s₀ (s.fixStaged m).1 := by
  simp only [State.fixStaged]
  exact h.upd.setStaged

theorem Kept.abortStaged {x1 : DMsg} : Kept s₀ (s.abortStaged x1).1 := h.setStaged

theorem Kept.releaseLock {x1 : DMsg} : Kept s₀ (s.releaseLock x1).1 := h.freeLock

theorem Kept.breakByChain {m : DMsg} : Kept s₀ (s.breakByChain m).1 := Kept.iteFst h h.breakLock

theorem Kept.execLockRenew {path : Fin 2} {hdr : BitVec 128} {payload : List (BitVec 8)} {full : Nat} :
    Answers s₀ (execLockRenew path hdr payload full s) := .next (h.dictRow fun _ _ ht => ht.holder ht.renew)

theorem Kept.execLockCommit {path : Fin 2} {hdr : BitVec 128} {payload : List (BitVec 8)} {full : Nat} :
    Answers s₀ (execLockCommit path hdr payload full s) := .next (h.dictRow fun _ _ ht => ht.holder ht.fixStaged)

theorem Kept.execLockAbort {path : Fin 2} {hdr : BitVec 128} {payload : List (BitVec 8)} {full : Nat} :
    Answers s₀ (execLockAbort path hdr payload full s) := .next (h.dictRow fun _ _ ht => ht.holder ht.abortStaged)

theorem Kept.execLockRelease {path : Fin 2} {hdr : BitVec 128} {payload : List (BitVec 8)} {full : Nat} :
    Answers s₀ (execLockRelease path hdr payload full s) := .next (h.dictRow fun _ _ ht => ht.holder ht.releaseLock)

theorem Kept.execLockBreak {path : Fin 2} {hdr : BitVec 128} {payload : List (BitVec 8)} {full : Nat} :
    Answers s₀ (execLockBreak path hdr payload full s) := .next (h.dictRow fun _ _ ht => ht.breakByChain)

theorem Kept.execLockLeaseExpiry : Answers s₀ (execLockLeaseExpiry s) := .next (h.guardS h.breakLock)

theorem Kept.lastCommit {status handle pos : Nat} : Kept s₀ (s.lastCommit status handle pos) := h.setO

theorem Kept.committed {x : FixedSet} : Kept s₀ (s.committed x) := h.putRwp.addO.lastCommit.answer

theorem Kept.commitRefused {x : FixedSet} {i : Nat} : Kept s₀ (s.commitRefused x i) := (Kept.ite h.setStaged h).lastCommit.answer

theorem Kept.execCommitApply : Answers s₀ (execCommitApply s) := by
  simp only [Machine.execCommitApply]
  refine .next ?_
  split
  · exact h
  · split
    next _ e => exact (h.upd.trySet e).committed
    · exact h.upd.commitRefused

theorem Kept.execSubmissionEntryWrite {f : Fin 256} {off : Fin 16384} {bytes : List (BitVec 8)} : Answers s₀
    (execSubmissionEntryWrite f off bytes s) :=
  .next (h.guardS h.setFn)

theorem Kept.pushCmd {f : Nat} {c : HostCmd} : Kept s₀ (s.pushCmd f c) := h.setFn

theorem Kept.takeEntry {f v : Nat} : Kept s₀ (s.takeEntry f v) := by
  simp only [State.takeEntry]
  refine Kept.ite ?_ (Kept.ite h.ingress.addO.pushCmd (Kept.ite h.addO.pushCmd h))
  split
  · exact h.addO.resend
  · exact h.notice
  · split
    · exact h.notice
    next _ _ e => exact Kept.ite (h.takeAssembly e).addO.accept.cancelAtOnce (h.takeAssembly e).addO.accept

theorem Kept.acceptEntries {n f : Nat} : Kept s₀ (Machine.acceptEntries n s f) := by
  induction n generalizing s with
  | zero => exact h.setFn
  | succ n ih =>
    simp only [Machine.acceptEntries]
    exact .ite (ih h.setFn.takeEntry) h.setFn.addO

theorem Kept.execSubTailDoorbell {f : Fin 256} {tail : Fin 512} : Answers s₀ (execSubTailDoorbell f tail s) :=
  .next (h.guardS (Kept.ite h.addO (Kept.ite h.setFn.setFn.addO (Kept.ite h.setFn.acceptEntries h.setFn))))

theorem Kept.bodyRead {r : Nat} {bytes : List Byte} : Kept s₀ (s.bodyRead r bytes) := h.setReq

theorem Kept.execBodyDmaComplete {r : Nat} {ok : Bool} {bytes : List (BitVec 8)} {hint : Nat} : Answers s₀
    (execBodyDmaComplete r ok bytes hint s) :=
  .next (h.guardS (Kept.ite h.addO.refuse h.bodyRead.meetGate))

theorem Kept.execFnControlWrite {f : Fin 256} {v : BitVec 32} {cplBase outBase : BitVec 64} : Answers s₀
    (execFnControlWrite f v cplBase outBase s) :=
  .next (h.guardS (Kept.ite (Kept.ite h.setFn h.setFn.pumpOutput) h.setFn))

theorem Kept.drainWait {n f : Nat} : Kept s₀ (Machine.drainWait n s f) := by
  induction n generalizing s with
  | zero => exact h
  | succ n ih =>
    simp only [Machine.drainWait]
    split
    · exact h.setFn
    · exact .ite (ih h.setFn.putEntry) h

theorem Kept.execCplHeadWrite {f : Fin 256} {v : Fin 131072} {cycles : Nat} : Answers s₀ (execCplHeadWrite f v cycles s) :=
  .next (h.guardS (Kept.ite h.addO h).setFn.drainWait)

theorem Kept.resetFn {f : Nat} : Kept s₀ (s.resetFn f).1 :=
  ((h.applyAll (fun _ _ ht => ht.endReq)).applyAll (fun _ _ ht1 => ht1.freeBuf)).setFn

theorem Kept.resetFns : Kept s₀ (s.resetFns).1 := h.applyAllFst (fun _ _ ht => ht.resetFn)

theorem Kept.resetMailbox : Kept s₀ s.resetMailbox := h

theorem Kept.clearVfs : Kept s₀ s.clearVfs := by
  simp only [State.clearVfs]
  exact h.upd.setO

theorem Kept.hostRecord {f n : Nat} : Kept s₀ (s.hostRecord f n) := h.record

theorem Kept.hostReset {cause : Nat} : Kept s₀ (s.hostReset cause) :=
  h.resetFns.tidySteps.pumpOutput.clearVfs.addO.hostRecord.endSession.resetMailbox

theorem Kept.execHotReset : Answers s₀ (execHotReset s) := .next (h.guardS h.hostReset)

theorem Kept.execPcieLinkDown : Answers s₀ (execPcieLinkDown s) := .next (h.guardS h.hostReset.setO)

theorem Kept.resetOne {f : Nat} : Kept s₀ (s.resetOne f) := h.resetFn.tidySteps.pumpOutput.addO.hostRecord

theorem Kept.execFlr {f : Fin 256} : Answers s₀ (execFlr f s) :=
  .next (h.guardS (Kept.ite h.resetOne.clearVfs.endSession.resetMailbox h.resetOne))

theorem Kept.execFunctionReady {f rate lanes : Fin 256} : Answers s₀ (execFunctionReady f rate lanes s) :=
  .next (h.guardS (Kept.ite h.setFn.setO h.setFn))

theorem Kept.execVfEnableChange {en : Bool} {n : Fin 256} : Answers s₀ (execVfEnableChange en n s) := by
  simp only [Machine.execVfEnableChange]
  exact .next (h.guardS h.upd.setO)

theorem Kept.execMbGo {bytes : List (BitVec 8)} : Answers s₀ (execMbGo bytes s) := by
  simp only [Machine.execMbGo]
  exact .next (h.guardS h.upd)

theorem Kept.takeFlit {l kind hdr : Nat} {f : State → State} (hf : ∀ t, Kept s₀ t → Kept s₀ (f t)) : Kept s₀ (s.takeFlit l kind hdr f) :=
  .ite (hf _ h.addO) h

theorem Kept.inEpoch {l hdr : Nat} {reply : Bool} {f : State → State} (hf : Kept s₀ (f s)) : Kept s₀ (s.inEpoch l hdr reply f) := by
  simp only [State.inEpoch]
  exact .ite hf (.ite h.addO.addO h.addO)

theorem Kept.execPeerStepStart {l : Fin 8} {hdr : BitVec 128} {start fold : Nat} : Answers s₀ (execPeerStepStart l hdr start fold s) := by
  refine .next (h.takeFlit fun t ht => .ite ht ?_)
  dsimp only
  split
  · exact .ite ht.abandonOn.dropStep.setStake ht.abandonOn.dropStep.setStake.setStep.upd.setStake
  · exact .ite ht.setStake ht.setStake.setStep.upd.setStake

theorem Kept.stageFlit {a r h₁ : Nat} {payload : List Byte} {ref mag : FP32} {sk : List FP32} : Kept s₀
    (s.stageFlit a r h₁ payload ref mag sk) := by
  simp only [State.stageFlit]
  split
  · exact h
  · exact h.setArr

theorem Kept.execPeerData {l : Fin 8} {hdr : BitVec 128} {payload : List (BitVec 8)} {ref mag : BitVec 32} {sk : List (BitVec 32)}
    {reply : Bool} : Answers s₀ (execPeerData l hdr payload ref mag sk reply s) := by
  refine .next (h.takeFlit fun t ht => ht.inEpoch ?_)
  dsimp only
  split
  · exact ht
  · exact ht.stageFlit.increment

theorem Kept.execPeerIncrement {l : Fin 8} {hdr : BitVec 128} : Answers s₀ (execPeerIncrement l hdr s) := by
  refine .next (h.takeFlit fun t ht => ht.inEpoch ?_)
  split
  · exact ht
  · exact ht.increment

theorem Kept.execPeerCourseEnd {l : Fin 8} {hdr : BitVec 128} : Answers s₀ (execPeerCourseEnd l hdr s) := by
  refine .next (h.takeFlit fun t ht => ht.inEpoch ?_)
  split
  · exact ht
  · exact ht.setStep

theorem Kept.execPeerLinkControl {l : Fin 8} {hdr : BitVec 128} {ack : Fin 65536} : Answers s₀ (execPeerLinkControl l hdr ack s) :=
  .next (h.takeFlit fun _ ht => ht.setPeer)

theorem Kept.execPeerFlitCrcFail {l : Fin 8} : Answers s₀ (execPeerFlitCrcFail l s) := .next (h.guardS h.addO)

theorem Kept.execPeerLaneFault {l : Fin 8} {bad good : Fin 9} : Answers s₀ (execPeerLaneFault l bad good s) :=
  .next (h.guardS h.addO.addO.setO.setO)

theorem Kept.execPeerRetrainDone {l lane : Fin 8} {ns : Nat} : Answers s₀ (execPeerRetrainDone l lane ns s) :=
  .next (h.guardS h.setO.addO.fault1)

theorem Kept.peerFails {l : Nat} {off : Bool} : Kept s₀ (s.peerFails l off) :=
  Kept.ite h.setO.setO.setPeer.degradeWhere.faultRec h.setO.setO.setPeer.degradeWhere.fault1

theorem Kept.execPeerLinkFail {l : Fin 8} : Answers s₀ (execPeerLinkFail l s) := .next (h.guardS h.peerFails)

theorem Kept.execPeerLinkTrained {l : Fin 8} {good : Fin 9} {addr num : Fin 256} : Answers s₀ (execPeerLinkTrained l good addr num s) :=
  .next (h.guardS h.setO.setO.setO)

theorem Kept.execHeatHalving : Answers s₀ (execHeatHalving s) := by
  simp only [Machine.execHeatHalving]
  exact .next (h.guardS h.halveTiers.upd)

theorem Kept.retireGran {g : Nat} : Kept s₀ (s.retireGran g) := h.putGran.wipeGran

theorem Kept.rehome {g : Nat} {x : Gran} : Kept s₀ (s.rehome g x) := by
  unfold State.rehome
  extract_lets a r s₁ s₂ old
  have h₁ : Kept s₀ s₁ := by
    subst s₁
    split
    · exact h.abandonStep
    · exact h
  have h₂ : Kept s₀ s₂ := h₁.retireGran
  clear_value s₂
  obtain ⟨claim, hc⟩ : ∃ claim, claim = Machine.claimGrans := exists_eq
  rw [← hc]
  split
  next e => exact (h₂.claimGrans (hc ▸ e)).setRes
  · exact h₂.setRes

theorem Kept.execGranuleEccError {g : Fin 16384} {off : Fin 65536} {tag : Bool} : Answers s₀ (execGranuleEccError g off tag s) :=
  .next (h.guardS (Kept.ite h.addO.rehome (Kept.ite h.addO.cancelMigr.retireGran
    (Kept.ite h.addO.setPage.retireGran h.addO.retireGran))).fault1)

theorem Kept.execStackPageEccError {p : Fin 196608} {pc : Fin 64} {dir both index : Bool} : Answers s₀
    (execStackPageEccError p pc dir both index s) := by
  simp only [Machine.execStackPageEccError]
  exact .next (h.guardS (Kept.ite (Kept.ite (Kept.ite h.addO.failPage.upd.setIndex.setO h.addO.failPage.upd.setIndex)
    h.addO.failPage.upd).fault1 (Kept.ite (Kept.ite h.addO.failPage.upd.setIndex.setO h.addO.failPage.upd.setIndex)
    h.addO.failPage.upd).fault1))

theorem Kept.pageAgain {d : Nat} {x : Page} {t : State} {p : Nat} (e : s.pageAgain d x = some (t, p)) : Kept s₀ t := by
  unfold State.pageAgain at e
  obtain ⟨pages, hp⟩ : ∃ pages, pages = s.takePage := exists_eq
  rw [← hp] at e
  dsimp only at e
  split at e
  next e₁ => cases e; exact h.takePage (hp ▸ e₁)
  · split at e
    · cases e
    · exact h.takePage (hp ▸ e)

theorem Kept.renamePage {p q : Nat} : Kept s₀ (s.renamePage p q) := h

theorem Kept.execPageRefetchComplete {p : Fin 196608} {bytes : List Byte} : Answers s₀ (execPageRefetchComplete p bytes s) := by
  simp only [Machine.execPageRefetchComplete]
  refine .next ?_
  split
  · exact h
  · refine Kept.ite h.upd ?_
    split
    · exact h
    next _ _ e => exact (h.pageAgain e).putStack.renamePage.upd

theorem Kept.execPseudoChannelRetire {h₁ : Fin 8} {n : Fin 64} {trigger : Fin 3} : Answers s₀
    (execPseudoChannelRetire h₁ n trigger s) := by
  simp only [Machine.execPseudoChannelRetire]
  exact .next (h.guardS (h.failStack.applyAll (fun _ _ ht => ht.setPage)).subO.upd.fault1)

theorem Kept.scrubCounts {h₁ : Nat} {channels : List (Nat × Nat)} : Kept s₀ (s.scrubCounts h₁ channels) := by
  simp only [State.scrubCounts]
  exact h.addO.upd

theorem Kept.scrubPage {h₁ : Nat} {e : Nat × Nat} : Kept s₀ (State.scrubPage h₁ s e) := Kept.ite h.failPage.faultRec h

theorem Kept.execPatrolScrubPass {h₁ : Fin 8} {channels pages : List (Nat × Nat)} : Answers s₀
    (execPatrolScrubPass h₁ channels pages s) :=
  .next (h.guardS (h.scrubCounts.applyAll (fun _ _ ht => ht.scrubPage)))

theorem Kept.stackFails {h₁ : Nat} : Kept s₀ (s.stackFails h₁) := by
  simp only [State.stackFails]
  exact h.failStack.upd.subO.fault1

theorem Kept.execStackFailure {h₁ : Fin 8} : Answers s₀ (execStackFailure h₁ s) := .next (h.guardS h.stackFails)

theorem Kept.stepTo {n : Nat} : Kept s₀ (s.stepTo n) := by
  simp only [State.stepTo]
  exact h.setO.took.took.upd

theorem Kept.bootRecord : Kept s₀ s.bootRecord := h.record

theorem Kept.bootStop {v : Nat} : Kept s₀ (s.bootStop v) := by
  simp only [State.bootStop]
  exact h.upd.setO.bootRecord

theorem Kept.clearSlots : Kept s₀ s.clearSlots := by
  simp only [State.clearSlots]
  exact (h.applyAll (fun _ _ ht => ht.setO)).upd.setO

theorem Kept.attemptImage {i : Nat} : Kept s₀ (s.attemptImage i) := h.stepTo.clearSlots.addO.addO.record

theorem Kept.startImage {i : Nat} : Kept s₀ (s.startImage i) := by
  simp only [State.startImage]
  exact h.measure.measure.measure.took.measure.setO.setO.upd

theorem Kept.attemptOver {i : Nat} : Kept s₀ (s.attemptOver i) := by
  simp only [State.attemptOver]
  exact Kept.ite h.resetNow.resetNow.upd.setUpdate.addO h.resetNow.resetNow.upd

theorem Kept.tryImages {n : Nat} : Kept s₀ (Machine.tryImages n s) := by
  induction n generalizing s with
  | zero => exact h
  | succ n ih =>
    simp only [Machine.tryImages]
    split
    · exact h.bootStop
    · exact .ite h.attemptImage.startImage (ih h.attemptImage.attemptOver)

theorem Kept.beginStep8 : Kept s₀ s.beginStep8 := h.tryImages

theorem Kept.attemptFails : Kept s₀ s.attemptFails := by
  simp only [State.attemptFails]
  split
  · exact h
  · exact Kept.ite h.attemptOver.tryImages h

theorem Kept.execImageAttemptTimeout : Answers s₀ (execImageAttemptTimeout s) := .next h.attemptFails

theorem Kept.execBootCoreException : Answers s₀ (execBootCoreException s) := .next h.attemptFails

theorem Kept.execStandbyPowerApplied : Answers s₀ (execStandbyPowerApplied s) := by
  simp only [Machine.execStandbyPowerApplied]
  exact .next (h.guardS h.upd.setO.stepTo.record)

theorem Kept.mainPowerGone : Kept s₀ s.mainPowerGone := by
  simp only [State.mainPowerGone]
  exact Kept.ite (Kept.ite h.record.mainLost.upd h.record.mainLost.upd.setO).setUpdate.addO
    (Kept.ite h.record.mainLost.upd h.record.mainLost.upd.setO)

theorem Kept.execMainPowerLoss : Answers s₀ (execMainPowerLoss s) := .next (h.guardS h.mainPowerGone)

theorem Kept.execMainOvervoltage : Answers s₀ (execMainOvervoltage s) := .next (h.guardS h.mainPowerGone)

theorem Kept.execStandbyPowerLoss : Answers s₀ (execStandbyPowerLoss s) := by
  simp only [Machine.execStandbyPowerLoss]
  exact .next (h.guardS (Kept.ite h.mainPowerGone h).took.writeRec.upd)

theorem Kept.execMirrorCopy {outcome : Fin 3} : Answers s₀ (execMirrorCopy outcome s) := by
  simp only [Machine.execMirrorCopy]
  refine .next ?_
  refine h.guardS ?_
  split
  · exact Kept.ite h.subO.setO h
  · exact Kept.ite h.setO h
  · exact Kept.ite h.setO h

theorem Kept.bootStep2 {bad : Nat} {lost : List Nat} : Kept s₀ (s.bootStep2 bad lost) := by
  unfold State.bootStep2
  extract_lets d s₁ s₂ s₃ r s₄ s₅ t c s₆ pins b p s₇
  have h₁ : Kept s₀ s₁ := .ite h.upd h
  have h₃ : Kept s₀ s₃ := .ite (h₁.applyAll fun _ _ ht => ht.setO) (.record (h₁.applyAll fun _ _ ht => ht.setO))
  have h₄ : Kept s₀ s₄ := h₃.upd
  have h₅ : Kept s₀ s₅ := h₄.measure
  have ht : Kept s₀ t := h₅.setO.setO
  have h₆ : Kept s₀ s₆ := .ite ht.upd h₅.setO
  have h₇ : Kept s₀ s₇ := h₆.upd
  exact h₇.addO

theorem Kept.execStartUpStepAdvance {bad : Fin 3} {lost : List Nat} {mv : Fin 65536} {badStacks : List (Fin 8)} : Answers s₀
    (execStartUpStepAdvance bad lost mv badStacks s) := by
  simp only [Machine.execStartUpStepAdvance]
  refine .next ?_
  refine h.guardS ?_
  split
  · exact h.stepTo
  · exact h.bootStep2.stepTo
  · exact h.guardS h.stepTo
  · exact h.guardS h.upd.stepTo
  · exact h.guardS (h.setO.upd.record.stepTo.applyAll (fun _ _ ht => ht.wake))
  · exact h.guardS (Kept.ite h.bootStop h.stepTo)
  · exact Kept.ite (h.applyAll (fun _ _ ht1 => Kept.ite ht1 ht1.stackFails)).beginStep8 (h.applyAll
      (fun _ _ ht2 => Kept.ite ht2 ht2.stackFails)).bootStop
  · exact h.guardS (Kept.ite h.stepTo.setO h.stepTo)
  · exact h.guardS h.stepTo
  · exact h.upd.stepTo.bootRecord
  · exact h

theorem Kept.updateTook {c : Nat} : Kept s₀ (s.updateTook c) := h.setO.measure

theorem Kept.beginDrain {target : Option Nat} : Kept s₀ (s.beginDrain target) := by
  unfold State.beginDrain
  extract_lets b s₁ s₂ retry s₃ g
  have h₃ : Kept s₀ s₃ := h.upd.setO.applyAll fun _ _ ht => ht.refuse
  exact h₃.upd

theorem Kept.execUpdateActivate : Answers s₀ (execUpdateActivate s) := by
  simp only [Machine.execUpdateActivate]
  exact .next (h.guardS (Kept.ite h.updateTook.setUpdate.upd.beginStep8 h.updateTook.beginDrain))

theorem Kept.execUpdateConfirm : Answers s₀ (execUpdateConfirm s) := by
  simp only [Machine.execUpdateConfirm]
  exact .next (h.guardS h.updateTook.setO.putRwp.setUpdate)

theorem Kept.execUpdateCancel : Answers s₀ (execUpdateCancel s) := by
  simp only [Machine.execUpdateCancel]
  exact .next (h.guardS (Kept.ite (Kept.ite h.updateTook.upd h.updateTook.setUpdate) h.updateTook.setUpdate.addO.beginDrain))

theorem Kept.dropLoaded : Kept s₀ { s with
    prefixes := [], vocabs := [], grammars := [], tables := [], trieQ := [], tries := [], masks := [], blobs := []
    mem := { s.mem with refetch := [], queues := [] }, index := { s.index with dicts := [], dictPend := [] }
    dict := { s.dict with chain := { s.dict.chain with sels := [] }, mbox := { s.dict.mbox with sels := [] } } } := h.upd

theorem Kept.withOd {t : Tbl Nat} : Kept s₀ { s with od := t } := h.upd

theorem Kept.restart : Kept s₀ s.restart := by
  unfold State.restart
  have h₁ := h.applyAll (f := State.unloadModel) (xs := List.range 64) fun _ _ ht => ht.unloadModel
  refine .coresLost (.applyAll (.withOd (.applyAll (.setO (.dropLoaded (.applyAll (.ite h₁.unmountIndex h₁) ?_))) ?_)) ?_)
  · exact fun _ _ ht => ht.freePage
  · exact fun _ _ ht => .setPd (.ite ht ht.partsLost.setPdState)
  · exact fun _ _ ht => ht.resetNow.resetNow

theorem Kept.withBoot {b : Boot} : Kept s₀ { s with boot := b } := h.upd

theorem Kept.execDrainEnd : Answers s₀ (execDrainEnd s) := by
  obtain ⟨restart, hr⟩ : ∃ restart, restart = State.restart := exists_eq
  have hrestart : ∀ t, Kept s₀ t → Kept s₀ (restart t) := hr ▸ fun _ ht => ht.restart
  unfold Machine.execDrainEnd
  rw [← hr]
  refine .next (h.guardS ?_)
  extract_lets s₁ i s₂ s₃ b s₄
  have h₁ : Kept s₀ s₁ := by
    subst s₁
    split
    · exact .ite h.closeStripe h
    · exact h
  have h₂ : Kept s₀ s₂ := .ite h₁.setIndex h₁
  have h₄ : Kept s₀ s₄ := (hrestart _ h₂).withBoot
  split
  · exact h₄.setUpdate.beginStep8
  · exact h₄.beginStep8

theorem Kept.execPinHoldEnd {n : Fin 12} : Answers s₀ (execPinHoldEnd n s) := .next h

theorem Kept.execFaultPulseEnd {alert : Bool} : Answers s₀ (execFaultPulseEnd alert s) := by
  simp only [Machine.execFaultPulseEnd]
  exact .next (Kept.ite h.upd h.upd)

theorem Kept.execSyncMarkFall : Answers s₀ (execSyncMarkFall s) := .next h

theorem Kept.execUartTapRestart {frame : List Byte} : Answers s₀ (execUartTapRestart frame s) := by
  simp only [Machine.execUartTapRestart]
  exact .next (h.guardS (Kept.ite h.upd h))

theorem Kept.tap {instr tdo : Nat} : Kept s₀ (s.tap instr tdo) := h

theorem Kept.execTapReset : Answers s₀ (execTapReset s) := .next h.tap

theorem Kept.execBypass : Answers s₀ (execBypass s) := .next h.tap

theorem Kept.execIdcode : Answers s₀ (execIdcode s) := .next h.tap

theorem Kept.execSamplePreload {outside preload : BitVec 17} : Answers s₀ (execSamplePreload outside preload s) := by
  simp only [Machine.execSamplePreload]
  exact .next (h.tap.upd)

theorem Kept.execExtest : Answers s₀ (execExtest s) := .next (Kept.ite h.tap h.tap)

theorem Kept.execClamp : Answers s₀ (execClamp s) := .next (Kept.ite h.tap h.tap)

theorem Kept.execHighz : Answers s₀ (execHighz s) := .next (Kept.ite h.tap h.tap)

theorem Kept.marginChange {i mv clk : Nat} : Kept s₀ (s.marginChange i mv clk) := h.addO.setO.record

theorem Kept.setAged {i : Nat} {x : Aged} : Kept s₀ (s.setAged i x) := h

theorem Kept.ageHistory {i vmin : Nat} : Kept s₀ (s.ageHistory i vmin) := Kept.ite h.setAged h.setAged.setO

theorem Kept.marginPlan {i vmin50 : Nat} {margin : Int} : Kept s₀ (s.marginPlan i vmin50 margin) := by
  simp only [State.marginPlan]
  exact Kept.ite h.setAged.marginChange (Kept.ite (Kept.ite h.faultRec.retireArray h.upd.marginChange) (Kept.ite h.faultRec
    (Kept.ite h.upd.marginChange (Kept.ite h.setAged.marginChange h))))

theorem Kept.supplyKnown {i supply : Nat} : Kept s₀ (s.supplyKnown i supply) := Kept.ite h.setO h

theorem Kept.ageSampled {i vmin : Nat} : Kept s₀ (s.ageSampled i vmin) := h.setO.setAged.ageHistory

theorem Kept.execAgeingSample {d : Fin 38} {vmin vmin50 supply : Fin 65536} : Answers s₀ (execAgeingSample d vmin vmin50 supply s) :=
  .next (h.guardS h.supplyKnown.ageSampled.marginPlan)

theorem Kept.ageBoundary : Kept s₀ s.ageBoundary := by
  simp only [State.ageBoundary]
  refine Kept.ite (h.applyAll (fun _ _ ht => ?_)) ((h.applyAll (fun _ _ ht1 => ?_)).applyAll (fun _ _ ht2 => Kept.ite ht2 ht2.setAged))
  · split
    · exact ht.setO.setAged
    · exact ht
  · split
    · exact ht1.setO.setAged
    · exact ht1

theorem Kept.withdraw {r st : Nat} : Kept s₀ (s.withdraw r st) :=
  h.applyAll (fun _ _ ht => Kept.ite (Kept.ite ht.dropStep ht.setStep) ht)

theorem Kept.moveSeq {r : Nat} : Kept s₀ (s.moveSeq r) := by
  simp only [State.moveSeq]
  split
  · exact h
  · exact h.setSeq.truncate.nextRound

theorem Kept.applyMove {r st l : Nat} : Kept s₀ (s.applyMove r st l) := by
  simp only [State.applyMove]
  split
  · exact h.withdraw.setReq
  · exact h.withdraw.setReq
  · exact Kept.ite h.withdraw.setReq (Kept.ite (Kept.ite h.withdraw.setReq.pumpGather.tryRerank
      h.withdraw.setReq.setReq.askTokens.pumpGather) h.withdraw.setReq.tryRerank)
  · exact h.withdraw.setReq.moveSeq

theorem Kept.applyMoves : Kept s₀ s.applyMoves := by
  simp only [State.applyMoves]
  exact h.upd.applyAll (fun _ _ ht => Kept.ite ht (Kept.ite ht.upd ht.applyMove))

theorem Kept.assemble {m n : Nat} : Kept s₀ (Machine.assemble m n s) := by
  induction n generalizing s with
  | zero => exact h
  | succ n ih =>
    simp only [Machine.assemble]
    refine .ite h ?_
    split
    · exact h
    · exact ih h.setStep.upd

theorem Kept.assembleAll : Kept s₀ s.assembleAll := h.addO.applyAll (fun _ _ ht => Kept.ite ht.assemble ht)

theorem Kept.maskJobs {k n ep : Nat} {smp : List (Nat × Nat)} : Kept s₀ (s.maskJobs k n ep smp) := by
  simp only [State.maskJobs]
  refine h.applyAll (fun _ _ ht => ?_)
  split
  · exact ht
  · refine Kept.ite ht ?_
    split
    · exact ht
    · exact ht.applyAll (fun _ _ ht1 => ht1.queueMask)

theorem Kept.placeOn {k n : Nat} {smp : List (Nat × Nat)} : Kept s₀ (s.placeOn k n smp) :=
  (Kept.ite (Kept.ite h.addO h).setStake.setStep (Kept.ite h.addO h).setStake.setStep.sendStart).maskJobs.applyAll (fun _ _ ht => ht.wake)

theorem Kept.preempt {waits : List Nat} {k : Nat} : Kept s₀ (s.preempt waits k) :=
  Kept.ite h.addO.abandonStep (Kept.ite h.addO (Kept.ite h.addO.abandonStep h.addO.setStep))

theorem Kept.dropFailedSkeins {k : Nat} : Kept s₀ (s.dropFailedSkeins k) := h.applyAll (fun _ _ ht => ht.failReq)

theorem Kept.placeStep {k : Nat} {waits : List Nat} {smp : List (Nat × Nat)} : Kept s₀ (s.placeStep k waits smp) := by
  simp only [State.placeStep]
  refine Kept.ite h.dropFailedSkeins ?_
  split
  · exact h.dropFailedSkeins.placeOn
  · split
    · exact h.dropFailedSkeins
    · exact (h.dropFailedSkeins.applyAll (fun _ _ ht => ht.preempt)).placeOn

theorem Kept.placeSteps {waits : List Nat} {smp : List (Nat × Nat)} : Kept s₀ (s.placeAll waits smp) :=
  h.applyAll (fun _ _ ht => ht.placeStep)

theorem Kept.stakeScan : Kept s₀ s.stakeScan :=
  (h.applyAll (fun _ _ ht => Kept.ite ht (Kept.ite (Kept.ite ht ht.setStake) (Kept.ite ht.degradeStake
    (Kept.ite ht.degradeStake ht))))).applyAll (fun _ _ ht1 => ht1.setModel)

theorem Kept.overload : Kept s₀ s.overload := h.setO.setO

theorem Kept.releaseDeferred : Kept s₀ s.releaseDeferred := h.applyAll (fun _ _ ht => Kept.ite ht.releaseReq ht)

theorem Kept.firstMisses : Kept s₀ s.firstMisses := h.applyAll (fun _ _ ht => Kept.ite ht.setReq ht)

theorem Kept.monitor : Kept s₀ s.monitor := by
  simp only [State.monitor]
  refine h.addO.upd.setO.applyAll (fun _ _ ht => Kept.ite (Kept.ite ht.addO ht) (Kept.ite (Kept.ite ht.addO ht) ?_))
  split <;> exact (Kept.ite ht.addO ht).addO.upd

theorem Kept.applyDeferred : Kept s₀ s.applyDeferred := by
  simp only [State.applyDeferred]
  exact h.upd.applyAll (fun _ _ ht => ht.putObj)

theorem Kept.beatCounts : Kept s₀ s.beatCounts := by
  simp only [State.beatCounts]
  exact h.subO.upd

theorem Kept.syncPulse : Kept s₀ s.syncPulse := by
  simp only [State.syncPulse]
  exact Kept.ite h.upd h

theorem Kept.execBeatBoundary {waits : List Nat} {smp : List (Nat × Nat)} {inlet : Int} {watts : Nat} :
    Answers s₀ (execBeatBoundary waits smp inlet watts s) := by
  have hmoved := h.bufFaultRecs.carryRecords.beatAdvance.applyDeferred.beatCounts.ageBoundary.applyMoves
  have hskeins := hmoved.applyAll (f := fun t m => (t.skeinRetry m).skeinActivate m) (xs := List.range 64)
    fun _ _ ht => ht.skeinRetry.skeinActivate
  have hplaced := hskeins.stakeScan.assembleAll.placeSteps (waits := waits) (smp := smp)
  exact .next (h.guardS hplaced.overload.releaseDeferred.firstMisses.monitor.startMerges.setO.powerLimitUpdate.powerCapStep.syncPulse)

end

/-- Every command answers a next state, which keeps the queue and the canonical form of the two tiers. -/
theorem exec_answers (s : State) : (c : Instr) → Answers s (exec c s)
  | .beatBoundary .. => (Kept.refl s).execBeatBoundary
  | .syncMarkFall => (Kept.refl s).execSyncMarkFall
  | .standbyPowerApplied => (Kept.refl s).execStandbyPowerApplied
  | .startUpStepAdvance .. => (Kept.refl s).execStartUpStepAdvance
  | .imageAttemptTimeout => (Kept.refl s).execImageAttemptTimeout
  | .standbyPowerLoss => (Kept.refl s).execStandbyPowerLoss
  | .mainPowerLoss => (Kept.refl s).execMainPowerLoss
  | .mainOvervoltage => (Kept.refl s).execMainOvervoltage
  | .coolantInterlockOpen .. => (Kept.refl s).execCoolantInterlockOpen
  | .interlockOpenTimeout => (Kept.refl s).execInterlockOpenTimeout
  | .coolantInterlockClose .. => (Kept.refl s).execCoolantInterlockClose
  | .inletOverMax .. => (Kept.refl s).execInletOverMax
  | .thermalTripDie .. => (Kept.refl s).execThermalTripDie
  | .thermalTripClear .. => (Kept.refl s).execThermalTripClear
  | .thermalTripModule .. => (Kept.refl s).execThermalTripModule
  | .fastPowerComparator .. => (Kept.refl s).execFastPowerComparator
  | .throttleAssert => (Kept.refl s).execThrottleAssert
  | .throttleDeassert => (Kept.refl s).execThrottleDeassert
  | .aclkChange .. => (Kept.refl s).execAclkChange
  | .wakeGrant .. => (Kept.refl s).execWakeGrant
  | .wakeComplete .. => (Kept.refl s).execWakeComplete
  | .rampUpGrant .. => (Kept.refl s).execRampUpGrant
  | .rampComplete .. => (Kept.refl s).execRampComplete
  | .rampDownStart .. => (Kept.refl s).execRampDownStart
  | .idlePowerDown .. => (Kept.refl s).execIdlePowerDown
  | .quiesceComplete .. => (Kept.refl s).execQuiesceComplete
  | .domainReset .. => (Kept.refl s).execDomainReset
  | .domainResetComplete .. => (Kept.refl s).execDomainResetComplete
  | .domainFailure .. => (Kept.refl s).execDomainFailure
  | .mirrorCopy .. => (Kept.refl s).execMirrorCopy
  | .hangWatchdog .. => (Kept.refl s).execHangWatchdog
  | .partReset .. => (Kept.refl s).execPartReset
  | .keeperHeartbeat .. => (Kept.refl s).execKeeperHeartbeat
  | .keeperHeartbeatMiss .. => (Kept.refl s).execKeeperHeartbeatMiss
  | .keeperDualTimeout => (Kept.refl s).execKeeperDualTimeout
  | .spineOwnerWrite .. => (Kept.refl s).execSpineOwnerWrite
  | .coreHoldLimit .. => (Kept.refl s).execCoreHoldLimit
  | .mboxPop .. => (Kept.refl s).execMboxPop
  | .mboxStatusWrite .. => (Kept.refl s).execMboxStatusWrite
  | .postWindowWrite .. => (Kept.refl s).execPostWindowWrite
  | .bundle .. => (Kept.refl s).execBundle
  | .bundleWordWrite .. => (Kept.refl s).execBundleWordWrite
  | .bundlePortTimeout .. => (Kept.refl s).execBundlePortTimeout
  | .bundleComplete .. => (Kept.refl s).execBundleComplete
  | .tload .. => (Kept.refl s).execTload
  | .fetchComplete .. => (Kept.refl s).execFetchComplete
  | .feed .. => (Kept.refl s).execFeed
  | .skld .. => (Kept.refl s).execSkld
  | .mma .. => (Kept.refl s).execMma
  | .importBlk .. => (Kept.refl s).execImport
  | .estate .. => (Kept.refl s).execEstate
  | .smres .. => (Kept.refl s).execSmres
  | .norm .. => (Kept.refl s).execNorm
  | .tksub .. => (Kept.refl s).execTksub
  | .topkJobComplete .. => (Kept.refl s).execTopkJobComplete
  | .wait .. => (Kept.refl s).execWait
  | .signal .. => (Kept.refl s).execSignal
  | .fence .. => (Kept.refl s).execFence
  | .instructionComplete .. => (Kept.refl s).execInstructionComplete
  | .syncIncrementArrival .. => (Kept.refl s).execSyncIncrementArrival
  | .abandon .. => (Kept.refl s).execAbandon
  | .waitLimit .. => (Kept.refl s).execWaitLimit
  | .eccFault .. => (Kept.refl s).execEccFault
  | .liveTableError .. => (Kept.refl s).execLiveTableError
  | .liveTableReloadDone .. => (Kept.refl s).execLiveTableReloadDone
  | .slotLedgerError .. => (Kept.refl s).execSlotLedgerError
  | .tierDecision => (Kept.refl s).execTierDecision
  | .heatHalving => (Kept.refl s).execHeatHalving
  | .migrationComplete .. => (Kept.refl s).execMigrationComplete
  | .pageWriteComplete .. => (Kept.refl s).execPageWriteComplete
  | .granuleEccError .. => (Kept.refl s).execGranuleEccError
  | .stackPageEccError .. => (Kept.refl s).execStackPageEccError
  | .pageRefetchComplete .. => (Kept.refl s).execPageRefetchComplete
  | .pseudoChannelRetire .. => (Kept.refl s).execPseudoChannelRetire
  | .patrolScrubPass .. => (Kept.refl s).execPatrolScrubPass
  | .stackFailure .. => (Kept.refl s).execStackFailure
  | .modelLoad .. => (Kept.refl s).execModelLoad
  | .tileCopyComplete .. => (Kept.refl s).execTileCopyComplete
  | .modelLoadCommit .. => (Kept.refl s).execModelLoadCommit
  | .modelUnload .. => (Kept.refl s).execModelUnload
  | .modelUnloadCommit .. => (Kept.refl s).execModelUnloadCommit
  | .modelClear .. => (Kept.refl s).execModelClear
  | .modelFail .. => (Kept.refl s).execModelFail
  | .courseEnd .. => (Kept.refl s).execCourseEnd
  | .remoteWaitLimit .. => (Kept.refl s).execRemoteWaitLimit
  | .skeinLoad .. => (Kept.refl s).execSkeinLoad
  | .skeinWaitExpiry .. => (Kept.refl s).execSkeinWaitExpiry
  | .skeinCopyComplete .. => (Kept.refl s).execSkeinCopyComplete
  | .skeinRemove .. => (Kept.refl s).execSkeinRemove
  | .skeinSlotFree .. => (Kept.refl s).execSkeinSlotFree
  | .gateDecision .. => (Kept.refl s).execGateDecision
  | .deferLimitExpiry .. => (Kept.refl s).execDeferLimitExpiry
  | .deadlineExpiry .. => (Kept.refl s).execDeadlineExpiry
  | .prefixRelease .. => (Kept.refl s).execPrefixRelease
  | .detokenizeStream .. => (Kept.refl s).execDetokenizeStream
  | .diceJob .. => (Kept.refl s).execDiceJob
  | .diceJobComplete .. => (Kept.refl s).execDiceJobComplete
  | .maskFrameComplete .. => (Kept.refl s).execMaskFrameComplete
  | .rngKeyReplace .. => (Kept.refl s).execRngKeyReplace
  | .rngConditionedKey .. => (Kept.refl s).execRngConditionedKey
  | .vocabLoad .. => (Kept.refl s).execVocabLoad
  | .vocabLoadDone .. => (Kept.refl s).execVocabLoadDone
  | .vocabClose .. => (Kept.refl s).execVocabClose
  | .vocabCloseDone .. => (Kept.refl s).execVocabCloseDone
  | .grammarLoad .. => (Kept.refl s).execGrammarLoad
  | .grammarLoadDone .. => (Kept.refl s).execGrammarLoadDone
  | .grammarClose .. => (Kept.refl s).execGrammarClose
  | .grammarCloseDone .. => (Kept.refl s).execGrammarCloseDone
  | .certificationRecompute => (Kept.refl s).execCertificationRecompute
  | .tokenizeJob .. => (Kept.refl s).execTokenizeJob
  | .indexFormat => (Kept.refl s).execIndexFormat
  | .indexMount => (Kept.refl s).execIndexMount
  | .indexUnmount => (Kept.refl s).execIndexUnmount
  | .sideFlushTimeout => (Kept.refl s).execSideFlushTimeout
  | .sidePageProgramDone .. => (Kept.refl s).execSidePageProgramDone
  | .programFailure .. => (Kept.refl s).execProgramFailure
  | .stripeCloseTimeout => (Kept.refl s).execStripeCloseTimeout
  | .checkpoint => (Kept.refl s).execCheckpoint
  | .textPageProgramDone .. => (Kept.refl s).execTextPageProgramDone
  | .textReadDone .. => (Kept.refl s).execTextReadDone
  | .textDictLoad .. => (Kept.refl s).execTextDictLoad
  | .textDictRemove .. => (Kept.refl s).execTextDictRemove
  | .compaction => (Kept.refl s).execCompaction
  | .readReconstruct .. => (Kept.refl s).execReadReconstruct
  | .dieFailure .. => (Kept.refl s).execDieFailure
  | .rebuildBlockDone => (Kept.refl s).execRebuildBlockDone
  | .channelFailure .. => (Kept.refl s).execChannelFailure
  | .windowClose => (Kept.refl s).execWindowClose
  | .windowStart => (Kept.refl s).execWindowStart
  | .contextDone .. => (Kept.refl s).execContextDone
  | .rimMerge .. => (Kept.refl s).execRimMerge
  | .listCacheDecision => (Kept.refl s).execListCacheDecision
  | .listCacheFillDone .. => (Kept.refl s).execListCacheFillDone
  | .mergeProgrammed .. => (Kept.refl s).execMergeProgrammed
  | .listFlip .. => (Kept.refl s).execListFlip
  | .sideFloorRaise .. => (Kept.refl s).execSideFloorRaise
  | .tombstoneRetire => (Kept.refl s).execTombstoneRetire
  | .versionRelease .. => (Kept.refl s).execVersionRelease
  | .tableLoad .. => (Kept.refl s).execTableLoad
  | .tableLoadDone .. => (Kept.refl s).execTableLoadDone
  | .tableClose .. => (Kept.refl s).execTableClose
  | .tableCloseDone .. => (Kept.refl s).execTableCloseDone
  | .poolReadReply .. => (Kept.refl s).execPoolReadReply
  | .poolReadTimeout .. => (Kept.refl s).execPoolReadTimeout
  | .poolTagQuarantineEnd .. => (Kept.refl s).execPoolTagQuarantineEnd
  | .poolLinkDown => (Kept.refl s).execPoolLinkDown
  | .bagPool .. => (Kept.refl s).execBagPool
  | .rowCacheDecision => (Kept.refl s).execRowCacheDecision
  | .chunkFillDone .. => (Kept.refl s).execChunkFillDone
  | .promptPack .. => (Kept.refl s).execPromptPack
  | .datagramArrival .. => (Kept.refl s).execDatagramArrival
  | .requestFragment .. => (Kept.refl s).execRequestFragment
  | .reassemblyTimeout .. => (Kept.refl s).execReassemblyTimeout
  | .cancel .. => (Kept.refl s).execCancel
  | .preCancelExpiry .. => (Kept.refl s).execPreCancelExpiry
  | .free .. => (Kept.refl s).execFree
  | .fetch .. => (Kept.refl s).execFetch
  | .outputRetainExpiry .. => (Kept.refl s).execOutputRetainExpiry
  | .tenantDisable .. => (Kept.refl s).execTenantDisable
  | .submissionEntryWrite .. => (Kept.refl s).execSubmissionEntryWrite
  | .subTailDoorbell .. => (Kept.refl s).execSubTailDoorbell
  | .bodyDmaComplete .. => (Kept.refl s).execBodyDmaComplete
  | .fnControlWrite .. => (Kept.refl s).execFnControlWrite
  | .cplHeadWrite .. => (Kept.refl s).execCplHeadWrite
  | .hotReset => (Kept.refl s).execHotReset
  | .flr .. => (Kept.refl s).execFlr
  | .pcieLinkDown => (Kept.refl s).execPcieLinkDown
  | .functionReady .. => (Kept.refl s).execFunctionReady
  | .mbGo .. => (Kept.refl s).execMbGo
  | .peerStepStart .. => (Kept.refl s).execPeerStepStart
  | .peerData .. => (Kept.refl s).execPeerData
  | .peerIncrement .. => (Kept.refl s).execPeerIncrement
  | .peerCourseEnd .. => (Kept.refl s).execPeerCourseEnd
  | .peerLinkControl .. => (Kept.refl s).execPeerLinkControl
  | .peerFlitCrcFail .. => (Kept.refl s).execPeerFlitCrcFail
  | .peerLaneFault .. => (Kept.refl s).execPeerLaneFault
  | .peerRetrainDone .. => (Kept.refl s).execPeerRetrainDone
  | .peerLinkFail .. => (Kept.refl s).execPeerLinkFail
  | .spineFlitResend .. => (Kept.refl s).execSpineFlitResend
  | .d2dFlitRetry .. => (Kept.refl s).execD2dFlitRetry
  | .linkLaneRepair .. => (Kept.refl s).execLinkLaneRepair
  | .frameRepeat .. => (Kept.refl s).execFrameRepeat
  | .enumerate .. => (Kept.refl s).execEnumerate
  | .probe .. => (Kept.refl s).execProbe
  | .echo .. => (Kept.refl s).execEcho
  | .pathDown .. => (Kept.refl s).execPathDown
  | .upstreamLinkUp => (Kept.refl s).execUpstreamLinkUp
  | .upstreamLinkDown .. => (Kept.refl s).execUpstreamLinkDown
  | .addressHoldExpiry => (Kept.refl s).execAddressHoldExpiry
  | .beatWord .. => (Kept.refl s).execBeatWord
  | .beatMarkerMissing => (Kept.refl s).execBeatMarkerMissing
  | .holdoverLimit => (Kept.refl s).execHoldoverLimit
  | .dictRead .. => (Kept.refl s).execDictRead
  | .dictWrite .. => (Kept.refl s).execDictWrite
  | .segReadInit .. => (Kept.refl s).execSegReadInit
  | .segRead .. => (Kept.refl s).execSegRead
  | .segWriteInit .. => (Kept.refl s).execSegWriteInit
  | .segWrite .. => (Kept.refl s).execSegWrite
  | .segAbort .. => (Kept.refl s).execSegAbort
  | .segTimeout .. => (Kept.refl s).execSegTimeout
  | .lockAcquire .. => (Kept.refl s).execLockAcquire
  | .lockRenew .. => (Kept.refl s).execLockRenew
  | .lockCommit .. => (Kept.refl s).execLockCommit
  | .commitApply => (Kept.refl s).execCommitApply
  | .lockAbort .. => (Kept.refl s).execLockAbort
  | .lockRelease .. => (Kept.refl s).execLockRelease
  | .lockBreak .. => (Kept.refl s).execLockBreak
  | .lockLeaseExpiry => (Kept.refl s).execLockLeaseExpiry
  | .ageingSample .. => (Kept.refl s).execAgeingSample
  | .updateActivate => (Kept.refl s).execUpdateActivate
  | .updateConfirm => (Kept.refl s).execUpdateConfirm
  | .updateCancel => (Kept.refl s).execUpdateCancel
  | .drainEnd => (Kept.refl s).execDrainEnd
  | .pinHoldEnd .. => (Kept.refl s).execPinHoldEnd
  | .faultPulseEnd .. => (Kept.refl s).execFaultPulseEnd
  | .uartTapRestart .. => (Kept.refl s).execUartTapRestart
  | .tapReset => (Kept.refl s).execTapReset
  | .bypass => (Kept.refl s).execBypass
  | .idcode => (Kept.refl s).execIdcode
  | .samplePreload .. => (Kept.refl s).execSamplePreload
  | .extest => (Kept.refl s).execExtest
  | .clamp => (Kept.refl s).execClamp
  | .highz => (Kept.refl s).execHighz
  | .downstreamLinkDown .. => (Kept.refl s).execDownstreamLinkDown
  | .downstreamLinkUp => (Kept.refl s).execDownstreamLinkUp
  | .poolLinkUp .. => (Kept.refl s).execPoolLinkUp
  | .peerLinkTrained .. => (Kept.refl s).execPeerLinkTrained
  | .ethernetLinkDown .. => (Kept.refl s).execEthernetLinkDown
  | .ethernetLinkUp .. => (Kept.refl s).execEthernetLinkUp
  | .inletTempRecovered .. => (Kept.refl s).execInletTempRecovered
  | .datagramAuthFail .. => (Kept.refl s).execDatagramAuthFail
  | .bootCoreException => (Kept.refl s).execBootCoreException
  | .slotLedgerRebuilt => (Kept.refl s).execSlotLedgerRebuilt
  | .indexDirectoryRebuilt => (Kept.refl s).execIndexDirectoryRebuilt
  | .textFlushTimeout => (Kept.refl s).execTextFlushTimeout
  | .vfEnableChange .. => (Kept.refl s).execVfEnableChange

/-- Settles O46: the command at the front is carried out in the state with the queue's rest, and no command touches the queue. -/
theorem everyStepTakesExactlyOneCommand : Obligations.EveryStepTakesExactlyOneCommand := by
  intro s c rest hqueue
  obtain ⟨t, hnext, hrest, -⟩ := exec_answers { s with pending := rest } c
  exact ⟨t, by rw [step, hqueue]; exact hnext, hrest⟩

/-- Settles O50: every command keeps the canonical form of the two tiers, and an idle step leaves the state. -/
theorem memoryTiersStayCanonical : Obligations.MemoryTiersStayCanonical := by
  intro s t hwf hstep
  unfold step at hstep
  split at hstep
  · cases hstep
    exact hwf
  next c rest _ =>
    obtain ⟨u, hnext, -, hkeep⟩ := exec_answers { s with pending := rest } c
    rw [hnext] at hstep
    cases hstep
    exact hkeep hwf

end Sys2Proof.Machine
end

section
namespace Sys2Proof.Machine

/-! ## The step and the command words -/

theorem step_of_front {s : State} {c : Instr} {rest : List Instr} (hqueue : s.pending = c :: rest) :
    step s = exec c { s with pending := rest } := by
  unfold step
  rw [hqueue]

theorem step_of_empty {s : State} (hqueue : s.pending = []) : step s = .next s := by
  unfold step
  rw [hqueue]

/-- Settles O45: by the branches of the step; no word decodes, so none is put in front of the queue. -/
theorem stepTakesTheFrontCommand : Obligations.StepTakesTheFrontCommand :=
  ⟨fun _ _ _ hqueue => step_of_front hqueue, fun _ hqueue => step_of_empty hqueue, fun _ _ => rfl, fun _ _ _ => rfl⟩

/-! ## Packed fields (R520, R526) -/

theorem packFields_append_single (fs : List (Nat × Nat)) (n v : Nat) :
    packFields (fs ++ [(n, v)]) = packFields fs * 2 ^ n + v % 2 ^ n := by simp [packFields]

theorem fieldsWidth_eq_sum (fs : List (Nat × Nat)) : fieldsWidth fs = (fs.map Prod.fst).sum := by
  rw [fieldsWidth, List.sum_eq_foldl, List.foldl_map]

theorem fieldsWidth_append (fs gs : List (Nat × Nat)) : fieldsWidth (fs ++ gs) = fieldsWidth fs + fieldsWidth gs := by
  simp [fieldsWidth_eq_sum]

theorem packFields_lt (fs : List (Nat × Nat)) : packFields fs < 2 ^ fieldsWidth fs := by
  induction fs using List.reverseRecOn with
  | nil => simp [packFields, fieldsWidth]
  | append_singleton fs f ih =>
    obtain ⟨n, v⟩ := f
    have hv : v % 2 ^ n < 2 ^ n := Nat.mod_lt _ (Nat.two_pow_pos n)
    rw [packFields_append_single, fieldsWidth_append]
    calc packFields fs * 2 ^ n + v % 2 ^ n < (packFields fs + 1) * 2 ^ n := by rw [Nat.add_one_mul]; omega
      _ ≤ 2 ^ fieldsWidth fs * 2 ^ n := Nat.mul_le_mul_right _ ih
      _ = 2 ^ (fieldsWidth fs + fieldsWidth [(n, v)]) := by simp [fieldsWidth, pow_add]

theorem packFields_append (fs gs : List (Nat × Nat)) :
    packFields (fs ++ gs) = packFields fs * 2 ^ fieldsWidth gs + packFields gs := by
  induction gs using List.reverseRecOn with
  | nil => simp [packFields, fieldsWidth]
  | append_singleton gs g ih =>
    obtain ⟨n, v⟩ := g
    rw [← List.append_assoc, packFields_append_single, packFields_append_single, ih, fieldsWidth_append]
    simp [fieldsWidth, pow_add]
    ring

/-- A packed field reads back: the fields after it are below its bits, those before it above. -/
theorem bits_packFields {fs gs : List (Nat × Nat)} {n v h l : Nat} (hl : fieldsWidth gs = l) (hn : h + 1 - l = n) :
    bits (packFields (fs ++ (n, v) :: gs)) h l = v % 2 ^ n := by
  subst hl hn
  have hpack := packFields_append (fs ++ [(h + 1 - fieldsWidth gs, v)]) gs
  rw [List.append_assoc, List.singleton_append] at hpack
  rw [bits, hpack, Nat.add_comm, Nat.add_mul_div_right _ _ (Nat.two_pow_pos _), Nat.div_eq_of_lt (packFields_lt gs), Nat.zero_add,
    packFields_append_single, Nat.mul_add_mod_self_right, Nat.mod_mod]

theorem bitAt_packFields {fs gs : List (Nat × Nat)} {b : Bool} {l : Nat} (hl : fieldsWidth gs = l) :
    bitAt (packFields (fs ++ (1, b2n b) :: gs)) l = b := by
  have hbit := bits_packFields (fs := fs) (v := b2n b) (h := l) hl (by omega : l + 1 - l = 1)
  have hsub : l + 1 - l = 1 := by omega
  rw [bits, hsub, pow_one] at hbit
  rw [bitAt, hbit]
  cases b <;> rfl

/-! ## Chain headers and beat words (R520, R526) -/

theorem frameHead_lt (ft dst src session handle tag len : Nat) (up : Bool) :
    frameHead ft dst src up session handle tag len < 2 ^ 128 := packFields_lt _

section
variable (ft dst src session handle tag len : Nat) (up : Bool)

theorem fVersion_frameHead : fVersion (frameHead ft dst src up session handle tag len) = 1 :=
  bits_packFields (fs := []) rfl rfl

theorem fType_frameHead : fType (frameHead ft dst src up session handle tag len) = ft % 2 ^ 4 :=
  bits_packFields (fs := [_]) rfl rfl

theorem fDst_frameHead : fDst (frameHead ft dst src up session handle tag len) = dst % 2 ^ 7 :=
  bits_packFields (fs := [_, _]) rfl rfl

theorem fSrc_frameHead : fSrc (frameHead ft dst src up session handle tag len) = src % 2 ^ 7 :=
  bits_packFields (fs := [_, _, _]) rfl rfl

theorem bitAt_frameHead_up : bitAt (frameHead ft dst src up session handle tag len) 105 = up :=
  bitAt_packFields (fs := [_, _, _, _]) rfl

theorem fSession_frameHead : fSession (frameHead ft dst src up session handle tag len) = session % 2 ^ 16 :=
  bits_packFields (fs := [_, _, _, _, _]) rfl rfl

theorem fHandle_frameHead : fHandle (frameHead ft dst src up session handle tag len) = handle % 2 ^ 16 :=
  bits_packFields (fs := [_, _, _, _, _, _]) rfl rfl

theorem fTag_frameHead : fTag (frameHead ft dst src up session handle tag len) = tag % 2 ^ 16 :=
  bits_packFields (fs := [_, _, _, _, _, _, _]) rfl rfl

theorem fLen_frameHead : fLen (frameHead ft dst src up session handle tag len) = len % 2 ^ 11 :=
  bits_packFields (fs := [_, _, _, _, _, _, _, _]) rfl rfl

theorem reserved_frameHead : bits (frameHead ft dst src up session handle tag len) 45 0 = 0 :=
  bits_packFields (fs := [_, _, _, _, _, _, _, _, _]) rfl rfl

end

theorem frameOk_frameHead {ft : Nat} {payload : List Byte} (dst src session handle tag : Nat) (up : Bool) (hft : 1 ≤ ft ∧ ft ≤ 8)
    (hlen : payload.length ≤ 1032) : frameOk (frameHead ft dst src up session handle tag payload.length) payload = true := by
  have htype : ft % 2 ^ 4 = ft := Nat.mod_eq_of_lt (by omega)
  have hbytes : payload.length % 2 ^ 11 = payload.length := Nat.mod_eq_of_lt (by omega)
  simp only [frameOk, fVersion_frameHead, fType_frameHead, reserved_frameHead, fLen_frameHead, htype, hbytes]
  simp [hft, hlen]

theorem crc8_lt (bs : List Byte) : crc8 bs < 2 ^ 8 := by
  have hbit : ∀ x : Nat, (if bitAt x 7 then Nat.xor (x * 2 % 256) 0x07 else x * 2 % 256) < 256 := fun x => by
    split
    · exact Nat.xor_lt_two_pow (n := 8) (Nat.mod_lt _ (by decide)) (by decide)
    · exact Nat.mod_lt _ (by decide)
  induction bs using List.reverseRecOn with
  | nil => decide
  | append_singleton bs b _ =>
    rw [crc8, List.foldl_append]
    exact hbit _

section
variable (count period : Nat) (holdover : Bool)

/-- The fields of a beat word above its check byte. -/
def beatFields : List (Nat × Nat) := [(48, count), (7, period), (1, b2n holdover)]

/-- The check byte is one more field. -/
theorem beatWord_eq_packFields : beatWord count period holdover =
    packFields (beatFields count period holdover ++ [(8, crc8 (beBytes 7 (packFields (beatFields count period holdover))))]) := by
  rw [packFields_append_single, Nat.mod_eq_of_lt (crc8_lt _)]
  rfl

theorem beatWord_lt : beatWord count period holdover < 2 ^ 64 := by
  rw [beatWord_eq_packFields]
  exact packFields_lt _

theorem bwCount_beatWord : bwCount (beatWord count period holdover) = count % 2 ^ 48 := by
  rw [beatWord_eq_packFields]
  exact bits_packFields (fs := []) rfl rfl

theorem bwPeriod_beatWord : bwPeriod (beatWord count period holdover) = period % 2 ^ 7 := by
  rw [beatWord_eq_packFields]
  exact bits_packFields (fs := [_]) rfl rfl

theorem bwHoldover_beatWord : bwHoldover (beatWord count period holdover) = holdover := by
  rw [beatWord_eq_packFields]
  exact bitAt_packFields (fs := [_, _]) rfl

theorem wordOk_beatWord : wordOk (beatWord count period holdover) = decide (2 ≤ period % 2 ^ 7 ∧ period % 2 ^ 7 ≤ 100) := by
  have hcheck : crc8 (beBytes 7 (beatWord count period holdover / 256)) = beatWord count period holdover % 256 := by
    have hlt : crc8 (beBytes 7 (packFields [(48, count), (7, period), (1, b2n holdover)])) < 256 := crc8_lt _
    rw [beatWord, Nat.mul_comm, Nat.mul_add_div (by decide), Nat.mul_add_mod, Nat.div_eq_of_lt hlt, Nat.add_zero, Nat.mod_eq_of_lt hlt]
  rw [wordOk, hcheck, bwPeriod_beatWord, beq_self_eq_true, Bool.true_and]

end

/-- Settles O56: each field is read back by the fields packed after it. -/
theorem headersAndBeatWordsReadBack : Obligations.HeadersAndBeatWordsReadBack := by
  refine ⟨fun ft dst src session handle tag len up hft hdst hsrc hsession hhandle htag hlen => ?_,
    fun ft dst src session handle tag up payload hlo hhi hlen => frameOk_frameHead dst src session handle tag up ⟨hlo, hhi⟩ hlen,
    fun count period holdover hcount hperiod => ?_⟩
  · refine ⟨frameHead_lt .., fVersion_frameHead .., (fType_frameHead ..).trans (Nat.mod_eq_of_lt hft),
      (fDst_frameHead ..).trans (Nat.mod_eq_of_lt hdst), (fSrc_frameHead ..).trans (Nat.mod_eq_of_lt hsrc), bitAt_frameHead_up ..,
      (fSession_frameHead ..).trans (Nat.mod_eq_of_lt hsession), (fHandle_frameHead ..).trans (Nat.mod_eq_of_lt hhandle),
      (fTag_frameHead ..).trans (Nat.mod_eq_of_lt htag), (fLen_frameHead ..).trans (Nat.mod_eq_of_lt hlen), reserved_frameHead ..⟩
  · refine ⟨beatWord_lt .., (bwCount_beatWord ..).trans (Nat.mod_eq_of_lt hcount), (bwPeriod_beatWord ..).trans (Nat.mod_eq_of_lt hperiod),
      bwHoldover_beatWord .., ?_⟩
    rw [wordOk_beatWord, Nat.mod_eq_of_lt hperiod]

end Sys2Proof.Machine
end

section
namespace Sys2Proof.Machine

/-! ## The epoch of a power domain (R591) -/

theorem odWidth_pdEpoch : ∀ p < 98, odWidth (Od.pdEpoch p) = 16 := by decide +kernel

/-- Setting a domain's state advances that domain's epoch when it leaves ON or RETAINED; the notices of it leave every epoch. -/
theorem State.o_pdEpoch_setPdState (s : State) {p q : Nat} (st : Nat) (hp : p < 98) (hq : q < 98) :
    (s.setPdState p st).o (Od.pdEpoch q) =
      if ((s.pdState p = pdON ∨ s.pdState p = pdRETAINED) ∧ st ≠ s.pdState p) ∧ q = p then (s.o (Od.pdEpoch p) + 1) % 2 ^ 16
      else s.o (Od.pdEpoch q) := by
  have hstate (i : Nat) (hi : i < 98) : (s.setO (Od.pdState p) st).o (Od.pdEpoch i) = s.o (Od.pdEpoch i) :=
    State.o_setO_ne _ _ (by unfold Od.pdEpoch Od.pdState; omega)
  simp only [State.setPdState]
  split
  next hleaves =>
    simp only [Bool.and_eq_true, Bool.or_eq_true, beq_iff_eq, bne_iff_ne] at hleaves
    refine (applyAll_frame (fun t : State => t.o (Od.pdEpoch q)) (fun t c => ?_) _ _).trans ?_
    · split
      · exact State.o_post _ _ _ _ _ (by unfold Od.pdEpoch Od.mirrorLag; omega) (by unfold Od.pdEpoch Od.mailboxOverflowCount; omega)
      · rfl
    · simp only [State.o_addO, hstate p hp, hstate q hq, odWidth_pdEpoch p hp, hleaves, ne_eq, not_false_eq_true, and_self, true_and,
        Nat.add_left_cancel_iff]
  next hstays =>
    simp only [Bool.and_eq_true, Bool.or_eq_true, beq_iff_eq, bne_iff_ne] at hstays
    rw [if_neg fun h => hstays h.1]
    exact hstate q hq

theorem State.sameWork_setPdState (s : State) (p st : Nat) : SameWork s (s.setPdState p st) := by constructor <;> simp

/-- Settles O57. -/
theorem domainEpochsAdvance : Obligations.DomainEpochsAdvance := by
  intro s p st hp hst
  refine ⟨State.pdState_setPdState_same s p st hp (by omega), ?_, fun q hq hne => ⟨?_, ?_⟩, State.sameWork_setPdState s p st⟩
  · simp only [State.o_pdEpoch_setPdState s st hp hp, and_true]
  · rw [State.pdState_setPdState s p st hp hq (by omega), if_neg hne]
  · rw [State.o_pdEpoch_setPdState s st hp hq, if_neg fun h => hne h.2]

end Sys2Proof.Machine
end

section
namespace Sys2Proof.Machine

/-! ## COMMIT_APPLY (R542) -/

theorem State.o_setPath (s : State) (p k : Nat) (x : Path) : (s.setPath p x).o k = s.o k := by
  unfold State.setPath
  split <;> exact State.o_congr rfl k

@[simp] theorem State.od_sendFrame (s : State) (up : Bool) (f : Frame) : (s.sendFrame up f).od = s.od := by
  simp only [State.sendFrame, apply_ite State.od, ite_self]

theorem State.o_sendReply (s : State) (p k : Nat) (r : Reply) : (s.sendReply p r).o k = s.o k := by
  simp only [State.sendReply]
  split
  · exact State.o_congr (State.od_sendFrame _ _ _) k
  · exact State.o_congr rfl k

/-- A reply writes no object but DICT_ERRORS. -/
theorem State.o_answer (s : State) (p session tag word : Nat) (keep : Bool) (a : Ans) {k : Nat} (h : k ≠ Od.dictErrors) :
    (s.answer p session tag word keep a).o k = s.o k := by
  have herr : (if 2 ≤ a.status ∧ a.status ≤ 14 then s.addO Od.dictErrors 1 else s).o k = s.o k := by
    split
    · rw [State.o_addO, if_neg h]
    · rfl
  simp only [State.answer, State.o_sendReply]
  split
  · rw [State.o_setPath, herr]
  · exact herr

/-- A refused set writes no object but LOCK_STAGED, LAST_COMMIT and DICT_ERRORS. -/
theorem State.o_commitRefused (s : State) (x : FixedSet) (i : Nat) {k : Nat} (hstaged : k ≠ Od.lockStaged) (hlast : k ≠ Od.lastCommit)
    (herrors : k ≠ Od.dictErrors) : (s.commitRefused x i).o k = s.o k := by
  simp only [State.commitRefused, State.lastCommit, State.o_answer _ _ _ _ _ _ _ herrors, State.o_setO_ne _ _ hlast]
  split
  · exact (State.o_setO_ne _ _ hstaged).trans (State.o_congr rfl k)
  · rfl

section
variable {s : State} {x : FixedSet} {r : List FixedSet}

theorem exec_commitApply_applies {t : State} (hfixed : s.dict.fixed = x :: r)
    (hset : trySet x.writes { s with dict := { s.dict with fixed := r } } = .inr t) : exec .commitApply s = .next (t.committed x) := by
  change execCommitApply s = _
  simp only [execCommitApply, hfixed, hset]

theorem exec_commitApply_refused {i : Nat} (hfixed : s.dict.fixed = x :: r)
    (hset : trySet x.writes { s with dict := { s.dict with fixed := r } } = .inl i) :
    exec .commitApply s = .next (({ s with dict := { s.dict with fixed := r } } : State).commitRefused x i) := by
  change execCommitApply s = _
  simp only [execCommitApply, hfixed, hset]

end

/-- Settles O44: a set that passes whole is the state of all its writes; a refused one writes no object but those of its report. -/
theorem commitIsAllOrNothing : Obligations.CommitIsAllOrNothing :=
  ⟨fun _ _ _ _ hfixed hset => exec_commitApply_applies hfixed hset, fun _ x _ i hfixed hset =>
    ⟨exec_commitApply_refused hfixed hset, fun k hstaged hlast herrors =>
      (State.o_commitRefused _ x i hstaged hlast herrors).trans (State.o_congr rfl k)⟩⟩

end Sys2Proof.Machine
end

section
namespace Sys2Proof.Machine

/-! ## The input power and the power limit at a beat boundary (R579, R655) -/

@[simp] theorem State.od_powerCapStep (s : State) : s.powerCapStep.od = s.od := by
  simp only [State.powerCapStep, apply_ite State.od, ite_self]

@[simp] theorem State.od_syncPulse (s : State) : s.syncPulse.od = s.od := by
  simp only [State.syncPulse, apply_ite State.od, ite_self]

/-- What the last part of a boundary leaves in MAIN_INPUT_W and POWER_LIMIT_W, whatever the state it begins in. -/
theorem State.o_powerTaken (s : State) (inlet : Int) (watts k : Nat) :
    ((s.setO Od.mainInputW watts).powerLimitUpdate inlet).powerCapStep.syncPulse.o k =
      ((s.setO Od.mainInputW watts).powerLimitUpdate inlet).o k :=
  State.o_congr (by rw [State.od_syncPulse, State.od_powerCapStep]) k

/-- Input power and limit are taken after all else a boundary does. -/
theorem exec_beatBoundary_ends {s : State} (waits : List Nat) (smp : List (Nat × Nat)) (inlet : Int) (watts : Nat)
    (hpower : s.power.stbyOn = true) : ∃ t : State, exec (.beatBoundary waits smp inlet watts) s =
      .next ((t.setO Od.mainInputW watts).powerLimitUpdate inlet).powerCapStep.syncPulse :=
  ⟨_, congrArg Host.Outcome.next (if_pos hpower)⟩

theorem odWidth_powerObjects : odWidth Od.mainInputW = 16 ∧ odWidth Od.powerLimitW = 16 := by decide +kernel

theorem powerLimit_lt (inlet : Int) : 1800 - 10 * (if 400 < inlet then (min inlet 450 - 400).toNat else 0) < 2 ^ 16 := by omega

/-- Settles O22. -/
theorem boundaryTakesPowerAndLimit : Obligations.BoundaryTakesPowerAndLimit := by
  intro s waits smp inlet watts hpower
  obtain ⟨t, hexec⟩ := exec_beatBoundary_ends waits smp inlet watts hpower
  refine ⟨_, hexec, ?_, ?_⟩
  · rw [State.o_powerTaken, State.powerLimitUpdate, State.o_setO_ne _ _ (by decide), State.o_setO_same, odWidth_powerObjects.1]
  · rw [State.o_powerTaken, State.powerLimitUpdate, State.o_setO_of_lt _ odWidth_powerObjects.2 (powerLimit_lt inlet)]

end Sys2Proof.Machine
end

section
namespace Sys2Proof.Machine

/-! ## Ageing samples and the margin planner (R609 to R611) -/

theorem sampleDue_of_ready {s : State} {i : Nat} (h : ReadySample s i) :
    (s.pdOn (pdMonitored i) && ((s.aged_ i).due || s.beat % max 1 (s.o Od.ageingPeriodBeats) == 0)) = true := by
  obtain ⟨hon, hdue⟩ := h
  simpa [hon] using hdue

theorem exec_ageingSample {s : State} {d : Fin 38} (vmin vmin50 supply : Fin 65536) (h : ReadySample s d.val) :
    exec (.ageingSample d vmin vmin50 supply) s =
      .next (((s.supplyKnown d.val supply.val).ageSampled d.val vmin.val).marginPlan d.val vmin50.val
        ((s.supplyKnown d.val supply.val).marginOf d.val vmin.val)) :=
  congrArg Host.Outcome.next (guardS_of (sampleDue_of_ready h) s _)

theorem odWidth_marginMv : ∀ i < 38, odWidth (Od.marginMv i) = 16 := by decide +kernel

theorem ofI16_lt (v : Int) : ofI16 v < 2 ^ 16 := by unfold ofI16; omega

/-- The history of a sample writes no object but FLOOR_HOURS. -/
theorem State.o_marginMv_ageHistory (s : State) (i vmin : Nat) :
    (s.ageHistory i vmin).o (Od.marginMv i) = s.o (Od.marginMv i) := by
  simp only [State.ageHistory]
  split
  · exact State.o_congr rfl _
  · exact (State.o_setO_ne _ _ (by unfold Od.marginMv Od.floorHours; omega)).trans (State.o_congr rfl _)

theorem State.o_marginMv_ageSampled (s : State) {i : Nat} (vmin : Nat) (hi : i < 38) :
    (s.ageSampled i vmin).o (Od.marginMv i) = ofI16 (s.marginOf i vmin) := by
  simp only [State.ageSampled]
  rw [State.o_marginMv_ageHistory]
  exact (State.o_congr rfl _).trans (State.o_setO_of_lt s (odWidth_marginMv i hi) (ofI16_lt _))

@[simp] theorem State.aged_marginChange (s : State) (i mv clk : Nat) : (s.marginChange i mv clk).aged = s.aged := by
  simp [State.marginChange]

theorem State.pending_marginPlan (s : State) {i : Nat} (vmin50 : Nat) {margin : Int} (hmargin : margin < (s.o Od.marginFloorMv : Int) + 10)
    (hsupply : s.o (Od.supplyMv i) < supplyMax) :
    ((s.marginPlan i vmin50 margin).aged_ i).pending = some (raisedSupply (s.o Od.marginFloorMv) (s.o (Od.supplyMv i)) margin) := by
  simp only [State.marginPlan, if_pos (And.intro hmargin hsupply), State.aged_, State.aged_marginChange, State.setAged,
    tGet_tSet_same]

theorem raisedSupply_le (f mv : Nat) (margin : Int) : raisedSupply f mv margin ≤ supplyMax := Nat.min_le_left _ _

/-- Settles O38. -/
theorem ageingSamplesPlanMargins : Obligations.AgeingSamplesPlanMargins :=
  ⟨fun _ _ vmin vmin50 supply h => exec_ageingSample vmin vmin50 supply h, fun s _ vmin hi => s.o_marginMv_ageSampled vmin hi,
    fun s _ vmin50 _ hmargin hsupply => s.pending_marginPlan vmin50 hmargin hsupply, raisedSupply_le⟩

end Sys2Proof.Machine
end

section
namespace Sys2Proof.Machine

/-! ## Texts, features and prompts (R380, R434, R438, R447, R453, R455) -/

section
variable {s : State} {r i : Nat}

/-- A candidate that awaits its text passes the guards of TEXT_READ_DONE. -/
theorem textGuards_of_ready (h : ReadyText s r i) :
    (!s.hasReq r || (s.req r).stage != 10 || decide ((s.req r).cands.length ≤ i) || !((s.req r).cands.getD i {}).live ||
      ((s.req r).cands.getD i {}).text.isSome) = false ∧
    (((s.req r).cands.getD i {}).tlen != 0 && !s.pdOn (pdSpoke (s.textSpoke ((s.req r).cands.getD i {})))) = false := by
  obtain ⟨hreq, hstage, hlt, hlive, hnone, hspoke⟩ := h
  refine ⟨by rw [hreq, hstage, hlive, hnone, decide_eq_false (Nat.not_le.2 hlt)]; rfl, ?_⟩
  rcases hspoke with hempty | hon
  · rw [hempty]; rfl
  · rw [hon, Bool.not_true, Bool.and_false]

theorem exec_textReadDone_dropped {t : Nat} {text : List Byte} (core mb : Nat) (h : ReadyText s r i)
    (hread : s.readText ((s.req r).cands.getD i {}).taddr ((s.req r).cands.getD i {}).tlen = (t, text)) (hlost : 2 ≤ t) :
    exec (.textReadDone r i core mb) s = .next (s.textDropped r i t core mb) := by
  obtain ⟨hwaits, hspoke⟩ := textGuards_of_ready h
  change execTextReadDone r i core mb s = _
  unfold execTextReadDone
  simp only [hwaits, hspoke, hread, hlost, Bool.false_eq_true, if_false, if_true]

theorem exec_textReadDone_taken {t : Nat} {text : List Byte} {u : State} {bs : List Nat} (core mb : Nat) (h : ReadyText s r i)
    (hread : s.readText ((s.req r).cands.getD i {}).taddr ((s.req r).cands.getD i {}).tlen = (t, text)) (hgood : t < 2)
    (htake : takeBufs (if s.textSpoke ((s.req r).cands.getD i {}) < 16 then 0 else 1) (s.req r).tenant r (cdiv text.length 4096) s =
      some (u, bs)) : exec (.textReadDone r i core mb) s = .next (u.textTaken r i t text bs core mb) := by
  obtain ⟨hwaits, hspoke⟩ := textGuards_of_ready h
  obtain ⟨take, ht⟩ : ∃ take, take = takeBufs := exists_eq
  rw [← ht] at htake
  change execTextReadDone r i core mb s = _
  unfold execTextReadDone
  rw [← ht]
  simp only [hwaits, hspoke, hread, htake, Nat.not_le.2 hgood, Bool.false_eq_true, if_false]

theorem exec_bagPool {c f : Nat} (h : ReadyBag s r c f) : exec (.bagPool r c f) s = .next (s.poolFeature r c f) := by
  obtain ⟨hreq, hstage, hcand, hfeat, hlive, hnew⟩ := h
  refine congrArg Host.Outcome.next (if_neg ?_)
  rw [hreq, hstage, hlive, hnew, decide_eq_false (Nat.not_le.2 hcand), decide_eq_false (Nat.not_le.2 hfeat)]
  decide

theorem exec_promptPack {q : Nat} {qt : List Nat} (h : ReadyPack s r q qt) :
    exec (.promptPack r) s = .next (s.packDone r q (s.packPrompt (s.req r) qt)) := by
  obtain ⟨hreq, hstage, hquery, hseq, hdone⟩ := h
  change execPromptPack r s = _
  unfold execPromptPack
  simp only [hreq, hstage, hquery, hseq, hdone, Bool.not_true, bne_self_eq_false, Bool.or_self, Bool.false_eq_true, if_false]

end

/-- The packed prompt is cut at its budget. -/
theorem State.length_packPrompt_le (s : State) (x : Req) (qt : List Nat) : (s.packPrompt x qt).2.2.length ≤ x.promptBudget :=
  List.length_take_le _ _

/-- Settles O32. -/
theorem textsFeaturesAndPrompts : Obligations.TextsFeaturesAndPrompts :=
  ⟨fun _ _ _ core mb _ _ h hread hlost => exec_textReadDone_dropped core mb h hread hlost,
    fun _ _ _ core mb _ _ _ _ h hread hgood htake => exec_textReadDone_taken core mb h hread hgood htake,
    fun _ _ _ _ h => exec_bagPool h, fun _ _ _ _ h => exec_promptPack h, State.length_packPrompt_le⟩

end Sys2Proof.Machine
end

section
namespace Sys2Proof.Machine

/-! ## Commands that leave the module's work (R504 to R508, R518 to R530, R540 to R544, R597, R641 to R648)

The fields of SameWork as one value: an operation leaves the work when it leaves this value, and a branch does when both sides do
(apply_ite). -/

/-- What the module works on. -/
def State.work (s : State) := (s.arrs, s.residents, s.mem, s.slots, s.models, s.stakes, s.steps, s.seqs, s.reqs, s.bufs, s.index, s.tables,
  s.vocabs, s.grammars)

theorem sameWork_of_work {s t : State} (h : t.work = s.work) : SameWork s t := by
  simp only [State.work, Prod.mk.injEq] at h
  obtain ⟨harrs, hres, hmem, hslots, hmodels, hstakes, hsteps, hseqs, hreqs, hbufs, hindex, htables, hvocabs, hgrammars⟩ := h
  exact ⟨harrs, hres, hmem, hslots, hmodels, hstakes, hsteps, hseqs, hreqs, hbufs, hindex, htables, hvocabs, hgrammars⟩

/-- A command leaves the work when the state it answers has the same. -/
theorem leavesWork_of {c : Instr} {f : State → State} (hexec : ∀ s, exec c s = .next (f s)) (hwork : ∀ s, (f s).work = s.work) :
    LeavesWork c := by
  intro s t ht
  rw [hexec] at ht
  cases ht
  exact sameWork_of_work (hwork s)

theorem work_guardS {c : Bool} {s : State} {f : State → State} (h : (f s).work = s.work) : (guardS c s f).work = s.work :=
  guardS_frame State.work h

section
variable (s : State)

@[simp] theorem State.work_setO (k v : Nat) : (s.setO k v).work = s.work := by simp [State.work]
@[simp] theorem State.work_addO (k n : Nat) : (s.addO k n).work = s.work := by simp [State.work]
@[simp] theorem State.work_record (kind part : Nat) (data : Nat) : (s.record kind part data).work = s.work := by simp [State.work]
@[simp] theorem State.work_setUpdate (st image : Nat) : (s.setUpdate st image).work = s.work := by simp [State.work]
@[simp] theorem State.work_setFn (f : Nat) (x : Fn) : (s.setFn f x).work = s.work := by simp [State.work]
@[simp] theorem State.work_faultRec (kind pk part out res ns : Nat) (extra : List (Nat × Nat)) :
    (s.faultRec kind pk part out res ns extra).work = s.work := by simp [State.work]
@[simp] theorem State.work_fault1 (kind pk part out ns n : Nat) (extra : List (Nat × Nat)) :
    (s.fault1 kind pk part out ns n extra).work = s.work := by simp [State.work]
@[simp] theorem State.work_chain (c : Chain) : ({ s with chain := c } : State).work = s.work := rfl
@[simp] theorem State.work_dict (d : Dict) : ({ s with dict := d } : State).work = s.work := rfl
@[simp] theorem State.work_pins (p : Pins) : ({ s with pins := p } : State).work = s.work := rfl
@[simp] theorem State.work_parts (p : Parts) : ({ s with parts := p } : State).work = s.work := rfl
@[simp] theorem State.work_store (x : Tbl StoreObj) : ({ s with store := x } : State).work = s.work := rfl

/-! ### The chain and the beat -/

@[simp] theorem State.work_sendFrame (up : Bool) (f : Frame) : (s.sendFrame up f).work = s.work := by
  simp [State.sendFrame, apply_ite State.work]
@[simp] theorem State.work_ownFrame (ft dst : Nat) (up : Bool) (session handle tag : Nat) (payload : List Byte) :
    (s.ownFrame ft dst up session handle tag payload).work = s.work := s.work_sendFrame _ _
@[simp] theorem State.work_chainRecord (old : Nat) : (s.chainRecord old).work = s.work := s.work_record _ _ _
@[simp] theorem State.work_freeLock : s.freeLock.work = s.work := by simp only [State.freeLock, State.work_setO, State.work_dict]
@[simp] theorem State.work_breakLock (cause : Nat) : (s.breakLock cause).work = s.work := by
  simp only [State.breakLock, apply_ite State.work, State.work_record, State.work_setO, State.work_addO, State.work_freeLock, ite_self]
@[simp] theorem State.work_breakPath (p cause : Nat) : (s.breakPath p cause).work = s.work := by
  simp [State.breakPath, apply_ite State.work]
@[simp] theorem State.work_repeatFrame (up : Bool) (f : Frame) : (s.repeatFrame up f).work = s.work := by
  simp [State.repeatFrame, apply_ite State.work]
@[simp] theorem State.work_setAddress (a : Nat) : (s.setAddress a).work = s.work := by
  simp [State.setAddress, apply_ite State.work]
@[simp] theorem State.work_enumerate (hop acc : Nat) : (s.enumerate hop acc).work = s.work := by
  simp [State.enumerate, State.enumReply, apply_ite State.work]
@[simp] theorem State.work_cutFrame (up : Bool) : (s.cutFrame up).work = s.work := by
  simp [State.cutFrame, apply_ite State.work]
@[simp] theorem State.work_setBeatState (st : Nat) (resync : Option Nat) : (s.setBeatState st resync).work = s.work := by
  simp [State.setBeatState, apply_ite State.work]
@[simp] theorem State.work_enterHoldover : s.enterHoldover.work = s.work := by simp [State.enterHoldover]
@[simp] theorem State.work_lockingWord (w gap : Nat) : (s.lockingWord w gap).work = s.work := by
  simp only [State.lockingWord, apply_ite State.work, State.work_chain, State.work_setO, ite_self]
@[simp] theorem State.work_lockedWord (w : Nat) (off : Int) : (s.lockedWord w off).work = s.work := by
  simp only [State.lockedWord, apply_ite State.work, State.work_enterHoldover, State.work_chain, State.work_setO, ite_self]
@[simp] theorem State.work_holdoverWord (w : Nat) (off : Int) : (s.holdoverWord w off).work = s.work := by
  simp only [State.holdoverWord, State.work_chain, State.work_addO, State.work_setO]

/-! ### The dictionary and the session lock -/

@[simp] theorem State.work_setPath (p : Nat) (x : Path) : (s.setPath p x).work = s.work := by
  simp [State.setPath, apply_ite State.work]
@[simp] theorem State.work_dropSeg (p : Nat) : (s.dropSeg p).work = s.work := by
  simp only [State.dropSeg]
  split <;> simp [apply_ite State.work]
@[simp] theorem State.work_newSession (m : DMsg) : (s.newSession m).work = s.work := by
  simp [State.newSession, State.endSession, apply_ite State.work]
@[simp] theorem State.work_renewed (m : DMsg) : (s.renewed m).work = s.work := by
  simp [State.renewed, apply_ite State.work]
@[simp] theorem State.work_sendReply (p : Nat) (r : Reply) : (s.sendReply p r).work = s.work := by
  simp [State.sendReply, apply_ite State.work]
@[simp] theorem State.work_answer (p session tag word : Nat) (keep : Bool) (a : Ans) :
    (s.answer p session tag word keep a).work = s.work := by
  simp [State.answer, apply_ite State.work]
@[simp] theorem State.work_setStaged (ws : List SWrite) : (s.setStaged ws).work = s.work := by simp [State.setStaged]

theorem State.work_serve {m : DMsg} {full : Nat} {f : State → DMsg → State × Option Ans} (hf : ∀ t, (f t m).1.work = t.work) :
    (s.serve m full f).work = s.work := by
  have hrun (t : State) : (if m.bad = true then (t, some { status := rsMALFORMED }) else f t m : State × Option Ans).1.work = t.work := by
    split
    · rfl
    · exact hf t
  simp only [State.serve]
  split
  · simp
  · split
    · simp
    · split
      · simp
      · split <;> simp [hrun]

theorem State.work_dictRow {row p : Nat} {hdr : BitVec 128} {payload : List Byte} {full : Nat}
    {f : State → DMsg → State × Option Ans} (hf : ∀ t m, (f t m).1.work = t.work) :
    (s.dictRow row p hdr payload full f).work = s.work := by
  simp only [State.dictRow]
  split
  · rfl
  next m _ =>
    split
    · exact s.work_serve fun t => hf t m
    · rfl

theorem State.work_holder {m : DMsg} {f : State → DMsg → State × Option Ans} (hf : (f s m).1.work = s.work) :
    (s.holder m f).1.work = s.work := by
  simp only [State.holder]
  split
  · rfl
  · split
    · rfl
    · exact hf

theorem State.work_noSeg (m : DMsg) : (s.noSeg m).1.work = s.work := by
  simp only [State.noSeg]
  split
  · exact s.work_dropSeg _
  · rfl

theorem State.work_doSegRead (m : DMsg) : (s.doSegRead m).1.work = s.work := by
  simp only [State.doSegRead]
  split
  · exact s.work_noSeg m
  · split
    · rfl
    · split
      · rfl
      · exact s.work_setPath _ _

theorem State.work_acquire (m : DMsg) : (s.acquire m).1.work = s.work := by
  simp only [State.acquire]
  split
  · rfl
  · split
    · rfl
    · simp only [State.work_setO, State.work_dict, apply_ite State.work, ite_self]

theorem State.work_breakByChain (m : DMsg) : (s.breakByChain m).1.work = s.work := by
  simp only [State.breakByChain]
  split
  · rfl
  · exact s.work_breakLock 6

theorem State.work_retryCount (pk l : Nat) : (s.retryCount pk l).work = s.work := by
  simp only [State.retryCount, apply_ite State.work, State.work_faultRec, State.work_parts, ite_self]

theorem State.work_tap (instr tdo : Nat) : (s.tap instr tdo).work = s.work := rfl

end

/-! ### The commands -/

section
variable (path : Fin 2) (hdr : BitVec 128) (payload : List Byte) (full : Nat)

/-- A row of the dictionary leaves the work when what it answers does. -/
theorem leavesWork_of_dictRow {c : Instr} {row : Nat} {f : State → DMsg → State × Option Ans}
    (hexec : ∀ s, exec c s = .next (s.dictRow row path.val hdr payload full f)) (hf : ∀ t m, (f t m).1.work = t.work) :
    LeavesWork c := leavesWork_of hexec fun s => s.work_dictRow hf

theorem leavesWork_segRead : LeavesWork (.segRead path hdr payload full) :=
  leavesWork_of_dictRow _ _ _ _ (fun _ => rfl) State.work_doSegRead

theorem leavesWork_segAbort : LeavesWork (.segAbort path hdr payload full) :=
  leavesWork_of_dictRow _ _ _ _ (fun _ => rfl) fun t _ => t.work_dropSeg _

theorem leavesWork_lockAcquire : LeavesWork (.lockAcquire path hdr payload full) :=
  leavesWork_of_dictRow _ _ _ _ (fun _ => rfl) State.work_acquire

theorem leavesWork_lockRenew : LeavesWork (.lockRenew path hdr payload full) :=
  leavesWork_of_dictRow _ _ _ _ (fun _ => rfl) fun t _ => t.work_holder (t.work_setO _ _)

theorem leavesWork_lockCommit : LeavesWork (.lockCommit path hdr payload full) :=
  leavesWork_of_dictRow _ _ _ _ (fun _ => rfl) fun t _ => t.work_holder (by simp only [State.fixStaged, State.work_setStaged, State.work_dict])

theorem leavesWork_lockAbort : LeavesWork (.lockAbort path hdr payload full) :=
  leavesWork_of_dictRow _ _ _ _ (fun _ => rfl) fun t _ => t.work_holder (t.work_setStaged _)

theorem leavesWork_lockRelease : LeavesWork (.lockRelease path hdr payload full) :=
  leavesWork_of_dictRow _ _ _ _ (fun _ => rfl) fun t _ => t.work_holder t.work_freeLock

theorem leavesWork_lockBreak : LeavesWork (.lockBreak path hdr payload full) :=
  leavesWork_of_dictRow _ _ _ _ (fun _ => rfl) State.work_breakByChain

end

theorem leavesWork_frameRepeat (up fcs : Bool) (hdr : BitVec 128) (payload : List Byte) : LeavesWork (.frameRepeat up hdr payload fcs) :=
  leavesWork_of (fun _ => rfl) fun s => work_guardS (by simp [apply_ite State.work])

theorem leavesWork_enumerate (hop : Fin 256) (acc : Fin 4294967296) : LeavesWork (.enumerate hop acc) :=
  leavesWork_of (fun _ => rfl) fun s => work_guardS (by simp [apply_ite State.work])

theorem leavesWork_probe (src : Fin 128) : LeavesWork (.probe src) :=
  leavesWork_of (fun _ => rfl) fun s => work_guardS (s.work_ownFrame _ _ _ _ _ _ _)

theorem leavesWork_echo (delay : Fin 4294967296) (src : Fin 128) : LeavesWork (.echo delay src) :=
  leavesWork_of (fun _ => rfl) fun s => work_guardS (by
    dsimp only
    split <;> simp only [State.work_enumerate, State.work_chain, apply_ite State.work, State.work_setO, State.work_setAddress, ite_self])

theorem leavesWork_pathDown (src : Fin 128) : LeavesWork (.pathDown src) :=
  leavesWork_of (fun _ => rfl) fun s => work_guardS (by simp)

theorem leavesWork_upstreamLinkUp : LeavesWork .upstreamLinkUp :=
  leavesWork_of (fun _ => rfl) fun s => work_guardS (by
    simp only [State.work_ownFrame, State.work_chainRecord, State.work_chain, State.work_setO])

theorem leavesWork_upstreamLinkDown (a b : Bool) : LeavesWork (.upstreamLinkDown a b) :=
  leavesWork_of (fun _ => rfl) fun s => work_guardS (by
    simp only [State.work_chainRecord, apply_ite State.work, State.work_setO, State.work_chain, State.work_ownFrame, State.work_breakPath,
      State.work_cutFrame, ite_self])

theorem leavesWork_downstreamLinkUp : LeavesWork .downstreamLinkUp :=
  leavesWork_of (fun _ => rfl) fun s => work_guardS (by simp)

theorem leavesWork_downstreamLinkDown (a b : Bool) : LeavesWork (.downstreamLinkDown a b) :=
  leavesWork_of (fun _ => rfl) fun s => work_guardS (by simp [apply_ite State.work])

theorem leavesWork_beatWord (word : BitVec 64) (off : Int) (gap : Nat) : LeavesWork (.beatWord word off gap) :=
  leavesWork_of (fun _ => rfl) fun s => work_guardS (by
    simp only [apply_ite State.work, State.work_setO, State.work_addO, State.work_chain, State.work_lockingWord, State.work_lockedWord,
      State.work_holdoverWord, ite_self])

theorem leavesWork_faultPulseEnd (alert : Bool) : LeavesWork (.faultPulseEnd alert) :=
  leavesWork_of (fun _ => rfl) fun s => by simp only [apply_ite State.work, State.work_pins, ite_self]

theorem leavesWork_uartTapRestart (frame : List Byte) : LeavesWork (.uartTapRestart frame) :=
  leavesWork_of (fun _ => rfl) fun s => work_guardS (by simp only [apply_ite State.work, State.work_pins, ite_self])

theorem leavesWork_spineFlitResend (inst ns : Nat) : LeavesWork (.spineFlitResend inst ns) :=
  leavesWork_of (fun _ => rfl) fun s => (State.work_fault1 _ _ _ _ _ _ _ _).trans (s.work_retryCount _ _)

theorem leavesWork_d2dFlitRetry (inst ns : Nat) : LeavesWork (.d2dFlitRetry inst ns) :=
  leavesWork_of (fun _ => rfl) fun s => by simp only [State.interrupted, State.work_setO, State.work_retryCount, State.work_addO]

theorem leavesWork_functionReady (f rate lanes : Fin 256) : LeavesWork (.functionReady f rate lanes) :=
  leavesWork_of (fun _ => rfl) fun s => work_guardS (by simp [apply_ite State.work])

theorem leavesWork_tapMayDrive {c : Instr} {instr tdo : State → Nat}
    (hexec : ∀ s, exec c s = .next (if s.tapMayDrive then s.tap (instr s) (tdo s) else s.tap 0 0)) : LeavesWork c :=
  leavesWork_of hexec fun s => by simp only [apply_ite State.work, State.work_tap, ite_self]

/-- Settles O59: every named command writes objects, records and the parts of its own interface only. -/
theorem commandsThatLeaveWork : Obligations.CommandsThatLeaveWork :=
  ⟨leavesWork_frameRepeat, leavesWork_enumerate, leavesWork_probe, leavesWork_echo, leavesWork_pathDown, leavesWork_upstreamLinkUp,
    leavesWork_upstreamLinkDown, leavesWork_of (fun _ => rfl) fun s => work_guardS (s.work_setAddress 0), leavesWork_downstreamLinkUp,
    leavesWork_downstreamLinkDown, leavesWork_beatWord, leavesWork_of (fun _ => rfl) fun s => work_guardS s.work_enterHoldover,
    fun path hdr payload full => ⟨leavesWork_segRead path hdr payload full, leavesWork_segAbort path hdr payload full,
      leavesWork_lockAcquire path hdr payload full, leavesWork_lockRenew path hdr payload full,
      leavesWork_lockCommit path hdr payload full, leavesWork_lockAbort path hdr payload full,
      leavesWork_lockRelease path hdr payload full, leavesWork_lockBreak path hdr payload full⟩,
    fun path => leavesWork_of (fun _ => rfl) fun s => work_guardS (s.work_dropSeg path.val),
    leavesWork_of (fun _ => rfl) fun s => work_guardS (s.work_breakLock 1),
    leavesWork_of (fun _ => rfl) fun _ => rfl, fun n => leavesWork_of (fun _ => rfl) fun _ => rfl, leavesWork_faultPulseEnd,
    leavesWork_uartTapRestart, leavesWork_of (fun _ => rfl) fun s => s.work_tap _ _, leavesWork_of (fun _ => rfl) fun s => s.work_tap _ _,
    leavesWork_of (fun _ => rfl) fun s => s.work_tap _ _, fun _ _ => leavesWork_of (fun _ => rfl) fun _ => rfl,
    leavesWork_tapMayDrive fun _ => rfl, leavesWork_tapMayDrive fun _ => rfl, leavesWork_tapMayDrive fun _ => rfl,
    fun inst ns => ⟨leavesWork_spineFlitResend inst ns, leavesWork_d2dFlitRetry inst ns⟩,
    fun _ => leavesWork_of (fun _ => rfl) fun s => work_guardS (s.work_addO _ _),
    fun _ _ _ => leavesWork_of (fun _ => rfl) fun s => work_guardS (by simp),
    fun _ _ _ => leavesWork_of (fun _ => rfl) fun s => work_guardS (by simp),
    fun _ _ _ => leavesWork_of (fun _ => rfl) fun s => work_guardS (s.work_setFn _ _), leavesWork_functionReady,
    fun _ => leavesWork_of (fun _ => rfl) fun _ => work_guardS rfl⟩

end Sys2Proof.Machine
end

section
namespace Sys2Proof.Machine

/-! ## Where commands take a power domain (R569, R571, R574, R590, R594) -/

theorem State.pdState_askRamp (s : State) (a : Nat) (rank : List Nat) {q : Nat} (hq : q < 98) :
    (s.askRamp a rank).pdState q = s.pdState q := by
  simp only [State.askRamp]
  split
  · exact State.pdState_enqueue _ _ _ hq
  · rfl

@[simp] theorem State.pd_setPdState (s : State) (p q st : Nat) : (s.setPdState p st).pd q = s.pd q := by simp [State.pd]

@[simp] theorem State.pd_enqueue (s : State) (d q : Nat) (r : WakeReq) : (s.enqueue d r).pd q = s.pd q := by
  simp only [State.enqueue]
  split
  · rfl
  · simp [State.pd, State.setLedger]

/-- The second power-down of an array domain, that of its slice, leaves the first. -/
theorem State.pdState_quiesce_ne (s : State) {p q : Nat} (hp : p < 98) (hq : q < 98) (hne : q ≠ p) :
    (s.quiesce p 1).pdState q = s.pdState q := by
  simp only [State.quiesce, if_true]
  split
  · rw [State.pdState_setPdState _ _ _ hp hq (by decide), if_neg hne, State.pdState_setPd]
  · rfl

theorem State.pd_quiesce_ne (s : State) {p q : Nat} (hne : q ≠ p) : (s.quiesce p 1).pd q = s.pd q := by
  simp only [State.quiesce, if_true]
  split
  · rw [State.pd_setPdState, State.pd_setPd, if_neg hne]
  · rfl

theorem State.quiesce_of_on {s : State} {p : Nat} (reason : Nat) (hp : p < 98) (hon : s.pdState p = pdON) :
    (s.quiesce p reason).pdState p = pdQUIESCING := by
  simp only [State.quiesce, State.pdOn, hon, beq_self_eq_true, if_true]
  exact State.pdState_setPdState_same _ _ _ hp (by decide)

theorem State.reason_powerDown {s : State} {p : Nat} (hp : p < 98) (hon : s.pdState p = pdON) :
    (s.powerDown p).pdState p = pdQUIESCING ∧ ((s.powerDown p).pd p).reason = 1 := by
  have hreason : ((s.quiesce p 1).pd p).reason = 1 := by
    simp only [State.quiesce, State.pdOn, hon, beq_self_eq_true, if_true, State.pd_setPdState, State.pd_setPd]
  simp only [State.powerDown]
  split
  next harray =>
    have hslice : p + 8 < 98 := by simp [isArrayPd] at harray; omega
    rw [State.pdState_quiesce_ne _ hslice hp (by omega), State.pd_quiesce_ne _ (by omega)]
    exact ⟨State.quiesce_of_on 1 hp hon, hreason⟩
  · exact ⟨State.quiesce_of_on 1 hp hon, hreason⟩

/-- A domain that holds its contents goes to reset, whatever its reset takes with it. -/
theorem State.pdState_toReset {s : State} {p : Nat} (hp : p < 98)
    (hst : s.pdState p = pdON ∨ s.pdState p = pdRETAINED ∨ s.pdState p = pdQUIESCING) : (s.toReset p).pdState p = pdRESET := by
  have hholds : (s.pdState p == pdON || s.pdState p == pdRETAINED || s.pdState p == pdQUIESCING) = true := by simpa [or_assoc] using hst
  simp only [State.toReset, hholds, if_true]
  exact State.pdState_setPdState_same _ _ _ hp (by decide)

section
variable {s : State} {p : Fin 98}

theorem wakeComplete_on (hwaking : s.pdState p.val = pdWAKING) (hreset : (s.pd p.val).rstAfter = false)
    (hslice : isSlicePd p.val = false) : Runs (.wakeComplete p) s fun u => u.pdState p.val = pdON := by
  refine ⟨_, congrArg Host.Outcome.next (guardS_of (by simp [hwaking]) s _), ?_⟩
  have hon := State.pdState_setPdState_same s p.val pdON p.isLt (by decide)
  simp only [hreset, hslice, Bool.false_eq_true, if_false]
  split
  · split
    · rw [State.pdState_askRamp _ _ _ p.isLt, State.pdState_setArr, State.pdState_setPd, hon]
    · rw [State.pdState_setArr, State.pdState_setPd, hon]
  · rw [State.pdState_setPd, hon]

theorem isArrayPd_of_slice {p : Nat} (h : isSlicePd p = true) : isArrayPd p = false := by
  simp only [isSlicePd, isArrayPd, decide_eq_true_eq, decide_eq_false_iff_not] at h ⊢
  omega

theorem exec_wakeComplete_slice (hwaking : s.pdState p.val = pdWAKING) (hreset : (s.pd p.val).rstAfter = false)
    (hslice : isSlicePd p.val = true) : exec (.wakeComplete p) s = .next (((s.setPdState p.val pdON).setPd p.val
      { s.pd p.val with attempts := 0, rstAfter := false }).sliceBack (arrayOfPd (p.val - 8))) := by
  refine congrArg Host.Outcome.next ((guardS_of (by simp [hwaking]) s _).trans ?_)
  simp only [hreset, hslice, isArrayPd_of_slice hslice, Bool.false_eq_true, if_false, if_true]

theorem quiesceComplete_off (hquiesces : s.pdState p.val = pdQUIESCING) (hreason : (s.pd p.val).reason = 1)
    (hslice : isSlicePd p.val = false) (hwake : (s.pd p.val).wakeAfter = false) :
    Runs (.quiesceComplete p) s fun u => u.pdState p.val = pdOFF := by
  refine ⟨_, congrArg Host.Outcome.next (guardS_of (by simp [hquiesces]) s _), ?_⟩
  have hoff (t : State) := State.pdState_setPdState_same t p.val pdOFF p.isLt (by decide)
  simp only [hreason, hslice, beq_self_eq_true, Bool.false_eq_true, if_false, if_true]
  split
  next harray =>
    have hp : p.val + 8 < 98 := by simp [isArrayPd] at harray; omega
    simp only [State.wakePending, State.pd_setPdState, State.pd_setPd, hwake, if_true, Bool.false_eq_true, if_false]
    rw [State.pdState_setPdState _ _ _ hp p.isLt (by decide), if_neg (by omega), State.pdState_setPd, hoff]
  · simp only [State.wakePending, State.pd_setPd, hwake, if_true, Bool.false_eq_true, if_false]
    rw [State.pdState_setPd, hoff]

theorem quiesceComplete_retained (hquiesces : s.pdState p.val = pdQUIESCING) (hreason : (s.pd p.val).reason = 1)
    (hslice : isSlicePd p.val = true) (harray : s.pdState (p.val - 8) ≠ pdQUIESCING) :
    Runs (.quiesceComplete p) s fun u => u.pdState p.val = pdRETAINED := by
  refine ⟨_, congrArg Host.Outcome.next (guardS_of (by simp [hquiesces]) s _), ?_⟩
  simp only [hreason, hslice, beq_self_eq_true, if_true, beq_eq_false_iff_ne.2 harray, Bool.false_eq_true, if_false]
  exact State.pdState_setPdState_same _ _ _ p.isLt (by decide)

theorem quiesceComplete_reset (hquiesces : s.pdState p.val = pdQUIESCING) (hreason : (s.pd p.val).reason ≠ 1) :
    Runs (.quiesceComplete p) s fun u => u.pdState p.val = pdRESET := by
  refine ⟨_, congrArg Host.Outcome.next (guardS_of (by simp [hquiesces]) s _), ?_⟩
  simp only [beq_eq_false_iff_ne.2 hreason, Bool.false_eq_true, if_false]
  exact State.pdState_toReset p.isLt (.inr (.inr hquiesces))

theorem domainReset_orderly (hon : s.pdState p.val = pdON) : Runs (.domainReset p true) s fun u => u.pdState p.val = pdQUIESCING :=
  ⟨_, congrArg Host.Outcome.next (if_pos (by simp [State.pdOn, hon])), State.quiesce_of_on 2 p.isLt hon⟩

/-- Only the rims and the dies' spines take domains below them. -/
theorem pdBelow_of_childless : ∀ p < 98, pdChildren p = [] → pdBelow 4 p = [] := by decide +kernel

theorem exec_domainReset_immediate : exec (.domainReset p false) s = .next (s.resetNow p.val) := rfl

theorem State.pdState_resetNow (hon : s.pdState p.val = pdON) (hchildren : pdChildren p.val = []) :
    (s.resetNow p.val).pdState p.val = pdRESET := by
  simp only [State.resetNow, pdBelow_of_childless p.val p.isLt hchildren, applyAll, List.foldl_nil, ite_self]
  exact State.pdState_toReset p.isLt (.inl hon)

theorem domainResetComplete_queued (hreset : s.pdState p.val = pdRESET) :
    Runs (.domainResetComplete p) s fun u => u.pdState p.val = pdQUEUED ∧ (u.pd p.val).reason = 0 := by
  refine ⟨_, congrArg Host.Outcome.next (guardS_of (by simp [hreset]) s _), ?_, ?_⟩
  · rw [State.pdState_enqueue _ _ _ p.isLt, State.pdState_setPdState_same _ _ _ p.isLt (by decide)]
  · simp only [State.pd_enqueue, State.pd_setPdState, State.pd_setPd, if_true]

theorem idlePowerDown_array (h : ReadyIdleArray s p) :
    Runs (.idlePowerDown p) s fun u => u.pdState p.val = pdQUIESCING ∧ (u.pd p.val).reason = 1 := by
  obtain ⟨hauto, hon, harray, hramp, hidle, hwanted⟩ := h
  refine ⟨s.powerDown p.val, congrArg Host.Outcome.next ((guardS_of (by simp [hauto, State.pdOn, hon]) s _).trans ?_),
    State.reason_powerDown p.isLt hon⟩
  rw [if_pos harray]
  exact guardS_of (by simp [hramp, hidle, hwanted]) s _

theorem idlePowerDown_serdes (h : ReadyIdleSerdes s p) :
    Runs (.idlePowerDown p) s fun u => u.pdState p.val = pdQUIESCING ∧ (u.pd p.val).reason = 1 := by
  obtain ⟨hauto, hon, hserdes, hports⟩ := h
  have harray : isArrayPd p.val = false := by
    simp only [List.mem_cons, List.not_mem_nil, or_false] at hserdes
    simp only [isArrayPd, decide_eq_false_iff_not]
    omega
  refine ⟨s.powerDown p.val, congrArg Host.Outcome.next ((guardS_of (by simp [hauto, State.pdOn, hon]) s _).trans ?_),
    State.reason_powerDown p.isLt hon⟩
  rw [if_neg (ne_true_of_eq_false harray)]
  exact guardS_of (by simpa [hports] using hserdes) s _

end

/-- Settles O2: the last write of each command is that of the domain's own state. -/
theorem domainsChangeState : Obligations.DomainsChangeState :=
  ⟨fun _ _ hwaking hreset hslice => wakeComplete_on hwaking hreset hslice,
    fun _ _ hwaking hreset hslice => exec_wakeComplete_slice hwaking hreset hslice,
    fun _ _ hquiesces hreason hslice hwake => quiesceComplete_off hquiesces hreason hslice hwake,
    fun _ _ hquiesces hreason hslice harray => quiesceComplete_retained hquiesces hreason hslice harray,
    fun _ _ hquiesces hreason => quiesceComplete_reset hquiesces hreason, fun _ _ hon => domainReset_orderly hon,
    fun _ _ hon hchildren => ⟨_, exec_domainReset_immediate, State.pdState_resetNow hon hchildren⟩,
    fun _ _ => exec_domainReset_immediate, fun _ _ hreset => domainResetComplete_queued hreset,
    fun _ _ h => idlePowerDown_array h, fun _ _ h => idlePowerDown_serdes h⟩

end Sys2Proof.Machine
end

section
namespace Sys2Proof.Machine

/-! ## Clocks, the power comparator and THROTTLE_N (R577, R578, R580, R581) -/

theorem odWidth_aclkMhz : ∀ d < 4, odWidth (Od.aclkMhz d) = 16 := by decide +kernel

@[simp] theorem State.power_restartHistory (s : State) (i : Nat) : (s.restartHistory i).power = s.power := by
  simp [State.restartHistory]

theorem State.o_aclkMhz_restartHistory (s : State) (i : Nat) {d : Nat} (hd : d < 4) :
    (s.restartHistory i).o (Od.aclkMhz d) = s.o (Od.aclkMhz d) := by
  simp only [State.restartHistory]
  rw [State.o_resetO, if_neg (by unfold Od.aclkMhz Od.floorHours; omega)]
  exact State.o_congr rfl _

theorem aclkChange_takes (s : State) (d : Fin 4) :
    Runs (.aclkChange d) s fun u => u.o (Od.aclkMhz d.val) = s.effClk d.val % 2 ^ 16 ∧ u.power.capClk = s.power.capClk := by
  refine ⟨_, rfl, ?_⟩
  have htaken : (s.setO (Od.aclkMhz d.val) (s.effClk d.val)).o (Od.aclkMhz d.val) = s.effClk d.val % 2 ^ 16 := by
    rw [State.o_setO_same, odWidth_aclkMhz d.val d.isLt]
  dsimp only
  split
  · exact ⟨htaken, rfl⟩
  · constructor
    · exact (applyAll_frame (fun t : State => t.o (Od.aclkMhz d.val)) (fun t i => t.o_aclkMhz_restartHistory i d.isLt) _ _).trans htaken
    · exact applyAll_frame (fun t : State => t.power.capClk) (fun t i => by rw [State.power_restartHistory]) _ _

theorem exec_fastPowerComparator {s : State} {avgW : Nat} (hover : 115 * s.o Od.powerLimitW < 100 * avgW) :
    exec (.fastPowerComparator avgW) s = .next { s with power := { s.power with capClk := s.o Od.throttleMhz } } :=
  congrArg Host.Outcome.next (guardS_of (decide_eq_true hover) s _)

theorem exec_throttleAssert {s : State} (hpin : s.pinWith 5 = true) (hmain : s.power.mainOn = true) (hoff : s.power.throttle = false) :
    exec .throttleAssert s = .next ((({ s with power := { s.power with throttle := true } } : State).setO Od.throttleActive 1).addO
      Od.throttleEvents 1) :=
  congrArg Host.Outcome.next (guardS_of (by rw [hpin, hmain, hoff]; rfl) s _)

theorem exec_throttleDeassert {s : State} (hactive : s.power.throttle = true) :
    exec .throttleDeassert s = .next (({ s with power := { s.power with throttle := false } } : State).setO Od.throttleActive 0) :=
  congrArg Host.Outcome.next (guardS_of hactive s _)

/-- Settles O4. -/
theorem clocksAndThrottle : Obligations.ClocksAndThrottle :=
  ⟨aclkChange_takes, fun _ _ hover => exec_fastPowerComparator hover, fun _ hpin hmain hoff => exec_throttleAssert hpin hmain hoff,
    fun _ hactive => exec_throttleDeassert hactive⟩

end Sys2Proof.Machine
end

section
namespace Sys2Proof.Machine

/-! ## Power applied and lost, and the mirror of NOR (R588, R616, R618, R621, R651) -/

theorem State.o_stepTo (s : State) (n k : Nat) : (s.stepTo n).o k = (s.setO Od.bootStep n).o k := State.o_congr rfl k

theorem odWidth_bootStep : odWidth Od.bootStep = 8 := by decide +kernel

theorem standbyPowerApplied_begins {s : State} (hoff : s.power.stbyOn = false) :
    Runs .standbyPowerApplied s fun u =>
      u.power.stbyOn = true ∧ u.o Od.bootStep = 1 ∧ u.mboxes = [] ∧ u.keepers = [] ∧ u.store = s.store ∧ u.dict.rwp = s.dict.rwp := by
  refine ⟨_, congrArg Host.Outcome.next (guardS_of (by rw [hoff]; rfl) s _), ?_⟩
  refine ⟨by simp, ?_, by simp, by simp, by simp, by simp⟩
  rw [State.o_record _ _ _ _ (by decide), State.o_stepTo, State.o_setO_of_lt _ odWidth_bootStep (by decide)]

@[simp] theorem State.mainLost_work (s : State) : s.mainLost.reqs = [] ∧ s.mainLost.steps = [] := by simp [State.mainLost]

/-- The loss of main power opens the switch and ends every request and step. -/
theorem State.mainPowerGone_ends (s : State) : s.mainPowerGone.power.mainOn = false ∧ s.mainPowerGone.power.mainSw = false ∧
    s.mainPowerGone.reqs = [] ∧ s.mainPowerGone.steps = [] := by
  simp only [State.mainPowerGone]
  split <;> split <;> simp

theorem exec_mainPowerLoss {s : State} (hmain : s.power.mainOn = true) : exec .mainPowerLoss s = .next s.mainPowerGone :=
  congrArg Host.Outcome.next (guardS_of (by rw [hmain, Bool.or_true]) s _)

theorem exec_mainOvervoltage {s : State} (hmain : s.power.mainOn = true) : exec .mainOvervoltage s = .next s.mainPowerGone :=
  congrArg Host.Outcome.next (guardS_of (by rw [hmain, Bool.or_true]) s _)

theorem standbyPowerLoss_ends {s : State} (hon : s.power.stbyOn = true) :
    Runs .standbyPowerLoss s fun u => u.power.stbyOn = false ∧ u.boot.pinsLive = false :=
  ⟨_, congrArg Host.Outcome.next (guardS_of hon s _), rfl, rfl⟩

theorem odWidth_mirrorObjects : odWidth Od.mirrorState = 8 ∧ 5 ≤ odWidth Od.mirrorLag := by decide +kernel

/-- The last group of a lag below 32 is copied, and the mirror is complete. -/
theorem mirrorCopy_copies {s : State} (hon : s.power.stbyOn = true) (hstate : s.o Od.mirrorState ≤ 1) (hgroup : 16 ≤ s.o Od.mirrorLag)
    (hlast : s.o Od.mirrorLag < 32) :
    Runs (.mirrorCopy 0) s fun u => u.o Od.mirrorLag = s.o Od.mirrorLag - 16 ∧ u.o Od.mirrorState = 0 := by
  have hlag : (s.subO Od.mirrorLag 16).o Od.mirrorLag = s.o Od.mirrorLag - 16 := by
    have hwidth : 2 ^ 5 ≤ 2 ^ odWidth Od.mirrorLag := Nat.pow_le_pow_right (by decide) odWidth_mirrorObjects.2
    rw [State.o_subO, if_pos rfl, Nat.mod_eq_of_lt (by omega)]
  refine ⟨_, congrArg Host.Outcome.next ((guardS_of hon s _).trans (if_pos ⟨hstate, hgroup⟩)), ?_, ?_⟩
  · rw [State.o_setO_ne _ _ (by decide), hlag]
  · dsimp only
    rw [hlag, if_neg (by omega), State.o_setO_of_lt _ odWidth_mirrorObjects.1 (by decide)]

theorem exec_mirrorCopy_fails {s : State} (hon : s.power.stbyOn = true) (hstate : s.o Od.mirrorState ≤ 1) :
    exec (.mirrorCopy 1) s = .next (s.setO Od.mirrorState 2) ∧ exec (.mirrorCopy 2) s = .next (s.setO Od.mirrorState 3) :=
  ⟨congrArg Host.Outcome.next ((guardS_of hon s _).trans (if_pos hstate)),
    congrArg Host.Outcome.next ((guardS_of hon s _).trans (if_pos hstate))⟩

/-- Settles O7. -/
theorem powerAppliedAndLost : Obligations.PowerAppliedAndLost :=
  ⟨fun _ hoff => standbyPowerApplied_begins hoff, fun s hmain => ⟨_, exec_mainPowerLoss hmain, s.mainPowerGone_ends⟩,
    fun s hmain => ⟨_, exec_mainOvervoltage hmain, s.mainPowerGone_ends⟩, fun _ hon => standbyPowerLoss_ends hon,
    fun _ hon hstate hgroup hlast => mirrorCopy_copies hon hstate hgroup hlast, fun _ hon hstate => exec_mirrorCopy_fails hon hstate⟩

end Sys2Proof.Machine
end

section
namespace Sys2Proof.Machine

/-! ## Image attempts, updates and the drain (R623, R630 to R633) -/

theorem State.attemptFails_of_runs {s : State} {i : Nat} (h : AttemptRuns s i) : s.attemptFails = tryImages 4 (s.attemptOver i) := by
  obtain ⟨hattempt, hlo, hhi⟩ := h
  simp only [State.attemptFails, hattempt, hlo, hhi, and_self, decide_true, if_true]

section
variable {s : State}

theorem exec_updateActivate (hcommand : s.o Od.updateCommand = 1) (hverified : s.o Od.updateState = 2) (hdrain : s.boot.draining = false)
    (hstep : s.o Od.bootStep = 11) : exec .updateActivate s = .next ((s.updateTook 1).beginDrain (some s.updateTarget)) := by
  have htook : (s.updateTook 1).o Od.bootStep = 11 := by
    rw [State.updateTook, State.o_measure _ _ _ _ _ _ (by decide) (by decide), State.o_setO_ne _ _ (by decide), hstep]
  refine congrArg Host.Outcome.next ((guardS_of (by rw [hcommand, hverified, hdrain]; rfl) s _).trans (if_neg ?_))
  rw [htook]
  decide

theorem odWidth_updateObjects : odWidth Od.updateState = 8 ∧ odWidth Od.preferredImage = 8 := by decide +kernel

/-- Objects that name the update keep their values through the rest of a confirmation. -/
theorem State.o_putRwp (s : State) (ws : List SWrite) {k : Nat} (hslot : k ≠ Od.measurement 3) (hlog : k ≠ Od.measurementLogEntries) :
    (s.putRwp ws).o k = s.o k := by
  simp only [State.putRwp]
  split
  · rfl
  · exact (State.o_measure _ _ _ _ _ _ hslot hlog).trans (State.o_congr rfl k)

theorem State.o_updateState_setUpdate (s : State) {st : Nat} (image : Nat) (hst : st < 2 ^ 8) :
    (s.setUpdate st image).o Od.updateState = st := by
  simp only [State.setUpdate]
  split
  next h => exact h
  · rw [State.o_record _ _ _ _ (by decide), State.o_setO_of_lt _ odWidth_updateObjects.1 hst]

theorem State.o_setUpdate (s : State) (st image : Nat) {k : Nat} (hstate : k ≠ Od.updateState) (hlag : k ≠ Od.mirrorLag) :
    (s.setUpdate st image).o k = s.o k := by
  simp only [State.setUpdate]
  split
  · rfl
  · rw [State.o_record _ _ _ _ hlag, State.o_setO_ne _ _ hstate]

theorem updateConfirm_prefers (hcommand : s.o Od.updateCommand = 2) (htrial : s.o Od.updateState = 4) :
    Runs .updateConfirm s fun u => u.o Od.updateState = 0 ∧ u.o Od.preferredImage = s.o Od.bootImage % 2 ^ 8 := by
  refine ⟨_, congrArg Host.Outcome.next (guardS_of (by rw [hcommand, htrial]; rfl) s _), ?_, ?_⟩
  · exact State.o_updateState_setUpdate _ _ (by decide)
  · rw [State.o_setUpdate _ _ _ (by decide) (by decide), State.o_putRwp _ _ (by decide) (by decide), State.o_setO_same,
      odWidth_updateObjects.2]

/-- A measurement touches of the start-up state only its log. -/
theorem State.boot_measure (s : State) (slot event digest object info : Nat) :
    (s.measure slot event digest object info).boot.validA = s.boot.validA ∧
    (s.measure slot event digest object info).boot.validB = s.boot.validB ∧
    (s.measure slot event digest object info).boot.draining = s.boot.draining := by
  simp only [State.measure]
  split <;> simp

theorem State.updateTarget_updateTook (s : State) (c : Nat) : (s.updateTook c).updateTarget = s.updateTarget := by
  have hobject (k : Nat) (hslot : k ≠ Od.measurement 7) (hlog : k ≠ Od.measurementLogEntries) (hcommand : k ≠ Od.updateCommand) :
      (s.updateTook c).o k = s.o k := by
    rw [State.updateTook, State.o_measure _ _ _ _ _ _ hslot hlog, State.o_setO_ne _ _ hcommand]
  obtain ⟨hvalidA, hvalidB, -⟩ := (s.setO Od.updateCommand 0).boot_measure 7 0x0C c 0 c
  simp only [State.updateTarget, hobject Od.bootStep (by decide) (by decide) (by decide),
    hobject Od.preferredImage (by decide) (by decide) (by decide), hobject Od.bootImage (by decide) (by decide) (by decide)]
  rw [State.updateTook, hvalidA, hvalidB]
  rfl

theorem exec_updateCancel_verified (hcommand : s.o Od.updateCommand = 3) (hverified : s.o Od.updateState = 2)
    (hdrain : s.boot.draining = false) : exec .updateCancel s = .next ((s.updateTook 3).setUpdate 0 s.updateTarget) := by
  have htook : (s.updateTook 3).boot.draining = false := ((s.setO Od.updateCommand 0).boot_measure 7 0x0C 3 0 3).2.2.trans hdrain
  refine congrArg Host.Outcome.next ((guardS_of (by rw [hcommand, hverified]; rfl) s _).trans
    ((if_pos hverified).trans ((if_neg (by rw [htook]; decide)).trans ?_)))
  rw [State.updateTarget_updateTook]

theorem exec_updateCancel_trial (hcommand : s.o Od.updateCommand = 3) (htrial : s.o Od.updateState = 4) :
    exec .updateCancel s = .next ((((s.updateTook 3).setUpdate 0 (s.o Od.bootImage)).addO Od.rollbacks 1).beginDrain none) := by
  refine congrArg Host.Outcome.next ((guardS_of (by rw [hcommand, htrial]; rfl) s _).trans (if_neg ?_))
  rw [htrial]
  decide

end

/-- Settles O8. -/
theorem imagesUpdatesAndDrain : Obligations.ImagesUpdatesAndDrain := by
  refine ⟨fun _ _ h => congrArg Host.Outcome.next (State.attemptFails_of_runs h),
    fun _ _ h => congrArg Host.Outcome.next (State.attemptFails_of_runs h),
    fun _ hcommand hverified hdrain hstep => exec_updateActivate hcommand hverified hdrain hstep,
    fun _ hcommand htrial => updateConfirm_prefers hcommand htrial,
    fun _ hcommand hverified hdrain => exec_updateCancel_verified hcommand hverified hdrain,
    fun _ hcommand htrial => exec_updateCancel_trial hcommand htrial,
    fun s hdrain hreqs hmerges hindex => ?_⟩
  -- The restart stands as a variable, so that comparing the two sides does not evaluate it.
  obtain ⟨restart, hr⟩ : ∃ restart, restart = State.restart := exists_eq
  have hdone : (s.boot.draining && !(s.reqs.any fun e => e.2.state == 2) && s.index.lists.all fun e => e.2.merge.isNone) = true := by
    rw [hdrain, hreqs, hmerges]
    rfl
  change execDrainEnd s = _
  have hrestarted : s.restarted = { s.restart with boot := { s.restart.boot with draining := false, tried := [] } } := rfl
  rw [hrestarted, execDrainEnd, ← hr, guardS_of hdone]
  cases hstripe : s.index.stripe <;> simp only [hindex, Bool.false_eq_true, if_false]

end Sys2Proof.Machine
end

section
namespace Sys2Proof.Machine

/-! ## Pins, the record tap and the TAP (R641, R645, R646, R648) -/

/-- Unlisting a key unlists no other. -/
theorem tHas_tDel {α : Type} (t : Tbl α) (k j : Nat) : tHas (tDel k t) j = (decide (j ≠ k) && tHas t j) := by
  induction t with
  | nil => simp [tDel, tHas]
  | cons e t ih =>
    obtain ⟨i, v⟩ := e
    by_cases hi : i = k
    · subst hi
      by_cases hj : j = i
      · subst hj
        simp [tDel, ih]
      · simp [tDel, tHas, ih, hj, Ne.symm hj]
    · by_cases hij : i = j
      · subst hij
        simp [tDel, tHas, hi]
      · simp [tDel, tHas, hi, beq_eq_false_iff_ne.2 hij, ih]

theorem pinHoldEnd_ends (s : State) (n : Fin 12) :
    Runs (.pinHoldEnd n) s fun u => tHas u.pins.holds n.val = false ∧ u.od = s.od ∧
      ∀ m, m ≠ n.val → tHas u.pins.holds m = tHas s.pins.holds m := by
  refine ⟨_, rfl, ?_, rfl, fun m hm => ?_⟩
  · exact (tHas_tDel _ _ _).trans (by simp)
  · exact (tHas_tDel _ _ _).trans (by simp [hm])

section
variable {s : State}

theorem uartTapRestart_sends {frame : List Byte} (hpower : s.power.stbyOn = true) (htap : s.pinWith 8 = true) (hout : s.pinWith 7 = true)
    (hlength : frame.length = 10) (hform : beAt frame 0 2 = 0xA55A) :
    Runs (.uartTapRestart frame) s fun u => u.od = s.od ∧ u.recs = s.recs ∧
      ∀ r, r ∈ u.pins.uartOut ↔ r ∈ s.recs.ring ∧ max (leAt frame 2 8) (s.recs.next - 65536) ≤ r.number := by
  refine ⟨_, congrArg Host.Outcome.next ((guardS_of (by rw [hpower, htap, hlength, hform]; rfl) s _).trans (if_pos hout)), rfl, rfl, fun r => ?_⟩
  simp only [List.mem_reverse, List.mem_filter, decide_eq_true_eq]

theorem tapMayDrive_iff : s.tapMayDrive = true ↔ s.power.mainSw = false ∧ s.o Od.bootStep ≤ 4 := by simp [State.tapMayDrive]

theorem exec_tapDrives (hswitch : s.power.mainSw = false) (hstep : s.o Od.bootStep ≤ 4) :
    exec .extest s = .next { s with pins := { s.pins with jtag := 3, tdo := s.pins.bsr } } ∧
    exec .clamp s = .next { s with pins := { s.pins with jtag := 4, tdo := 0 } } ∧
    exec .highz s = .next { s with pins := { s.pins with jtag := 5, tdo := 0 } } :=
  have hdrives := tapMayDrive_iff.2 ⟨hswitch, hstep⟩
  ⟨congrArg Host.Outcome.next (if_pos hdrives), congrArg Host.Outcome.next (if_pos hdrives), congrArg Host.Outcome.next (if_pos hdrives)⟩

theorem exec_tapBypasses (hpowered : ¬ (s.power.mainSw = false ∧ s.o Od.bootStep ≤ 4)) :
    exec .extest s = exec .bypass s ∧ exec .clamp s = exec .bypass s ∧ exec .highz s = exec .bypass s :=
  have hbypass := mt tapMayDrive_iff.1 hpowered
  ⟨congrArg Host.Outcome.next (if_neg hbypass), congrArg Host.Outcome.next (if_neg hbypass), congrArg Host.Outcome.next (if_neg hbypass)⟩

end

/-- Settles O9. -/
theorem pinsAndTap : Obligations.PinsAndTap :=
  ⟨pinHoldEnd_ends, fun _ => ⟨rfl, rfl⟩, fun _ => rfl,
    fun _ _ hpower htap hout hlength hform => uartTapRestart_sends hpower htap hout hlength hform,
    fun _ => ⟨rfl, rfl, rfl⟩, fun _ _ _ => rfl, fun _ hswitch hstep => exec_tapDrives hswitch hstep, fun _ hpowered => exec_tapBypasses hpowered⟩

end Sys2Proof.Machine
end

section
namespace Sys2Proof.Machine

/-! ## Messages of the dictionary (R535, R539, R540, R543) -/

section
variable {s : State} {row p full : Nat} {hdr : BitVec 128} {payload : List Byte} {m : DMsg} {u : State}
  {f : State → DMsg → State × Option Ans}

/-- A row serves its own message in the opened state. -/
theorem State.dictRow_of_ready (h : ReadyDMsg s row p hdr payload full m) :
    s.dictRow row p hdr payload full f = s.serve m full f := by
  obtain ⟨hfound, hrow, -⟩ := h
  simp only [State.dictRow, hfound, hrow, if_true]

theorem State.serve_answers (h : ReadyDMsg s row p hdr payload full m) {a : Ans} (hf : f (s.opened m) m = (u, some a)) :
    s.serve m full f = u.answer m.p m.session m.tag m.word true a := by
  obtain ⟨-, -, hgood, hroom, hnew, hfree⟩ := h
  have hbusy : ¬ (m.p = 0 ∧ 16 ≤ full) := fun hb => Nat.not_le.2 (hroom hb.1) hb.2
  rw [State.opened] at hf
  simp only [State.serve, if_neg hbusy, hnew, hfree, hgood, hf, Bool.false_eq_true, if_false]

theorem State.serve_silent (h : ReadyDMsg s row p hdr payload full m) (hf : f (s.opened m) m = (u, none)) :
    s.serve m full f = u := by
  obtain ⟨-, -, hgood, hroom, hnew, hfree⟩ := h
  have hbusy : ¬ (m.p = 0 ∧ 16 ≤ full) := fun hb => Nat.not_le.2 (hroom hb.1) hb.2
  rw [State.opened] at hf
  simp only [State.serve, if_neg hbusy, hnew, hfree, hgood, hf, Bool.false_eq_true, if_false]

/-- A row that answers a ready message leaves the state of its answer with the reply sent. -/
theorem dictRuns_of_ready {c : Instr} (hexec : exec c s = .next (s.dictRow row p hdr payload full f))
    (h : ReadyDMsg s row p hdr payload full m) {a : Ans} (hf : f (s.opened m) m = (u, some a)) : DictRuns c s m u a := by
  rw [DictRuns, hexec, State.dictRow_of_ready h, State.serve_answers h hf]

end

/-! ## Segmented transfers (R382, R540) -/

section
variable {t : State} {m : DMsg} {r : ObjRow} {g : Seg}

theorem State.doSegReadInit_opens (hrow : (t.dropSeg m.p).lookup m = .inr r) (hblob : r.ty = .blob) (hread : r.acc ≠ .wo)
    (hright : (t.dropSeg m.p).hasRight m.p 1 = true) :
    t.doSegReadInit m = ((t.dropSeg m.p).withSeg m.p
      { key := m.key, total := ((t.dropSeg m.p).readBlob m.p m.key).length, data := (t.dropSeg m.p).readBlob m.p m.key },
      some { data := beBytes 8 ((t.dropSeg m.p).readBlob m.p m.key).length }) := by
  simp only [State.doSegReadInit, hrow, if_neg hread, hright, hblob, Bool.not_true, Bool.false_eq_true, if_false, if_true]
  rfl

theorem State.doSegRead_segment (hseg : (t.path m.p).seg = some g) (hread : g.isWrite = false) (hlt : m.param < cdiv g.total segBytes) :
    t.doSegRead m = (t.withSeg m.p { g with idle := 0 }, some { data := (g.data.drop (segBytes * m.param)).take segBytes }) := by
  simp only [State.doSegRead, hseg, hread, if_neg (Nat.not_le.2 hlt), Bool.false_eq_true, if_false]
  rfl

theorem State.doSegRead_cut (hseg : (t.path m.p).seg = none) (hcut : (t.path m.p).cut = some m.key) :
    t.doSegRead m = (t.dropSeg m.p, some { status := 13 }) := by
  simp only [State.doSegRead, hseg, State.noSeg, hcut, if_true]
  rfl

theorem State.doSegWriteInit_opens (hrow : (t.dropSeg m.p).lookup m = .inr r) (hgate : (t.dropSeg m.p).writeGate m m.key r = none)
    (hlength : m.data.length = 8) (hstore : m.key ≠ Od.storeData) (himage : m.key ≠ Od.updateImage) (hbytes : beNat m.data ≠ 0) :
    t.doSegWriteInit m = ((t.dropSeg m.p).withSeg m.p
      { isWrite := true, key := m.key, sel := (t.dropSeg m.p).sel m.p (selKey m.key), total := beNat m.data }, some {}) := by
  have hbarred : (t.dropSeg m.p).segBarred m.key ((t.dropSeg m.p).sel m.p (selKey m.key)) = false := by
    simp [State.segBarred, hstore, himage]
  simp only [State.doSegWriteInit, hrow, hgate, hlength, hbarred, if_neg hstore, if_neg himage, if_neg hbytes, ne_eq, not_true_eq_false,
    Bool.false_eq_true, if_false]
  rfl

theorem State.doSegWrite_carries (hseg : (t.path m.p).seg = some g) (hwrite : g.isWrite = true) (hnext : m.param = g.next)
    (hlength : m.data.length = segBytes) (hmore : g.next + 1 < cdiv g.total segBytes) (himage : g.key ≠ Od.updateImage) :
    t.doSegWrite m = (t.withSeg m.p { g with data := g.data ++ m.data, next := g.next + 1, idle := 0 }, some {}) := by
  have hwhole : m.data.length = min segBytes (g.total - segBytes * g.next) := by
    unfold cdiv segBytes at *
    omega
  simp only [State.doSegWrite, hseg, hwrite, hnext, ← hwhole, if_neg himage, if_pos hmore, Nat.not_le.2 (Nat.lt_of_succ_lt hmore), ne_eq,
    not_true_eq_false, and_false, or_self, Bool.not_true, Bool.false_eq_true, if_false]
  rfl

theorem State.doSegWrite_outOfOrder (hseg : (t.path m.p).seg = some g) (hwrite : g.isWrite = true)
    (hlt : m.param < cdiv g.total segBytes) (hother : m.param ≠ g.next) :
    t.doSegWrite m = (t, some { status := 10, param := some g.next }) := by
  simp only [State.doSegWrite, hseg, hwrite, hother, Nat.not_le.2 hlt, false_and, or_self, Bool.not_true, Bool.false_eq_true, if_false,
    ne_eq, not_false_eq_true, if_true]
  rfl

theorem State.doSegAbort_drops (hcut : (t.path m.p).cut ≠ some m.key) : t.doSegAbort m = (t.dropSeg m.p, some {}) := by
  simp only [State.doSegAbort, if_neg hcut]
  rfl

end

theorem exec_segTimeout {s : State} {path : Fin 2} {g : Seg} (hseg : (s.path path.val).seg = some g) (hidle : s.o Od.segTimeoutBeats ≤ g.idle) :
    exec (.segTimeout path) s = .next (s.dropSeg path.val) := by
  refine congrArg Host.Outcome.next (guardS_of ?_ s _)
  simp only [hseg, hidle, decide_true]

/-- Settles O42: each row serves its message in the opened state, where the sub-operation answers as said. -/
theorem segmentsTransferObjects : Obligations.SegmentsTransferObjects := by
  refine ⟨fun s path hdr payload full m r h hrow hblob hread hright => ?_, fun s path hdr payload full m g h hseg hread hlt => ?_,
    fun s path hdr payload full m r h hrow hgate hlength hstore himage hbytes => ?_,
    fun s path hdr payload full m g h hseg hwrite hnext hlength hmore himage => ?_,
    fun s path hdr payload full m g h hseg hwrite hlt hother => ?_, fun s path hdr payload full m h hcut => ?_,
    fun s path hdr payload full m h hseg hcut => ?_, fun s path g hseg hidle => exec_segTimeout hseg hidle⟩
  · exact dictRuns_of_ready rfl h (State.doSegReadInit_opens hrow hblob hread hright)
  · exact dictRuns_of_ready rfl h (State.doSegRead_segment hseg hread hlt)
  · exact dictRuns_of_ready rfl h (State.doSegWriteInit_opens hrow hgate hlength hstore himage hbytes)
  · exact dictRuns_of_ready rfl h (State.doSegWrite_carries hseg hwrite hnext hlength hmore himage)
  · exact dictRuns_of_ready rfl h (State.doSegWrite_outOfOrder hseg hwrite hlt hother)
  · exact dictRuns_of_ready rfl h (State.doSegAbort_drops hcut)
  · exact dictRuns_of_ready rfl h (State.doSegRead_cut hseg hcut)

end Sys2Proof.Machine
end

section
namespace Sys2Proof.Machine

/-! ## The session lock (R541, R543) -/

/-- A chain frame's header and payload that carry LOCK_ACQUIRE in session 7 to address 5, and the message it is. -/
def acquireHead : BitVec 128 := BitVec.ofNat 128 (frameHead 5 5 1 false 7 0 11 8)
def acquireWord : Nat := 8 * 2 ^ 56 + 1
def acquireMsg : DMsg := { p := 0, session := 7, tag := 11, word := acquireWord }

/-- The module at address 5, started up, its lock free: LOCK_LEASE_BEATS is listed with 2^32, one bit more than the 32 it has. -/
def wideLease : State :=
  { od := [(Od.linkState, 1), (Od.chainAddress, 5), (Od.bootStep, 11), (Od.lockLeaseBeats, 2 ^ 32)], power := { stbyOn := true } }

theorem wideLease_ready : ReadyDMsg wideLease 81 0 acquireHead (beBytes 8 acquireWord) 0 acquireMsg ∧
    (wideLease.opened acquireMsg).hasRight 0 4 = true ∧ (wideLease.opened acquireMsg).o Od.lockState = 0 ∧
    (wideLease.opened acquireMsg).o Od.lockLeaseBeats = 2 ^ 32 := by decide +kernel

/-- What ACQUIRE leaves in LOCK_REMAINING. -/
theorem wideLease_remaining : (((wideLease.opened acquireMsg).acquire acquireMsg).1).o Od.lockRemaining = 0 := by decide +kernel

/-- Refutes O43, its first part: the statement is about every state, also one in which LOCK_LEASE_BEATS is listed with a value of more
than its 32 bits. LOCK_REMAINING takes that value modulo 2^32: in wideLease it is 0 after ACQUIRE, and not 2^32. -/
theorem not_lockSubOperations : ¬ Obligations.LockSubOperations := by
  intro h
  obtain ⟨hready, hright, hfree, hlease⟩ := wideLease_ready
  obtain ⟨t, hrun, -, -, -, -, hremaining⟩ := h.1 wideLease 0 acquireHead (beBytes 8 acquireWord) 0 acquireMsg hready hright hfree
  have hacquire : ∃ a, (wideLease.opened acquireMsg).acquire acquireMsg = (((wideLease.opened acquireMsg).acquire acquireMsg).1, some a) := by
    simp only [State.acquire, hfree, if_false, ne_eq, not_true_eq_false, false_and]
    exact ⟨_, rfl⟩
  obtain ⟨a, ha⟩ := hacquire
  have hown : DictRuns (.lockAcquire 0 acquireHead (beBytes 8 acquireWord) 0) wideLease acquireMsg _ a := dictRuns_of_ready rfl hready ha
  have hsame := congrArg (fun u : State => u.o Od.lockRemaining) (Host.Outcome.next.inj (hrun.symm.trans hown))
  simp only [State.o_answer _ _ _ _ _ _ _ (show Od.lockRemaining ≠ Od.dictErrors by decide), wideLease_remaining, hremaining, hlease] at hsame
  exact absurd hsame (by decide)

end Sys2Proof.Machine
end

section
namespace Sys2Proof.Machine

/-! ## The beat (R526 to R529) -/

theorem odWidth_beatObjects : odWidth Od.beatState = 8 ∧ odWidth Od.beatOffset = 32 ∧ odWidth Od.beatWordErrors = 64 ∧
    odWidth Od.beatLosses = 32 ∧ odWidth Od.holdoverExpired = 8 := by decide +kernel

theorem State.o_setBeatState (s : State) (st : Nat) (resync : Option Nat) {k : Nat} (hlag : k ≠ Od.mirrorLag) :
    (s.setBeatState st resync).o k = (s.setO Od.beatState st).o k := by
  simp only [State.setBeatState]
  split
  · exact State.o_record _ _ _ _ hlag
  · rfl

/-- Entry to HOLDOVER counts a loss and begins HOLDOVER_BEATS at 0. -/
theorem State.o_enterHoldover (s : State) {k : Nat} (hlag : k ≠ Od.mirrorLag) :
    s.enterHoldover.o k = (((s.addO Od.beatLosses 1).setO Od.holdoverBeats 0).setO Od.beatState bsHOLDOVER).o k :=
  (State.o_congr rfl k).trans (State.o_setBeatState _ _ _ hlag)

theorem State.enterHoldover_counts (s : State) : s.enterHoldover.o Od.beatState = 3 ∧ s.enterHoldover.o Od.holdoverBeats = 0 ∧
    s.enterHoldover.o Od.beatLosses = (s.o Od.beatLosses + 1) % 2 ^ 32 := by
  refine ⟨?_, ?_, ?_⟩
  · rw [State.o_enterHoldover _ (by decide), State.o_setO_of_lt _ odWidth_beatObjects.1 (by decide)]
    rfl
  · rw [State.o_enterHoldover _ (by decide), State.o_setO_ne _ _ (by decide), State.o_setO_same, Nat.zero_mod]
  · rw [State.o_enterHoldover _ (by decide), State.o_setO_ne _ _ (by decide), State.o_setO_ne _ _ (by decide), State.o_addO, if_pos rfl,
      odWidth_beatObjects.2.2.2.1]

section
variable {s : State} {word : BitVec 64} {off : Int} {gap : Nat}

theorem beatInput_of_ready (h : ReadyBeat s) : (s.power.stbyOn && (s.o Od.beatSource != 1 || s.pinWith 1)) = true := by
  obtain ⟨hpower, hinput⟩ := h
  simpa [hpower] using hinput

/-- The first valid word begins LOCKING and goes on to the neighbours. -/
theorem beatWord_begins (h : ReadyBeat s) (hstate : s.o Od.beatState = 0) (hvalid : wordOk word.toNat = true) :
    Runs (.beatWord word off gap) s fun u => u.o Od.beatState = 1 ∧ u.chain.runLast = bwCount word.toNat ∧
      u.chain.beatOut = word.toNat := by
  refine ⟨_, congrArg Host.Outcome.next (guardS_of (beatInput_of_ready h) s _), ?_⟩
  simp [State.beatState, hstate, hvalid, bsLOCKED, bsHOLDOVER, bsSTANDALONE, bsUNLOCKED, bsLOCKING, odWidth_beatObjects]

/-- A state that repeats a word on BEAT_OUT. -/
def State.repeats (s : State) (w : Nat) : State := { s with chain := { s.chain with beatOut := w } }

/-- In LOCKED a word in time is repeated, and acts. -/
theorem exec_beatWord_inTime (h : ReadyBeat s) (hstate : s.o Od.beatState = 2) (hvalid : wordOk word.toNat = true)
    (hcount : bwCount word.toNat = s.beat + 1) (hnear : NearPrediction s off) :
    exec (.beatWord word off gap) s = .next ((s.repeats word.toNat).lockedWord word.toNat off) := by
  refine congrArg Host.Outcome.next ((guardS_of (beatInput_of_ready h) s _).trans ?_)
  have hok : (wordOk word.toNat && (s.beatState != bsLOCKED || (bwCount word.toNat == s.beat + 1 &&
      decide (-((s.periodUs * 10000 : Nat) : Int) ≤ off ∧ off ≤ ((s.periodUs * 10000 : Nat) : Int))))) = true := by
    rw [hvalid, hcount, decide_eq_true hnear, beq_self_eq_true, Bool.and_self, Bool.or_true, Bool.and_self]
  simp only [hok, if_true]
  simp [State.beatState, hstate, bsLOCKED, bsHOLDOVER, bsSTANDALONE, bsUNLOCKED, bsLOCKING, State.repeats]

/-- In LOCKED an invalid word is counted, repeated, and acts. -/
theorem exec_beatWord_invalid (h : ReadyBeat s) (hstate : s.o Od.beatState = 2) (hvalid : wordOk word.toNat = false) :
    exec (.beatWord word off gap) s = .next (((s.addO Od.beatWordErrors 1).repeats word.toNat).lockedWord word.toNat off) := by
  refine congrArg Host.Outcome.next ((guardS_of (beatInput_of_ready h) s _).trans ?_)
  simp only [hvalid, Bool.false_and, Bool.false_eq_true, if_false]
  simp [State.beatState, hstate, bsLOCKED, bsHOLDOVER, bsSTANDALONE, bsUNLOCKED, bsLOCKING, State.repeats]

/-- A word in time that does not carry HOLDOVER keeps the lock. -/
theorem beatWord_keeps (h : ReadyBeat s) (hstate : s.o Od.beatState = 2) (hvalid : wordOk word.toNat = true)
    (hcount : bwCount word.toNat = s.beat + 1) (hnear : NearPrediction s off) (hlocked : bwHoldover word.toNat = false) :
    Runs (.beatWord word off gap) s fun u => u.o Od.beatState = 2 ∧ u.o Od.beatOffset = ofI32 off % 2 ^ 32 ∧ u.chain.invalid = 0 ∧
      u.o Od.beatWordErrors = s.o Od.beatWordErrors := by
  refine ⟨_, exec_beatWord_inTime h hstate hvalid hcount hnear, ?_⟩
  have hok : (wordOk word.toNat && bwCount word.toNat == (s.repeats word.toNat).beat + 1 &&
      decide (-(((s.repeats word.toNat).periodUs * 10000 : Nat) : Int) ≤ off ∧ off ≤ (((s.repeats word.toNat).periodUs * 10000 : Nat) : Int))) =
      true := by
    change (_ && bwCount word.toNat == s.beat + 1 && decide (-((s.periodUs * 10000 : Nat) : Int) ≤ off ∧ off ≤ ((s.periodUs * 10000 : Nat) : Int))) = _
    rw [hvalid, hcount, decide_eq_true hnear, beq_self_eq_true]
    rfl
  have hobjects (k : Nat) : ((s.repeats word.toNat).lockedWord word.toNat off).o k = (s.setO Od.beatOffset (ofI32 off)).o k := by
    simp only [State.lockedWord, hok, hlocked, if_true, Bool.false_eq_true, if_false]
    exact State.o_congr rfl k
  refine ⟨?_, ?_, ?_, ?_⟩
  · rw [hobjects, State.o_setO_ne _ _ (by decide), hstate]
  · rw [hobjects, State.o_setO_same, odWidth_beatObjects.2.1]
  · simp only [State.lockedWord, hok, hlocked, if_true, Bool.false_eq_true, if_false]
  · rw [hobjects, State.o_setO_ne _ _ (by decide)]

/-- The third invalid word in a row brings HOLDOVER. -/
theorem beatWord_loses (h : ReadyBeat s) (hstate : s.o Od.beatState = 2) (hvalid : wordOk word.toNat = false) (hthird : 2 ≤ s.chain.invalid) :
    Runs (.beatWord word off gap) s fun u => u.o Od.beatState = 3 ∧ u.o Od.holdoverBeats = 0 ∧
      u.o Od.beatWordErrors = (s.o Od.beatWordErrors + 1) % 2 ^ 64 := by
  have hloses : (((s.addO Od.beatWordErrors 1).repeats word.toNat).lockedWord word.toNat off) =
      ((s.addO Od.beatWordErrors 1).repeats word.toNat).enterHoldover := by
    simp only [State.lockedWord, hvalid, Bool.false_and, Bool.false_eq_true, if_false]
    exact if_neg (by change ¬ s.chain.invalid + 1 < 3; omega)
  refine ⟨_, (exec_beatWord_invalid h hstate hvalid).trans (congrArg Host.Outcome.next hloses), ?_⟩
  obtain ⟨hheld, hbeats, -⟩ := ((s.addO Od.beatWordErrors 1).repeats word.toNat).enterHoldover_counts
  refine ⟨hheld, hbeats, ?_⟩
  rw [State.o_enterHoldover _ (by decide), State.o_setO_ne _ _ (by decide), State.o_setO_ne _ _ (by decide), State.o_addO,
    if_neg (by decide)]
  refine (State.o_congr (t := s.addO Od.beatWordErrors 1) rfl _).trans ?_
  rw [State.o_addO, if_pos rfl, odWidth_beatObjects.2.2.1]

theorem beatMarkerMissing_loses (hstate : s.o Od.beatState = 2) :
    Runs .beatMarkerMissing s fun u => u.o Od.beatState = 3 ∧ u.o Od.beatLosses = (s.o Od.beatLosses + 1) % 2 ^ 32 ∧
      u.o Od.holdoverBeats = 0 := by
  obtain ⟨hheld, hbeats, hlosses⟩ := s.enterHoldover_counts
  exact ⟨_, congrArg Host.Outcome.next (guardS_of (by rw [State.beatState, hstate]; rfl) s _), hheld, hlosses, hbeats⟩

end

/-- What a table reads is listed, or it is the default. -/
theorem tGet_eq_or_mem {α : Type} (d : α) (t : Tbl α) (k : Nat) : tGet d t k = d ∨ (k, tGet d t k) ∈ t := by
  induction t with
  | nil => exact .inl rfl
  | cons e t ih =>
    rw [tGet_cons]
    split
    next he => exact .inr (by rw [← he]; exact List.mem_cons_self)
    · exact ih.imp_right (List.mem_cons_of_mem _)

/-- Stopping the stakes that span modules leaves none of them running. -/
theorem State.stopSpanning_stops (s : State) {n : Nat} (hused : ((s.stopSpanning true).stake n).used = true)
    (hspans : 1 < ((s.stopSpanning true).stake n).segs) : ((s.stopSpanning true).stake n).stopped = true := by
  rcases tGet_eq_or_mem {} (s.stopSpanning true).stakes n with hempty | hlisted
  · rw [State.stake, hempty] at hused
    exact absurd hused (by decide)
  · obtain ⟨hmapped, -⟩ := List.mem_filter.1 hlisted
    obtain ⟨⟨k, x⟩, -, hx⟩ := List.mem_map.1 hmapped
    obtain ⟨-, hx⟩ := Prod.mk.inj hx
    rw [State.stake] at hused hspans ⊢
    rw [← hx] at hused hspans ⊢
    simp only [if_true] at hused hspans ⊢
    by_cases hrest : (!x.used || decide (x.segs ≤ 1)) = true
    · rw [if_pos hrest] at hused hspans
      simp only [hused, Bool.not_true, Bool.false_or, decide_eq_true_eq] at hrest
      omega
    · rw [if_neg hrest]

theorem holdoverLimit_stops {s : State} (hstate : s.o Od.beatState = 3) (hfirst : s.o Od.holdoverExpired = 0)
    (hlimit : s.o Od.holdoverLimit ≤ s.o Od.holdoverBeats) :
    Runs .holdoverLimit s fun u => u.o Od.holdoverExpired = 1 ∧
      ∀ n : Nat, (u.stake n).used = true → 1 < (u.stake n).segs → (u.stake n).stopped = true := by
  refine ⟨_, congrArg Host.Outcome.next (guardS_of ?_ s _), ?_, fun n hused hspans => State.stopSpanning_stops _ hused hspans⟩
  · rw [State.beatState, hstate, hfirst, decide_eq_true hlimit]
    rfl
  · exact (State.o_congr rfl _).trans (State.o_setO_of_lt _ odWidth_beatObjects.2.2.2.2 (by decide))

/-- Settles O40. -/
theorem beatWordsLockAndHold : Obligations.BeatWordsLockAndHold :=
  ⟨fun _ _ _ _ h hstate hvalid => beatWord_begins h hstate hvalid,
    fun _ _ _ _ h hstate hvalid hcount hnear hlocked => beatWord_keeps h hstate hvalid hcount hnear hlocked,
    fun _ _ _ _ h hstate hvalid hthird => beatWord_loses h hstate hvalid hthird, fun _ hstate => beatMarkerMissing_loses hstate,
    fun _ hstate hfirst hlimit => holdoverLimit_stops hstate hfirst hlimit⟩

end Sys2Proof.Machine
end

section
namespace Sys2Proof.Machine

/-! ## The chain (R518 to R525) -/

theorem odWidth_chainObjects : odWidth Od.chainAddress = 8 ∧ odWidth Od.chainState = 8 ∧ odWidth Od.linkState = 8 ∧
    odWidth Od.beatDelay = 32 ∧ odWidth Od.upstreamDelay = 32 := by decide +kernel

/-- LINK_STATE reads the link bit that was set. -/
theorem bitAt_setBitTo_link (v : Nat) {i : Nat} (b : Bool) (hi : i < 2) : bitAt (setBitTo v i b % 2 ^ 8) i = b := by
  unfold setBitTo bitAt
  interval_cases i <;> cases b <;> simp <;> split <;> omega

theorem bitAt_setBitTo_other (v : Nat) : bitAt (setBitTo v 1 false % 2 ^ 8) 0 = bitAt v 0 := by
  unfold setBitTo bitAt
  simp
  split <;> omega

section
variable (s : State)

theorem State.o_ownFrame (ft dst : Nat) (up : Bool) (session handle tag : Nat) (payload : List Byte) (k : Nat) :
    (s.ownFrame ft dst up session handle tag payload).o k = s.o k := State.o_congr (State.od_sendFrame _ _ _) k

theorem State.measured_ownFrame (ft dst : Nat) (up : Bool) (session handle tag : Nat) (payload : List Byte) :
    (s.ownFrame ft dst up session handle tag payload).chain.measured = s.chain.measured ∧
      (s.ownFrame ft dst up session handle tag payload).chain.enumWait = s.chain.enumWait := by
  simp [State.ownFrame, State.sendFrame, apply_ite State.chain, apply_ite Chain.measured, apply_ite Chain.enumWait]

theorem State.o_chainRecord (old : Nat) {k : Nat} (hlag : k ≠ Od.mirrorLag) : (s.chainRecord old).o k = s.o k :=
  State.o_record _ _ _ _ hlag

theorem State.o_setAddress (a : Nat) {k : Nat} (hlag : k ≠ Od.mirrorLag) :
    (s.setAddress a).o k = ((s.setO Od.chainAddress a).setO Od.chainState (if a = 0 then 0 else 1)).o k := by
  simp only [State.setAddress]
  split
  · rfl
  · exact State.o_chainRecord _ _ hlag

theorem State.o_repeatFrame (up : Bool) (f : Frame) {k : Nat} (hcount : k ≠ Od.framesRepeated) : (s.repeatFrame up f).o k = s.o k := by
  by_cases hlink : s.linkUp (if up then 0 else 1) = true
  · rw [State.repeatFrame, if_pos hlink, State.o_addO, if_neg hcount]
    exact State.o_congr (State.od_sendFrame _ _ _) k
  · rw [State.repeatFrame, if_neg hlink]

theorem State.o_freeLock (k : Nat) : s.freeLock.o k =
    ((((s.setO Od.lockState 0).setO Od.lockHandle 0).setO Od.lockRemaining 0).setO Od.lockStaged 0).o k := State.o_congr rfl k

/-- The objects a broken lock writes. -/
def lockObjects : List Nat :=
  [Od.lockState, Od.lockHandle, Od.lockRemaining, Od.lockStaged, Od.lockBreaks, Od.lastBreak, Od.prevBroken, Od.mirrorLag]

theorem State.o_breakLock (cause : Nat) {k : Nat} (hk : k ∉ lockObjects) : (s.breakLock cause).o k = s.o k := by
  simp only [lockObjects, List.mem_cons, List.not_mem_nil, or_false, not_or] at hk
  obtain ⟨hstate, hhandle, hremaining, hstaged, hbreaks, hlast, hprev, hlag⟩ := hk
  simp only [State.breakLock]
  split
  · rfl
  · rw [State.o_record _ _ _ _ hlag, State.o_setO_ne _ _ hprev, State.o_setO_ne _ _ hlast, State.o_addO, if_neg hbreaks, State.o_freeLock,
      State.o_setO_ne _ _ hstaged, State.o_setO_ne _ _ hremaining, State.o_setO_ne _ _ hhandle, State.o_setO_ne _ _ hstate]

theorem State.o_breakPath (p cause : Nat) {k : Nat} (hk : k ∉ lockObjects) : (s.breakPath p cause).o k = s.o k := by
  simp only [State.breakPath]
  split
  · exact State.o_breakLock _ _ hk
  · rfl

/-- A broken lock is free. -/
theorem State.lockState_breakLock (cause : Nat) : (s.breakLock cause).o Od.lockState = 0 := by
  simp only [State.breakLock]
  split
  next hfree => exact hfree
  · rw [State.o_record _ _ _ _ (by decide), State.o_setO_ne _ _ (by decide), State.o_setO_ne _ _ (by decide), State.o_addO,
      if_neg (by decide), State.o_freeLock, State.o_setO_ne _ _ (by decide), State.o_setO_ne _ _ (by decide),
      State.o_setO_ne _ _ (by decide), State.o_setO_same, Nat.zero_mod]

theorem State.lockState_breakPath (p cause : Nat) : (s.breakPath p cause).o Od.lockState ≠ p + 1 := by
  simp only [State.breakPath]
  split
  · rw [State.lockState_breakLock]
    omega
  next hother => simpa [State.holdsLock] using hother

@[simp] theorem State.od_cutFrame (up : Bool) : (s.cutFrame up).od = s.od := by
  simp only [State.cutFrame, apply_ite State.od, ite_self]

/-- Frames cut on both links leave the objects. -/
theorem State.o_cutFrames (a b : Bool) (k : Nat) : (if b then (if a then s.cutFrame true else s).cutFrame false
    else if a then s.cutFrame true else s : State).o k = s.o k :=
  State.o_congr (by simp only [apply_ite State.od, State.od_cutFrame, ite_self]) k

end

section
variable {s : State}

theorem exec_frameRepeat_forwards {up fcs : Bool} {hdr : BitVec 128} {payload : List Byte} (hlink : ReadyLink s (if up then 1 else 0))
    (hgood : (fcs && frameOk hdr.toNat payload) = true) (henumerate : fType hdr.toNat ≠ 1) (hpath : fType hdr.toNat ≠ 7)
    (hforwards : s.forwards hdr.toNat = true) :
    exec (.frameRepeat up hdr payload fcs) s = .next (s.repeatFrame up { header := hdr.toNat, payload := payload }) := by
  obtain ⟨hpower, hup⟩ := hlink
  obtain ⟨rfl, hformat⟩ := Bool.and_eq_true_iff.1 hgood
  refine congrArg Host.Outcome.next ((guardS_of (by rw [hpower, hup]; rfl) s _).trans ?_)
  simp only [hformat, hforwards, Bool.and_self, if_true, beq_eq_false_iff_ne.2 henumerate, beq_eq_false_iff_ne.2 hpath, Bool.or_self,
    Bool.and_false, Bool.false_eq_true, if_false, Bool.not_true]

/-- Whether a frame is the module's own does not hang on what a count changed. -/
theorem State.forwards_addO_discarded (s : State) (w : Nat) : (s.addO Od.framesDiscarded 1).forwards w = s.forwards w := by
  simp only [State.forwards, State.o_addO, if_neg (show Od.chainAddress ≠ Od.framesDiscarded by decide)]

theorem exec_frameRepeat_corrupt {up : Bool} {hdr : BitVec 128} {payload : List Byte} (hlink : ReadyLink s (if up then 1 else 0))
    (hforwards : s.forwards hdr.toNat = true) :
    exec (.frameRepeat up hdr payload false) s = .next ((s.addO Od.framesDiscarded 1).repeatFrame up
      { header := hdr.toNat, payload := payload, corrupt := true }) := by
  obtain ⟨hpower, hup⟩ := hlink
  refine congrArg Host.Outcome.next ((guardS_of (by rw [hpower, hup]; rfl) s _).trans ?_)
  simp only [Bool.false_and, Bool.false_eq_true, if_false, State.forwards_addO_discarded, hforwards, if_true, Bool.not_false]

/-- What the end of an ENUMERATE, the reply and the frame passed on, leaves of the objects. -/
theorem State.o_enumReply (s : State) (late : Bool) (k : Nat) : (s.enumReply late).o k = s.o k := State.o_ownFrame _ _ _ _ _ _ _ _ _

theorem State.o_enumerate (s : State) {hop : Nat} (acc : Nat) (hroom : hop + 1 ≤ 126) {k : Nat} (hlag : k ≠ Od.mirrorLag)
    (hcount : k ≠ Od.framesRepeated) : (s.enumerate hop acc).o k =
      (((((s.breakPath 0 3).addO Od.enumerations 1).setO Od.beatDelay
        (acc + ((s.breakPath 0 3).addO Od.enumerations 1).o Od.upstreamDelay)).setO Od.chainAddress (hop + 1)).setO Od.chainState 1).o k := by
  simp only [State.enumerate, if_pos hroom]
  rw [State.o_enumReply, State.o_repeatFrame _ _ _ hcount, State.o_setAddress _ _ hlag, if_neg (Nat.succ_ne_zero hop)]

theorem enumerate_takesAddress {hop : Fin 256} {acc : Fin 4294967296} (hlink : ReadyLink s 0) (hmeasured : s.chain.measured = true)
    (hroom : hop.val + 1 ≤ 126) :
    Runs (.enumerate hop acc) s fun u => u.o Od.chainAddress = hop.val + 1 ∧ u.o Od.chainState = 1 ∧
      u.o Od.beatDelay = (acc.val + s.o Od.upstreamDelay) % 2 ^ 32 := by
  obtain ⟨hpower, hup⟩ := hlink
  obtain ⟨hwaddress, hwstate, -, hwdelay, -⟩ := odWidth_chainObjects
  refine ⟨_, congrArg Host.Outcome.next ((guardS_of (by rw [hpower, hup]; rfl) s _).trans (if_pos hmeasured)), ?_, ?_, ?_⟩
  · rw [State.o_enumerate _ _ hroom (by decide) (by decide), State.o_setO_ne _ _ (by decide), State.o_setO_of_lt _ hwaddress (by omega)]
  · rw [State.o_enumerate _ _ hroom (by decide) (by decide), State.o_setO_of_lt _ hwstate (by decide)]
  · rw [State.o_enumerate _ _ hroom (by decide) (by decide), State.o_setO_ne _ _ (by decide), State.o_setO_ne _ _ (by decide),
      State.o_setO_same, hwdelay, State.o_addO, if_neg (by decide), State.o_breakPath _ _ _ (by decide)]

theorem enumerate_waits {hop : Fin 256} {acc : Fin 4294967296} (hlink : ReadyLink s 0) (hmeasured : s.chain.measured = false) :
    Runs (.enumerate hop acc) s fun u => u.chain.enumWait = some (hop.val, acc.val) ∧ u.od = s.od := by
  obtain ⟨hpower, hup⟩ := hlink
  exact ⟨_, congrArg Host.Outcome.next ((guardS_of (by rw [hpower, hup]; rfl) s _).trans (if_neg (by rw [hmeasured]; decide))), rfl, rfl⟩

theorem exec_probe {src : Fin 128} (hlink : ReadyLink s 1) : exec (.probe src) s = .next (s.ownFrame 4 src.val false 0 0 0 []) := by
  obtain ⟨hpower, hup⟩ := hlink
  exact congrArg Host.Outcome.next (guardS_of (by rw [hpower, hup]; rfl) s _)

/-- The state of an upstream delay just measured. -/
def State.measuredDelay (s : State) (d : Nat) : State :=
  { s.setO Od.upstreamDelay d with chain := { s.chain with measured := true } }

theorem State.o_measuredDelay (s : State) (d k : Nat) : (s.measuredDelay d).o k = (s.setO Od.upstreamDelay d).o k := State.o_congr rfl k

/-- The last of ECHO: an ENUMERATE that waits acts. -/
def State.enumerateWaiting (s : State) : State :=
  match s.chain.enumWait with
  | none => s
  | some (h, a) => { s with chain := { s.chain with enumWait := none } }.enumerate h a

theorem State.enumerateWaiting_of_none {s : State} (hwait : s.chain.enumWait = none) : s.enumerateWaiting = s := by
  rw [State.enumerateWaiting, hwait]

theorem echo_measures {delay : Fin 4294967296} {src : Fin 128} (hlink : ReadyLink s 0) (hmeasured : s.chain.measured = false)
    (hwait : s.chain.enumWait = none) (hheld : s.o Od.chainState ≠ 2) :
    Runs (.echo delay src) s fun u => u.o Od.upstreamDelay = delay.val ∧ u.chain.measured = true ∧
      u.o Od.chainAddress = s.o Od.chainAddress := by
  obtain ⟨hpower, hup⟩ := hlink
  have hstate : ((s.measuredDelay delay.val).o Od.chainState != 2) = true := by
    rw [State.o_measuredDelay, State.o_setO_ne _ _ (by decide)]
    exact bne_iff_ne.2 hheld
  have hechoes : exec (.echo delay src) s = .next (s.measuredDelay delay.val) := by
    refine congrArg Host.Outcome.next ((guardS_of (by rw [hpower, hup, hmeasured]; rfl) s _).trans ?_)
    exact (congrArg State.enumerateWaiting (if_pos hstate)).trans (State.enumerateWaiting_of_none hwait)
  refine ⟨_, hechoes, ?_, rfl, ?_⟩
  · rw [State.o_measuredDelay, State.o_setO_of_lt _ odWidth_chainObjects.2.2.2.2 delay.isLt]
  · rw [State.o_measuredDelay, State.o_setO_ne _ _ (by decide)]

theorem exec_pathDown {src : Fin 128} (hlink : ReadyLink s 0) : exec (.pathDown src) s =
    .next ((s.breakPath 0 2).repeatFrame false { header := frameHead 7 127 src.val false 0 0 0 0 }) := by
  obtain ⟨hpower, hup⟩ := hlink
  exact congrArg Host.Outcome.next (guardS_of (by rw [hpower, hup]; rfl) s _)

/-! ### The links -/

/-- LINK_STATE with one bit set shows it. -/
theorem State.linkUp_of_setO {u t : State} {i : Nat} (b : Bool) (hi : i < 2)
    (h : u.o Od.linkState = (t.setO Od.linkState (setBitTo (s.o Od.linkState) i b)).o Od.linkState) : u.linkUp i = b := by
  rw [State.linkUp, h, State.o_setO_same, odWidth_chainObjects.2.2.1, bitAt_setBitTo_link _ _ hi]

theorem upstreamLinkUp_runs (hpower : s.power.stbyOn = true) (hdown : s.linkUp 0 = false) :
    Runs .upstreamLinkUp s fun u => u.linkUp 0 = true ∧ u.chain.measured = false ∧ u.chain.enumWait = none := by
  refine ⟨_, congrArg Host.Outcome.next (guardS_of (by rw [hpower, hdown]; rfl) s _), ?_, ?_⟩
  · exact State.linkUp_of_setO (s := s) (t := s) true (by decide)
      ((State.o_ownFrame _ _ _ _ _ _ _ _ _).trans ((State.o_chainRecord _ _ (by decide)).trans (State.o_congr rfl _)))
  · simp [State.measured_ownFrame, State.chainRecord]

/-- The last of UPSTREAM_LINK_DOWN: an address that is held. -/
def State.holdAddress (s : State) : State :=
  if s.o Od.chainAddress = 0 then s else
    { s.ownFrame 7 127 false 0 0 0 [] with chain := { (s.ownFrame 7 127 false 0 0 0 []).chain with
        oldDelay := if (s.ownFrame 7 127 false 0 0 0 []).o Od.chainState == 2 then (s.ownFrame 7 127 false 0 0 0 []).chain.oldDelay
          else (s.ownFrame 7 127 false 0 0 0 []).o Od.upstreamDelay
        hold := if (s.ownFrame 7 127 false 0 0 0 []).o Od.chainState == 2 then (s.ownFrame 7 127 false 0 0 0 []).chain.hold
          else (s.ownFrame 7 127 false 0 0 0 []).beat } }.setO Od.chainState 2

theorem State.o_holdAddress_of_ne (s : State) {k : Nat} (hk : k ≠ Od.chainState) : s.holdAddress.o k = s.o k := by
  by_cases haddress : s.o Od.chainAddress = 0
  · rw [State.holdAddress, if_pos haddress]
  · rw [State.holdAddress, if_neg haddress, State.o_setO_ne _ _ hk]
    exact (State.o_congr (t := s.ownFrame 7 127 false 0 0 0 []) rfl k).trans (State.o_ownFrame _ _ _ _ _ _ _ _ k)

theorem State.chainState_holdAddress {s : State} (haddress : s.o Od.chainAddress ≠ 0) : s.holdAddress.o Od.chainState = 2 := by
  rw [State.holdAddress, if_neg haddress, State.o_setO_of_lt _ odWidth_chainObjects.2.1 (by decide)]

/-- UPSTREAM_LINK_DOWN up to the address: the link, the frames on it and the lock of its path. -/
def State.upstreamCut (s : State) (cutUp cutDown : Bool) : State :=
  let s := s.setO Od.linkState (setBitTo (s.o Od.linkState) 0 false)
  let s := if cutUp then s.cutFrame true else s
  let s := if cutDown then s.cutFrame false else s
  let s := s.breakPath 0 2
  { s with chain := { s.chain with enumWait := none } }

theorem exec_upstreamLinkDown {cutUp cutDown : Bool} (hlink : ReadyLink s 0) : exec (.upstreamLinkDown cutUp cutDown) s =
    .next ((s.upstreamCut cutUp cutDown).holdAddress.chainRecord ((s.upstreamCut cutUp cutDown).holdAddress.o Od.chainAddress)) := by
  obtain ⟨hpower, hup⟩ := hlink
  exact congrArg Host.Outcome.next (guardS_of (by rw [hpower, hup]; rfl) s _)

theorem State.o_upstreamCut (s : State) (cutUp cutDown : Bool) {k : Nat} (hk : k ∉ lockObjects) :
    (s.upstreamCut cutUp cutDown).o k = (s.setO Od.linkState (setBitTo (s.o Od.linkState) 0 false)).o k :=
  (State.o_congr rfl k).trans ((State.o_breakPath _ 0 2 hk).trans (State.o_cutFrames _ _ _ k))

theorem State.lockState_upstreamCut (s : State) (cutUp cutDown : Bool) : (s.upstreamCut cutUp cutDown).o Od.lockState ≠ 1 := by
  exact State.lockState_breakPath _ 0 2

theorem upstreamLinkDown_runs {cutUp cutDown : Bool} (hlink : ReadyLink s 0) :
    Runs (.upstreamLinkDown cutUp cutDown) s fun u => u.linkUp 0 = false ∧ u.o Od.chainAddress = s.o Od.chainAddress ∧
      (s.o Od.chainAddress ≠ 0 → u.o Od.chainState = 2) ∧ u.o Od.lockState ≠ 1 := by
  have haddress : (s.upstreamCut cutUp cutDown).o Od.chainAddress = s.o Od.chainAddress := by
    rw [State.o_upstreamCut _ _ _ (by decide), State.o_setO_ne _ _ (by decide)]
  refine ⟨_, exec_upstreamLinkDown hlink, State.linkUp_of_setO (s := s) (t := s) false (by decide) ?_, ?_, fun hheld => ?_, ?_⟩
  · rw [State.o_chainRecord _ _ (by decide), State.o_holdAddress_of_ne _ (by decide), State.o_upstreamCut _ _ _ (by decide)]
  · rw [State.o_chainRecord _ _ (by decide), State.o_holdAddress_of_ne _ (by decide), haddress]
  · rw [State.o_chainRecord _ _ (by decide), State.chainState_holdAddress (by rwa [haddress])]
  · rw [State.o_chainRecord _ _ (by decide), State.o_holdAddress_of_ne _ (by decide)]
    exact State.lockState_upstreamCut _ _ _

theorem addressHoldExpiry_runs (hheld : s.o Od.chainState = 2) (hdown : s.linkUp 0 = false)
    (hdue : s.chain.hold + s.o Od.addressHoldBeats ≤ s.beat) :
    Runs .addressHoldExpiry s fun u => u.o Od.chainAddress = 0 ∧ u.o Od.chainState = 0 := by
  refine ⟨_, congrArg Host.Outcome.next (guardS_of (by rw [hheld, hdown, decide_eq_true hdue]; rfl) s _), ?_, ?_⟩
  · rw [State.o_setAddress _ _ (by decide), State.o_setO_ne _ _ (by decide), State.o_setO_same, Nat.zero_mod]
  · rw [State.o_setAddress _ _ (by decide), State.o_setO_same, if_pos rfl, Nat.zero_mod]

theorem downstreamLinkUp_runs (hpower : s.power.stbyOn = true) (hdown : s.linkUp 1 = false) :
    Runs .downstreamLinkUp s fun u => u.linkUp 1 = true :=
  ⟨_, congrArg Host.Outcome.next (guardS_of (by rw [hpower, hdown]; rfl) s _),
    State.linkUp_of_setO (s := s) (t := s) true (by decide) (State.o_chainRecord _ _ (by decide))⟩

theorem downstreamLinkDown_runs {cutUp cutDown : Bool} (hlink : ReadyLink s 1) :
    Runs (.downstreamLinkDown cutUp cutDown) s fun u => u.linkUp 1 = false ∧ u.linkUp 0 = s.linkUp 0 := by
  obtain ⟨hpower, hup⟩ := hlink
  refine ⟨_, congrArg Host.Outcome.next (guardS_of (by rw [hpower, hup]; rfl) s _), ?_, ?_⟩
  · exact State.linkUp_of_setO (s := s) (t := s) false (by decide) ((State.o_chainRecord _ _ (by decide)).trans (State.o_cutFrames _ _ _ _))
  · rw [State.linkUp, State.o_chainRecord _ _ (by decide), State.o_cutFrames, State.o_setO_same, odWidth_chainObjects.2.2.1,
      bitAt_setBitTo_other]
    rfl

end

/-- Settles O39. -/
theorem chainForwardsAndEnumerates : Obligations.ChainForwardsAndEnumerates :=
  ⟨fun _ _ _ _ _ hlink hgood henumerate hpath hforwards => exec_frameRepeat_forwards hlink hgood henumerate hpath hforwards,
    fun _ _ _ _ hlink hforwards => exec_frameRepeat_corrupt hlink hforwards,
    fun _ _ _ hlink hmeasured hroom => enumerate_takesAddress hlink hmeasured hroom,
    fun _ _ _ hlink hmeasured => enumerate_waits hlink hmeasured,
    fun _ _ hlink => exec_probe hlink,
    fun _ _ _ hlink hmeasured hwait hheld => echo_measures hlink hmeasured hwait hheld,
    fun _ _ hlink => exec_pathDown hlink,
    fun _ hpower hdown => upstreamLinkUp_runs hpower hdown,
    fun _ _ _ hlink => upstreamLinkDown_runs hlink,
    fun _ hheld hdown hdue => addressHoldExpiry_runs hheld hdown hdue,
    fun _ hpower hdown => downstreamLinkUp_runs hpower hdown,
    fun _ _ _ hlink => downstreamLinkDown_runs hlink⟩

end Sys2Proof.Machine
end

section
namespace Sys2Proof.Machine

/-! ## Rings and functions of the host port (R488 to R498) -/

theorem odWidth_hostObjects : odWidth Od.vfsEnabled = 16 ∧ odWidth Od.pcieLink = 32 := by decide +kernel

@[simp] theorem State.fn_setFn_same (s : State) (f : Nat) (x : Fn) : (s.setFn f x).fn f = x := tGet_tSet_same _ _ _ _

/-! ### Bytes put into a ring -/

theorem Fn.put_same (x : Fn) (o : Nat) (b : Byte) : tGet 0 (Fn.put (x, o) b).1.ring o = b ∧
    tGet false (Fn.put (x, o) b).1.written o = true := ⟨tGet_tSet_same _ _ _ _, tGet_tSet_same false x.written o true⟩

theorem Fn.put_ne (x : Fn) {o k : Nat} (b : Byte) (hk : k ≠ o) : tGet 0 (Fn.put (x, o) b).1.ring k = tGet 0 x.ring k ∧
    tGet false (Fn.put (x, o) b).1.written k = tGet false x.written k :=
  ⟨tGet_tSet_ne _ _ _ _ hk, tGet_tSet_ne false false x.written true hk⟩

/-- Bytes put from an offset on leave what lies below it. -/
theorem Fn.putAll_below (x : Fn) (o : Nat) (bs : List Byte) {k : Nat} (hk : k < o) :
    tGet 0 (applyAll Fn.put (x, o) bs).1.ring k = tGet 0 x.ring k ∧
      tGet false (applyAll Fn.put (x, o) bs).1.written k = tGet false x.written k := by
  induction bs generalizing x o with
  | nil => exact ⟨rfl, rfl⟩
  | cons b bs ih =>
    obtain ⟨hring, hwritten⟩ := ih (Fn.put (x, o) b).1 (o + 1) (by omega)
    obtain ⟨hring', hwritten'⟩ := Fn.put_ne x b (show k ≠ o by omega)
    exact ⟨hring.trans hring', hwritten.trans hwritten'⟩

/-- Byte i of those put lies i beyond the offset, and is marked written. -/
theorem Fn.putAll_within (x : Fn) (o : Nat) (bs : List Byte) {i : Nat} (hi : i < bs.length) :
    tGet 0 (applyAll Fn.put (x, o) bs).1.ring (o + i) = bs.getD i 0 ∧
      tGet false (applyAll Fn.put (x, o) bs).1.written (o + i) = true := by
  induction bs generalizing x o i with
  | nil => exact absurd hi (Nat.not_lt_zero _)
  | cons b bs ih =>
    cases i with
    | zero =>
      obtain ⟨hring, hwritten⟩ := Fn.putAll_below (Fn.put (x, o) b).1 (o + 1) bs (Nat.lt_succ_self o)
      obtain ⟨hring', hwritten'⟩ := Fn.put_same x o b
      exact ⟨hring.trans hring', hwritten.trans hwritten'⟩
    | succ i =>
      have hnext := ih (Fn.put (x, o) b).1 (o + 1) (i := i) (Nat.lt_of_succ_lt_succ hi)
      rwa [Nat.add_assoc, Nat.add_comm 1 i] at hnext

section
variable {s : State}

theorem submissionEntryWrite_writes {f : Fin 256} {off : Fin 16384} {bytes : List Byte} (hseen : s.fnSeen f.val = true) :
    Runs (.submissionEntryWrite f off bytes) s fun u => ∀ i : Nat, i < bytes.length → off.val + i < 16384 →
      tGet 0 (u.fn f.val).ring (off.val + i) = bytes.getD i 0 ∧ tGet false (u.fn f.val).written (off.val + i) = true := by
  refine ⟨_, congrArg Host.Outcome.next (guardS_of hseen s _), fun i hi hend => ?_⟩
  have hput := Fn.putAll_within (s.fn f.val) off.val (bytes.take (16384 - off.val)) (i := i) (by rw [List.length_take]; omega)
  have hbyte : (bytes.take (16384 - off.val)).getD i 0 = bytes.getD i 0 := by
    rw [List.getD_eq_getElem?_getD, List.getElem?_take, if_pos (by omega), List.getD_eq_getElem?_getD]
  rw [State.fn_setFn_same]
  exact ⟨hput.1.trans hbyte, hput.2⟩

theorem exec_subTailDoorbell_accepts {f : Fin 256} {tail : Fin 512} (h : ReadyTail s f.val tail.val) :
    exec (.subTailDoorbell f tail) s = .next (acceptEntries ((tail.val + 512 - (s.fn f.val).head) % 512)
      (s.setFn f.val { s.fn f.val with tail := tail.val }) f.val) := by
  obtain ⟨hseen, hroom, hstep, henable, hready, hdraining⟩ := h
  refine congrArg Host.Outcome.next ((guardS_of hseen s _).trans ?_)
  have hgoes : ((s.fn f.val).enable && (s.setFn f.val { s.fn f.val with tail := tail.val }).fnReady f.val) = true := by
    rw [State.fnReady, State.fn_setFn_same, henable, hready, State.o_congr (t := s) (by simp [State.setFn]) Od.bootStep, hstep]
    simp [hdraining]
  simp only [if_neg (show ¬ 256 < (tail.val + 512 - (s.fn f.val).head) % 512 by omega)]
  rw [if_neg (fun h => h hstep), if_pos hgoes]

theorem exec_subTailDoorbell_ignored {f : Fin 256} {tail : Fin 512} (hseen : s.fnSeen f.val = true)
    (hfar : 256 < (tail.val + 512 - (s.fn f.val).head) % 512) :
    exec (.subTailDoorbell f tail) s = .next (s.addO Od.descriptorsIncomplete 1) :=
  congrArg Host.Outcome.next ((guardS_of hseen s _).trans (if_pos hfar))

theorem exec_bodyDmaComplete {r hint : Nat} {bytes : List Byte} (hlive : s.hasReq r = true) (hreading : (s.req r).state = 3) :
    exec (.bodyDmaComplete r true bytes hint) s = .next ((s.bodyRead r bytes).meetGate r hint) ∧
      exec (.bodyDmaComplete r false bytes hint) s = .next ((s.addO Od.dmaErrors 1).refuse r 5 0x07 0) := by
  have hguard : (s.hasReq r && (s.req r).state == 3) = true := by rw [hlive, hreading]; rfl
  exact ⟨congrArg Host.Outcome.next (guardS_of hguard s _), congrArg Host.Outcome.next (guardS_of hguard s _)⟩

theorem exec_fnControlWrite_enables {f : Fin 256} {v : BitVec 32} {cb ob : BitVec 64} (h : ReadyEnable s f.val v.toNat cb.toNat ob.toNat) :
    exec (.fnControlWrite f v cb ob) s = .next (s.setFn f.val { s.fn f.val with
      cplBase := cb.toNat, outBase := ob.toNat, cplLog := bits v.toNat 20 16, outLog := bits v.toNat 12 8
      coalesce := bits v.toNat 7 0, enable := true, head := 0, cplTail := 0, cfgErr := false }).pumpOutput := by
  obtain ⟨hseen, hoff, henable, hcplLow, hcplHigh, houtLow, houtHigh, hcplBase, houtBase⟩ := h
  refine congrArg Host.Outcome.next ((guardS_of hseen s _).trans ?_)
  simp only [hoff, henable, hcplLow, hcplHigh, houtLow, houtHigh, hcplBase, houtBase, Bool.false_eq_true, if_false, if_true, and_self,
    decide_true, beq_self_eq_true, Bool.and_self, Bool.not_true]

/-- What a write of FN_CONTROL with ENABLE 0 leaves of a function. -/
def Fn.disabled (x : Fn) (w cplBase outBase : Nat) : Fn :=
  let x := if x.enable then x else { x with cplBase := cplBase, outBase := outBase, cplLog := bits w 20 16, outLog := bits w 12 8 }
  { x with coalesce := bits w 7 0, enable := false, cfgErr := false, waitQ := [], stalled := false }

theorem exec_fnControlWrite_disables {f : Fin 256} {v : BitVec 32} {cb ob : BitVec 64} (hseen : s.fnSeen f.val = true)
    (hdisable : bitAt v.toNat 31 = false) : exec (.fnControlWrite f v cb ob) s =
      .next (s.setFn f.val ((s.fn f.val).disabled v.toNat cb.toNat ob.toNat)) :=
  congrArg Host.Outcome.next ((guardS_of hseen s _).trans (if_neg (by rw [hdisable]; decide)))

theorem fnControlWrite_disables {f : Fin 256} {v : BitVec 32} {cb ob : BitVec 64} (hseen : s.fnSeen f.val = true)
    (hdisable : bitAt v.toNat 31 = false) :
    Runs (.fnControlWrite f v cb ob) s fun u => (u.fn f.val).enable = false ∧ (u.fn f.val).waitQ = [] ∧
      (u.fn f.val).cfgErr = false ∧ u.od = s.od := by
  refine ⟨_, exec_fnControlWrite_disables hseen hdisable, ?_⟩
  beta_reduce
  rw [State.fn_setFn_same]
  exact ⟨rfl, rfl, rfl, rfl⟩

theorem exec_cplHeadWrite {f : Fin 256} {v : Fin 131072} {cycles : Nat} (hseen : s.fnSeen f.val = true)
    (hfew : (s.fn f.val).waitQ.length < 64) :
    exec (.cplHeadWrite f v cycles) s =
      .next (drainWait ((s.fn f.val).waitQ.length + 1) (s.setFn f.val { s.fn f.val with cplHead := v.val }) f.val) := by
  refine congrArg Host.Outcome.next ((guardS_of hseen s _).trans ?_)
  have hnofull : ¬ ((s.fn f.val).stalled && decide (64 ≤ (s.fn f.val).waitQ.length)) = true := by
    rw [decide_eq_false (by omega), Bool.and_false]
    decide
  simp only [if_neg hnofull]

theorem vfEnableChange_runs {en : Bool} {n : Fin 256} (hport : s.pdOn 90 = true) :
    Runs (.vfEnableChange en n) s fun u => u.o Od.vfsEnabled = (if en then n.val else 0) ∧ u.pcie.vfEnable = en ∧
      u.pcie.numVfs = n.val := by
  refine ⟨_, congrArg Host.Outcome.next (guardS_of hport s _), ?_, rfl, rfl⟩
  exact State.o_setO_of_lt _ odWidth_hostObjects.1 (by split <;> omega)

end

/-- Settles O35. -/
theorem ringsAndFunctions : Obligations.RingsAndFunctions :=
  ⟨fun _ _ _ _ hseen => submissionEntryWrite_writes hseen,
    fun _ _ _ h => exec_subTailDoorbell_accepts h,
    fun _ _ _ hseen hfar => exec_subTailDoorbell_ignored hseen hfar,
    fun _ _ _ _ hlive hreading => (exec_bodyDmaComplete hlive hreading).1,
    fun _ _ _ _ hlive hreading => (exec_bodyDmaComplete hlive hreading).2,
    fun _ _ _ _ _ h => exec_fnControlWrite_enables h,
    fun _ _ _ _ _ hseen hdisable => fnControlWrite_disables hseen hdisable,
    fun _ _ _ _ hseen hfew => exec_cplHeadWrite hseen hfew,
    fun _ _ _ hport => vfEnableChange_runs hport⟩

/-! ### Resets of the host path -/

section
variable {s : State}

@[simp] theorem State.pcie_breakPath (p cause : Nat) : (s.breakPath p cause).pcie = s.pcie := by
  rw [State.breakPath]
  split
  · simp only [State.breakLock, State.freeLock]
    split
    · rfl
    · simp
  · rfl

theorem State.pcie_setPath (p : Nat) (x : Path) : (s.setPath p x).pcie = s.pcie := by
  simp only [State.setPath, apply_ite State.pcie, ite_self]

theorem State.pcie_dropSeg (p : Nat) : (s.dropSeg p).pcie = s.pcie := by
  simp only [State.dropSeg]
  split
  · exact s.pcie_setPath _ _
  · simp only [apply_ite State.pcie, State.setUpdate_frame, State.pcie_setPath, ite_self]

@[simp] theorem State.pcie_endSession (p cause : Nat) : (s.endSession p cause).pcie = s.pcie := by
  rw [State.endSession, State.pcie_setPath, State.pcie_dropSeg, State.pcie_breakPath]

theorem pcieLinkDown_clears (hup : s.o Od.pcieLink ≠ 0) :
    Runs .pcieLinkDown s fun u => u.o Od.pcieLink = 0 ∧ u.dict.mbStatus = 0 ∧ u.dict.mbReq = [] ∧ u.pcie.vfEnable = false := by
  refine ⟨_, congrArg Host.Outcome.next (guardS_of (bne_iff_ne.2 hup) s _), ?_, ?_, ?_, ?_⟩
  · rw [State.o_setO_same, Nat.zero_mod]
  · simp [State.hostReset, State.resetMailbox]
  · simp [State.hostReset, State.resetMailbox]
  · simp [State.hostReset, State.resetMailbox, State.hostRecord, State.clearVfs]

theorem exec_flr {f : Fin 256} (hseen : s.fnSeen f.val = true) : exec (.flr f) s = .next (if f.val = 0 then
    ((((s.resetOne f.val).clearVfs).endSession 1 4).resetMailbox) else s.resetOne f.val) :=
  congrArg Host.Outcome.next (guardS_of hseen s _)

theorem functionReady_virtual {f rate lanes : Fin 256} (hport : s.pdOn 90 = true) (hbusy : (s.fn f.val).ready = false)
    (hvirtual : f.val ≠ 0) :
    Runs (.functionReady f rate lanes) s fun u => (u.fn f.val).ready = true ∧ (u.fn f.val).msix1 = (s.fn f.val).msix1 + 1 ∧
      u.od = s.od := by
  refine ⟨_, congrArg Host.Outcome.next ((guardS_of (by rw [hport, hbusy]; rfl) s _).trans (if_neg hvirtual)), ?_⟩
  beta_reduce
  rw [State.fn_setFn_same]
  exact ⟨rfl, rfl, rfl⟩

theorem functionReady_physical {rate lanes : Fin 256} (hport : s.pdOn 90 = true) (hdown : s.o Od.pcieLink = 0) :
    Runs (.functionReady 0 rate lanes) s fun u => u.o Od.pcieLink = 65536 + 256 * rate.val + lanes.val ∧ (u.fn 0).ready = true := by
  refine ⟨_, congrArg Host.Outcome.next ((guardS_of ?_ s _).trans (if_pos rfl)),
    State.o_setO_of_lt _ odWidth_hostObjects.2 (by omega), ?_⟩
  · rw [hport, hdown]
    simp
  · exact congrArg Fn.ready (State.fn_setFn_same s 0 _)

theorem mbGo_hands {bytes : List Byte} (hport : s.pdOn 90 = true) (hfree : bitAt s.dict.mbStatus 31 = false) :
    Runs (.mbGo bytes) s fun u => u.dict.mbReq = bytes ∧ bitAt u.dict.mbStatus 31 = true ∧ u.od = s.od :=
  ⟨_, congrArg Host.Outcome.next (guardS_of (by rw [hport, hfree]; rfl) s _), rfl,
    (by decide : bitAt (2 ^ 31) 31 = true), rfl⟩

end

/-- Settles O36. -/
theorem hostPathResets : Obligations.HostPathResets :=
  ⟨fun s hport => congrArg Host.Outcome.next (guardS_of hport s _),
    fun _ hup => pcieLinkDown_clears hup,
    fun _ _ hseen hvirtual => (exec_flr hseen).trans (congrArg Host.Outcome.next (if_neg hvirtual)),
    fun _ hseen => exec_flr (f := 0) hseen,
    fun _ _ _ _ hport hbusy hvirtual => functionReady_virtual hport hbusy hvirtual,
    fun _ _ _ hport hdown => functionReady_physical hport hdown,
    fun _ _ hport hfree => mbGo_hands hport hfree⟩

end Sys2Proof.Machine
end

section
namespace Sys2Proof.Machine

/-! ## Pool reads and the pool link (R441, R499 to R503) -/

theorem odWidth_poolLink : odWidth Od.poolLink = 32 := by decide +kernel

section
variable {s : State}

theorem exec_poolReadReply_wanted {tag : Fin 4096} {data : List Byte} {g : PoolTag} (h : ReadyTag s tag.val g)
    (hwanted : (s.freeTag tag.val).wants g.req g.table g.off = true) :
    exec (.poolReadReply tag data) s =
      .next ((((s.freeTag tag.val).setReq g.req { (s.freeTag tag.val).req g.req with
        pool := tIns (lineKey g.table g.off) (sliceB data 0 64) ((s.freeTag tag.val).req g.req).pool }).pumpGather g.req).pumpGathers) := by
  obtain ⟨hlisted, rfl, hopen⟩ := h
  refine congrArg Host.Outcome.next ((if_neg (by rw [hlisted]; decide)).trans ((if_neg (ne_true_of_eq_false hopen)).trans ?_))
  exact if_pos hwanted

theorem exec_poolReadReply_stale {tag : Fin 4096} {data : List Byte} (hlisted : tHas s.pool.tags tag.val = true)
    (hquar : (tGet {} s.pool.tags tag.val : PoolTag).quar = true) :
    exec (.poolReadReply tag data) s = .next (s.addO Od.poolStale 1) :=
  congrArg Host.Outcome.next ((if_neg (by rw [hlisted]; decide)).trans (if_pos hquar))

theorem exec_poolReadTimeout {tag : Fin 4096} {poison : Bool} {g : PoolTag} (h : ReadyTag s tag.val g) :
    exec (.poolReadTimeout tag poison) s =
      .next (((s.addO (if poison then Od.poolPoison else Od.poolTimeouts) 1).readFails tag.val).pumpGathers) := by
  obtain ⟨hlisted, rfl, hopen⟩ := h
  exact congrArg Host.Outcome.next (if_neg (by rw [hlisted, hopen]; decide))

theorem exec_poolTagQuarantineEnd {tag : Fin 4096} (hlisted : tHas s.pool.tags tag.val = true)
    (hquar : (tGet {} s.pool.tags tag.val : PoolTag).quar = true) :
    exec (.poolTagQuarantineEnd tag) s = .next (s.freeTag tag.val).pumpGathers :=
  congrArg Host.Outcome.next (if_pos (by rw [hlisted, hquar]; rfl))

theorem exec_poolLinkDown : exec .poolLinkDown s =
    .next (applyAll State.readFails ((s.setPool { s.pool with up := false }).setO Od.poolLink 0)
      (tKeys s.pool.tags fun _ g => !g.quar)).pumpGathers := rfl

/-- The fields of POOL_LINK of a link that is up. -/
theorem packFields_linkUp (rate lanes : Nat) :
    packFields [(15, 0), (1, 1), (8, rate), (8, lanes)] = 65536 + 256 * (rate % 256) + lanes % 256 := by
  simp only [packFields, List.foldl]
  omega

theorem poolLinkUp_shows {rate lanes : Nat} (hport : s.pdOn 96 = true) :
    Runs (.poolLinkUp rate lanes) s fun u => u.pool.up = true ∧ u.o Od.poolLink = 65536 + 256 * (rate % 256) + lanes % 256 := by
  refine ⟨_, congrArg Host.Outcome.next (guardS_of hport s _), rfl, ?_⟩
  rw [packFields_linkUp]
  exact State.o_setO_of_lt _ odWidth_poolLink (by omega)

end

/-- Settles O31. -/
theorem poolReadsEnd : Obligations.PoolReadsEnd :=
  ⟨fun _ _ _ _ h hwanted => exec_poolReadReply_wanted h hwanted,
    fun _ _ _ hlisted hquar => exec_poolReadReply_stale hlisted hquar,
    fun _ _ _ _ h => exec_poolReadTimeout h,
    fun _ _ hlisted hquar => exec_poolTagQuarantineEnd hlisted hquar,
    fun _ => exec_poolLinkDown,
    fun _ _ _ hport => poolLinkUp_shows hport⟩

/-! ## Tables and the row cache (R427 to R431, R443) -/

theorem odWidth_odDefault_table : ∀ t < 64, odWidth (Od.tableState t) = 8 ∧ odWidth (Od.tableRows t) = 64 ∧
    odDefault (Od.tableState t) = 0 ∧ odDefault (Od.chunksCached t) = 0 := by decide +kernel

section
variable {s : State}

@[simp] theorem State.tslot_setTslot_same (s : State) (t : Nat) (x : TableSlot) : (s.setTslot t x).tslot t = x := tGet_tSet_same _ _ _ _

theorem State.tslot_congr {u v : State} (h : u.tables = v.tables) (t : Nat) : u.tslot t = v.tslot t := by rw [State.tslot, State.tslot, h]

theorem State.tables_setAll (s : State) (es : List (Nat × Nat)) :
    (applyAll (fun s (e : Nat × Nat) => s.setO e.1 e.2) s es).tables = s.tables :=
  applyAll_frame State.tables (fun s e => by simp) s es

theorem State.tables_resetAll (s : State) (ks : List Nat) : (applyAll State.resetO s ks).tables = s.tables :=
  applyAll_frame State.tables (fun s e => by simp) s ks

/-- Objects written one after another leave every other object. -/
theorem State.o_setAll_of_ne (s : State) {es : List (Nat × Nat)} {k : Nat} (hes : ∀ e ∈ es, k ≠ e.1) :
    (applyAll (fun s (e : Nat × Nat) => s.setO e.1 e.2) s es).o k = s.o k := by
  induction es generalizing s with
  | nil => rfl
  | cons e es ih =>
    obtain ⟨hhead, htail⟩ := List.forall_mem_cons.1 hes
    exact (ih (s.setO e.1 e.2) htail).trans (s.o_setO_ne e.2 hhead)

theorem State.table_setTable_same (s : State) (t : Nat) (x : Table) : (s.setTable t x).table t = x := by
  rw [State.table, State.setTable, State.tslot_setTslot_same]
  rfl

theorem State.table_congr {u v : State} (h : u.tables = v.tables) (t : Nat) : u.table t = v.table t := by
  rw [State.table, State.table, State.tslot_congr h]

theorem State.table_addO (s : State) (k n t : Nat) : (s.addO k n).table t = s.table t := State.table_congr (by simp) t

theorem exec_tableLoad_passes {t : Fin 64} {hdr l1 dflt : List Byte} {counts : List Nat} {u : State} {p : Nat}
    (h : ReadyTable s t.val hdr l1 u p) :
    exec (.tableLoad t hdr l1 dflt counts true) s = .next (u.tablePassed t.val p (s.o (Od.poolBase t.val)) hdr l1 dflt counts) := by
  obtain ⟨hstate, hnext, hup, hdecoded, hdecodes, hpage, hhdr, hgroups⟩ := h
  refine congrArg Host.Outcome.next ((if_neg (ne_true_of_eq_false (loadGuard hstate hnext))).trans
    ((if_neg (by rw [hup, hdecoded]; decide)).trans ((if_neg (by rw [hdecodes]; decide)).trans ?_)))
  simp only [hpage, hhdr, hgroups, Bool.not_true, Bool.false_eq_true, if_false]

theorem State.next_tablePassed (u : State) (t p base : Nat) (hdr l1 dflt : List Byte) (counts : List Nat) :
    ((u.tablePassed t p base hdr l1 dflt counts).tslot t).next = some (tableImage base p hdr l1 dflt counts) := by
  simp only [State.tablePassed, State.tslot_setTslot_same]

theorem exec_tableLoad_noPool {t : Fin 64} {hdr l1 dflt : List Byte} {counts : List Nat} {ok : Bool}
    (hstate : s.o (Od.tableState t.val) = 1 ∨ s.o (Od.tableState t.val) = 3) (hnext : (s.tslot t.val).next = none)
    (hdown : s.pool.up = false) : exec (.tableLoad t hdr l1 dflt counts ok) s = .next (s.tableFails t.val 1) :=
  congrArg Host.Outcome.next ((if_neg (ne_true_of_eq_false (loadGuard hstate hnext))).trans (if_pos (by rw [hdown]; rfl)))

theorem tableLoadDone_takesOver {t : Fin 64} {w : Table} (hnext : (s.tslot t.val).next = some w)
    (hdue : s.o (Od.tableState t.val) = 1 ∨ s.o (Od.tableState t.val) = 3 ∧ s.o (Od.tableRefs t.val) = 0) :
    Runs (.tableLoadDone t) s fun u => u.o (Od.tableState t.val) = 2 ∧ (u.tslot t.val).cur = some w ∧
      (u.tslot t.val).next = none ∧ u.o (Od.tableRows t.val) = w.rows % 2 ^ 64 := by
  obtain ⟨hwidth, hrows, -, -⟩ := odWidth_odDefault_table t.val t.isLt
  change ∃ u, execTableLoadDone t s = .next u ∧ _
  simp only [execTableLoadDone, hnext, takeOverGuard hdue, Bool.false_eq_true, if_false]
  refine ⟨_, rfl, State.o_setAll_head _ hwidth (by decide) (by simp), ?_, ?_, ?_⟩
  · rw [State.tslot_congr (State.tables_setAll _ _), State.tslot_setTslot_same]
  · rw [State.tslot_congr (State.tables_setAll _ _), State.tslot_setTslot_same]
  · change (applyAll (fun s (e : Nat × Nat) => s.setO e.1 e.2) (State.setO _ (Od.tableRows t.val) w.rows) _).o (Od.tableRows t.val) = _
    rw [State.o_setAll_of_ne _ (by simp), State.o_setO_same, hrows]

theorem exec_tableClose {t : Fin 64} (hstate : s.o (Od.tableState t.val) = 2) (hcommand : s.o (Od.tableCommand t.val) = 2) :
    exec (.tableClose t) s = .next (s.setO (Od.tableState t.val) 4) :=
  congrArg Host.Outcome.next (guardS_of (by rw [hstate, hcommand]; rfl) _ _)

theorem tableCloseDone_empties {t : Fin 64} (hstate : s.o (Od.tableState t.val) = 4) (hrefs : s.o (Od.tableRefs t.val) = 0) :
    Runs (.tableCloseDone t) s fun u => u.o (Od.tableState t.val) = 0 ∧ u.tslot t.val = {} ∧ u.o (Od.chunksCached t.val) = 0 := by
  obtain ⟨-, -, hdefault, hchunks⟩ := odWidth_odDefault_table t.val t.isLt
  refine ⟨_, congrArg Host.Outcome.next (guardS_of (by rw [hstate, hrefs]; rfl) _ _), ?_, ?_, ?_⟩
  · rw [State.o_resetAll, if_pos List.mem_cons_self, hdefault]
  · rw [State.tslot_congr (State.tables_resetAll _ _), State.tslot_setTslot_same]
  · rw [State.o_resetAll, if_pos (by simp), hchunks]

theorem chunkFillDone_serves {t : Fin 64} {c : Nat} {bytes : List Byte} (hfilling : tHas (s.table t.val).filling c = true)
    (hup : s.pool.up = true) :
    Runs (.chunkFillDone t c bytes) s fun u => tGet 0 (u.table t.val).chunks c = tGet 0 (s.table t.val).filling c ∧
      tHas (u.table t.val).filling c = false := by
  refine ⟨_, congrArg Host.Outcome.next (if_neg (by rw [hfilling, hup]; decide)), ?_⟩
  beta_reduce
  rw [State.table_addO, State.table_addO, State.table_setTable_same]
  exact ⟨tGet_tIns_same _ _ _ _, by rw [tHas_tDel, decide_eq_false (not_not_intro rfl), Bool.false_and]⟩

end

/-- Settles O30. -/
theorem tablesAndRowCache : Obligations.TablesAndRowCache :=
  ⟨fun _ _ _ _ _ _ _ _ h => ⟨_, exec_tableLoad_passes h, State.next_tablePassed _ _ _ _ _ _ _ _⟩,
    fun _ _ _ _ _ _ _ hstate hnext hdown => exec_tableLoad_noPool hstate hnext hdown,
    fun _ _ _ hnext hdue => tableLoadDone_takesOver hnext hdue,
    fun _ _ hstate hcommand => exec_tableClose hstate hcommand,
    fun _ _ hstate hrefs => tableCloseDone_empties hstate hrefs,
    fun _ _ _ _ hfilling hup => chunkFillDone_serves hfilling hup,
    fun s hdue => congrArg Host.Outcome.next (guardS_of (beq_iff_eq.2 hdue) s _)⟩

end Sys2Proof.Machine
end

section
namespace Sys2Proof.Machine

/-! ## Datagrams and assemblies (R457 to R465, R484) -/

theorem odWidth_tenantObjects : ∀ t < 256, odWidth (Od.tenantState t) = 8 ∧ odWidth (Od.disableCause t) = 8 := by decide +kernel

section
variable {s : State}

theorem exec_datagramArrival_reaches {port : Fin 2} {net : Net} {bytes : List Byte} (h : ReadyArrival s port.val net) (hkind : net.kind < 4) :
    exec (.datagramArrival port net bytes) s = .next (if net.kind != 0 then
        { s with tx := { path := { port := port.val, addr := net.src, v6 := net.v6 }, typ := 0x100 + net.kind } :: s.tx }
      else if net.dport != s.o Od.reqUdpPort || s.o Od.bootStep != 11 then s.addO Od.ingressDrops 1
      else if !readable bytes then s.addO Od.unreadableDrops 1
      else if 4096 ≤ (tGet [] s.rx port.val).length then s.addO Od.ingressDrops 1
      else { s with rx := tSet [] s.rx port.val (tGet [] s.rx port.val ++ [{ net := net, bytes := bytes }]) }) := by
  obtain ⟨hpower, hup, hforPort⟩ := h
  refine congrArg Host.Outcome.next ((if_neg (by rw [hpower, hup]; decide)).trans (if_neg ?_))
  rw [hforPort, decide_eq_false (by omega)]
  decide

theorem datagramArrival_queues {port : Fin 2} {net : Net} {bytes : List Byte} (h : ReadyArrival s port.val net) (hkind : net.kind = 0)
    (hdport : net.dport = s.o Od.reqUdpPort) (hstep : s.o Od.bootStep = 11) (hreadable : readable bytes = true)
    (hroom : (tGet [] s.rx port.val).length < 4096) :
    Runs (.datagramArrival port net bytes) s fun u =>
      tGet [] u.rx port.val = tGet [] s.rx port.val ++ [{ net := net, bytes := bytes }] ∧ u.tx = s.tx ∧ u.od = s.od := by
  refine ⟨_, (exec_datagramArrival_reaches h (by omega)).trans (congrArg Host.Outcome.next ((if_neg (by rw [hkind]; decide)).trans
    ((if_neg ?_).trans ((if_neg (by rw [hreadable]; decide)).trans (if_neg (by omega)))))), tGet_tSet_same _ _ _ _, rfl, rfl⟩
  rw [hdport, hstep]
  simp

theorem datagramArrival_answers {port : Fin 2} {net : Net} {bytes : List Byte} (h : ReadyArrival s port.val net) (hlow : 1 ≤ net.kind)
    (hhigh : net.kind ≤ 3) :
    Runs (.datagramArrival port net bytes) s fun u => u.tx =
      { path := { port := port.val, addr := net.src, v6 := net.v6 }, typ := 0x100 + net.kind } :: s.tx ∧ u.rx = s.rx :=
  ⟨_, (exec_datagramArrival_reaches h (by omega)).trans (congrArg Host.Outcome.next (if_pos (bne_iff_ne.2 (by omega)))), rfl, rfl⟩

theorem exec_datagramAuthFail {port : Fin 2} {d : Datagram} (hhead : s.rxHead port.val = some d) (hauth : s.authentic d.bytes = false) :
    exec (.datagramAuthFail port) s = .next ((s.rxPop port.val).addO (Od.authFails (mTenant (mHead d.bytes))) 1) := by
  change execDatagramAuthFail port s = _
  simp only [execDatagramAuthFail, hhead, hauth, Bool.false_eq_true, if_false]

theorem exec_requestFragment {port : Fin 2} {hint : Nat} {d : Datagram} (h : ReadyMsg s port.val 1 d) :
    exec (.requestFragment port hint) s = .next ((s.rxPop port.val).takeFragment port.val hint d (mHead d.bytes)) :=
  congrArg Host.Outcome.next (State.takeMsg_of_ready h _)

/-- A fragment of an identifier no assembly has begins one. -/
theorem State.takeFragment_begins {port hint w : Nat} {d : Datagram} {u : State} {bs : List Nat}
    (hnew : (s.idWin (mTenant w)).look (mId w) = 0)
    (hnone : (s.assemblies.find? fun a => a.tenant == mTenant w && a.id == mId w) = none)
    (htake : s.takeAssembly (mTenant w) (mCount w * 2 ^ mShift w) = .inr (u, bs)) :
    s.takeFragment port hint d w = u.joinAssembly
      { tenant := mTenant w, id := mId w, shift := mShift w, count := mCount w
        bufs := bs, start := u.beat, net := d.net, port := port, key := mKey w } port hint d := by
  simp only [State.takeFragment, hnew, hnone, htake]

/-- A fragment of an assembly's shape that it does not have yet joins it. -/
theorem State.takeFragment_joins {port hint w : Nat} {d : Datagram} {a : Assembly} (hnew : (s.idWin (mTenant w)).look (mId w) = 0)
    (hsome : (s.assemblies.find? fun a => a.tenant == mTenant w && a.id == mId w) = some a)
    (hshift : a.shift = mShift w) (hcount : a.count = mCount w) (hfrag : tHas a.frags (mFrag w) = false) :
    s.takeFragment port hint d w = s.joinAssembly a port hint d := by
  simp only [State.takeFragment, hnew, hsome, hshift, hcount, hfrag, bne_self_eq_false, Bool.or_self, Bool.false_eq_true, if_false]

theorem State.joinAssembly_waits {a : Assembly} {port hint : Nat} {d : Datagram}
    (hwaits : (tIns (mFrag (mHead d.bytes)) (mPayload d.bytes) a.frags).length < a.count) :
    s.joinAssembly a port hint d = { s with assemblies :=
      (s.assemblies.filter fun b => !(b.tenant == a.tenant && b.id == a.id)) ++
        [{ a with frags := tIns (mFrag (mHead d.bytes)) (mPayload d.bytes) a.frags }] } := if_pos hwaits

theorem exec_reassemblyTimeout {t : Fin 256} {id : Nat} {a : Assembly}
    (hsome : (s.assemblies.find? fun a => a.tenant == t.val && a.id == id) = some a) (hold : a.start + s.o Od.reassemblyBeats ≤ s.beat) :
    exec (.reassemblyTimeout t id) s = .next ((s.dropAssembly a).notice
      { port := a.port, addr := a.net.src, udp := a.net.sport, v6 := a.net.v6, key := a.key } t.val id 1 0 0 0 0 0 0) := by
  change execReassemblyTimeout t id s = _
  simp only [execReassemblyTimeout, hsome, if_neg (Nat.not_lt.2 hold)]

theorem tenantDisable_disables {t : Fin 256} (htenant : t.val ≠ 0) (hlimit : s.o Od.foreignFreeLimit ≠ 0)
    (hreached : s.o Od.foreignFreeLimit ≤ s.o (Od.foreignFrees t.val)) (henabled : s.o (Od.tenantState t.val) = 1) :
    Runs (.tenantDisable t) s fun u => u.o (Od.tenantState t.val) = 0 ∧ u.o (Od.disableCause t.val) = 1 ∧
      ∀ p ∈ u.preCancels, p.tenant ≠ t.val := by
  obtain ⟨hstate, hcause⟩ := odWidth_tenantObjects t.val t.isLt
  refine ⟨_, congrArg Host.Outcome.next (guardS_of ?_ s _), ?_, ?_, fun p hp => ?_⟩
  · rw [bne_iff_ne.2 htenant, bne_iff_ne.2 hlimit, decide_eq_true hreached, henabled]
    rfl
  · exact (State.o_congr rfl _).trans ((State.o_setO_ne _ _ (by simp)).trans (State.o_setO_of_lt _ hstate (by decide)))
  · exact (State.o_congr rfl _).trans (State.o_setO_of_lt _ hcause (by decide))
  · exact bne_iff_ne.1 (List.mem_filter.1 hp).2

end

/-- Settles O33. -/
theorem datagramsBecomeRequests : Obligations.DatagramsBecomeRequests :=
  ⟨fun _ _ _ _ h hkind hdport hstep hreadable hroom => datagramArrival_queues h hkind hdport hstep hreadable hroom,
    fun _ _ _ _ h hlow hhigh => datagramArrival_answers h hlow hhigh,
    fun _ _ _ hhead hauth => exec_datagramAuthFail hhead hauth,
    fun _ _ _ _ _ _ h hnew hnone htake => (exec_requestFragment h).trans
      (congrArg Host.Outcome.next (State.takeFragment_begins hnew hnone htake)),
    fun _ _ _ _ _ h hnew hsome hshift hcount hfrag => (exec_requestFragment h).trans
      (congrArg Host.Outcome.next (State.takeFragment_joins hnew hsome hshift hcount hfrag)),
    fun _ _ _ _ _ hwaits => State.joinAssembly_waits hwaits,
    fun _ _ _ _ hsome hold => exec_reassemblyTimeout hsome hold,
    fun _ _ htenant hlimit hreached henabled => tenantDisable_disables htenant hlimit hreached henabled⟩

end Sys2Proof.Machine
end

section
namespace Sys2Proof.Machine

/-! ## Format, mount and unmount of the index (R362, R363, R394, R414, R608) -/

theorem odWidth_indexObjects : odWidth Od.indexState = 8 ∧ odWidth Od.nextEntryNumber = 64 ∧ odWidth Od.listsCached = 32 := by
  decide +kernel

/-- A loop leaves what its steps over the list's elements leave. -/
theorem applyAll_frame_mem {σ β τ : Type} (g : σ → τ) {f : σ → β → σ} {xs : List β}
    (hf : ∀ s, ∀ x ∈ xs, g (f s x) = g s) (s : σ) : g (applyAll f s xs) = g s := by
  induction xs generalizing s with
  | nil => rfl
  | cons x xs ih =>
    obtain ⟨hhead, htail⟩ := List.forall_mem_cons.1 fun x hx s => hf s x hx
    exact (ih (fun s y hy => htail y hy s) (f s x)).trans (hhead s)

/-- The objects a recount writes. -/
def recountObjects : List Nat := [Od.indexMainEntries, Od.indexSideEntries, Od.tombstones, Od.fill]

section
variable {s : State}

/-- What writing objects leaves, a recount leaves. -/
theorem State.frame_recount {τ : Type} {g : State → τ} (hset : ∀ (t : State) (k v : Nat), g (t.setO k v) = g t) (s : State) :
    g s.recount = g s := by
  simp only [State.recount, State.putFill, hset]

theorem State.o_recount (s : State) {k : Nat} (hk : k ∉ recountObjects) : s.recount.o k = s.o k := by
  simp only [recountObjects, List.mem_cons, List.not_mem_nil, or_false, not_or] at hk
  obtain ⟨hmain, hside, htombs, hfill⟩ := hk
  simp only [State.recount, State.putFill]
  rw [State.o_setO_ne _ _ hfill, State.o_setO_ne _ _ htombs, State.o_setO_ne _ _ hside, State.o_setO_ne _ _ hmain]

/-- The index an INDEX_FORMAT leaves. -/
def State.formatted (s : State) : Index :=
  { remap := s.index.remap, spares := s.index.spares, deadDies := s.index.deadDies, rebuilt := s.index.rebuilt, deadCh := s.index.deadCh
    narrow := !s.index.deadCh.isEmpty, fmtWidth := s.o Od.codeWidth, fmtLists := s.o Od.lists, fmtStore := s.o Od.modelStoreBlocks
    fmtIndex := s.o Od.indexBlocks, fmtSpare := s.o Od.spareBlocks
    fmtText := 5461 - s.o Od.modelStoreBlocks - s.o Od.indexBlocks - s.o Od.spareBlocks
    dicts := s.index.dicts, dictPend := s.index.dictPend }

/-- The objects an INDEX_FORMAT writes, with their values. -/
def Index.formatObjects (y : Index) : List (Nat × Nat) :=
  [(Od.textBlocks, y.fmtText), (Od.entriesPerPage, pageEntries y.fmtWidth), (Od.ratedEntries, y.rated), (Od.nextEntryNumber, 0),
    (Od.rebuildState, 0), (Od.rebuildDone, 0), (Od.rebuildTotal, 0), (Od.sweepListsLeft, 0), (Od.listsCached, 0), (Od.indexState, 6)]

theorem exec_indexFormat (hstate : s.o Od.indexState = 1) : exec .indexFormat s =
    .next (applyAll (fun s t => s.setO (Od.sideUsed t) 0) (applyAll (fun s (e : Nat × Nat) => s.setO e.1 e.2) (s.setIndex s.formatted)
      s.formatted.formatObjects) (List.range 256)).recount :=
  congrArg Host.Outcome.next (guardS_of (beq_iff_eq.2 hstate) s _)

theorem State.o_sideUsed_cleared (s : State) {k : Nat} (hk : 0x310000 ≤ k) :
    (applyAll (fun s t => s.setO (Od.sideUsed t) 0) s (List.range 256)).o k = s.o k :=
  applyAll_frame_mem (fun t : State => t.o k) (fun t x hx => t.o_setO_ne 0 (by
    have hlt := List.mem_range.1 hx
    unfold Od.sideUsed
    omega)) s

theorem indexFormat_empties (hstate : s.o Od.indexState = 1) :
    Runs .indexFormat s fun u => u.o Od.indexState = 6 ∧ u.o Od.nextEntryNumber = 0 ∧ u.index.lists = [] ∧ u.index.text = [] ∧
      u.index.fmtLists = s.o Od.lists ∧ u.index.fmtWidth = s.o Od.codeWidth := by
  refine ⟨_, exec_indexFormat hstate, ?_, ?_, ?_⟩
  · rw [State.o_recount _ (by decide), State.o_sideUsed_cleared _ (by decide)]
    exact State.o_setO_of_lt _ odWidth_indexObjects.1 (by decide)
  · rw [State.o_recount _ (by decide), State.o_sideUsed_cleared _ (by decide)]
    change (applyAll _ (State.setO _ Od.nextEntryNumber 0) _).o _ = 0
    rw [State.o_setAll_of_ne _ (by decide), State.o_setO_same, Nat.zero_mod]
  · rw [State.frame_recount (g := State.index) (by simp), applyAll_frame State.index (by simp), applyAll_frame State.index (by simp)]
    exact ⟨rfl, rfl, rfl, rfl⟩

/-! ### Mounting -/

/-- The state in which a mounting index has its stake, its slots and its checkpoint; the objects are still to be written. -/
def State.mountBase (s : State) (led : Tbl Nat) : State :=
  ({ s with slots := { s.slots with ledger := led, live := led } }.setStake 511 { used := true, model := 64, state := skIDLE }).setIndex
    { s.index with stripe := none, textHead := s.index.mountHead, ckpt := s.beat, dirLost := false, unmount := false
                   lists := s.index.lists.map fun (e : Nat × LList) => (e.1, { e.2 with copies := [] }) }

/-- What writing objects leaves, mounting leaves from there on. -/
theorem State.frame_mountIndex {τ : Type} {g : State → τ} (hset : ∀ (t : State) (k v : Nat), g (t.setO k v) = g t) (s : State)
    (led : Tbl Nat) : g (s.mountIndex led) = g (s.mountBase led) := by
  have hspoke (t : State) (c : Nat) : g (t.putSpoke c) = g t := by simp only [State.putSpoke, hset]
  simp only [State.mountIndex]
  rw [State.frame_recount hset, hset, applyAll_frame g (fun _ _ => hset _ _ _), applyAll_frame g hspoke,
    applyAll_frame g (fun _ _ => hset _ _ _)]
  rfl

theorem State.indexState_mountIndex (s : State) (led : Tbl Nat) : (s.mountIndex led).o Od.indexState =
    if s.index.deadDies.isEmpty && s.index.deadCh.isEmpty then 3 else 4 := by
  simp only [State.mountIndex]
  rw [State.o_recount _ (by decide), State.o_setO_of_lt _ odWidth_indexObjects.1 (by split <;> decide)]
  rfl

theorem exec_indexMount {led : Tbl Nat} (h : ReadyMount s led) : exec .indexMount s = .next (s.mountIndex led) := by
  obtain ⟨hstate, hwhole, hon, hfree, hclaim⟩ := h
  refine congrArg Host.Outcome.next ((if_neg (by rw [hstate]; decide)).trans ((if_neg (ne_true_of_eq_false hwhole)).trans
    ((if_neg (ne_true_of_eq_false hon)).trans ((if_neg (ne_true_of_eq_false hfree)).trans ?_))))
  rw [hclaim]

theorem indexMount_mounts {led : Tbl Nat} (h : ReadyMount s led) :
    Runs .indexMount s fun u => u.o Od.indexState = (if s.index.deadDies.isEmpty && s.index.deadCh.isEmpty then 3 else 4) ∧
      (u.stake 511).used = true ∧ u.slots.ledger = led ∧ u.index.stripe = none := by
  refine ⟨_, exec_indexMount h, State.indexState_mountIndex _ _, ?_, ?_, ?_⟩
  · rw [State.stake, State.frame_mountIndex (g := State.stakes) (by simp)]
    change ((State.setStake _ 511 { used := true, model := 64, state := skIDLE }).stake 511).used = true
    rw [State.stake_setStake, if_pos rfl]
  · rw [State.frame_mountIndex (g := State.slots) (by simp)]
    rfl
  · rw [State.frame_mountIndex (g := State.index) (by simp)]
    rfl

theorem exec_indexMount_fails (hstate : s.o Od.indexState = 2)
    (hfailed : ([85, 86, 87, 88, 92, 93, 94, 95].any fun p => s.pdState p == pdFAILED) = true) :
    exec .indexMount s = .next (s.setO Od.indexState 5) :=
  congrArg Host.Outcome.next ((if_neg (by rw [hstate]; decide)).trans (if_pos hfailed))

/-! ### Unmounting, checkpoints and the directory -/

theorem exec_indexUnmount (h : ReadyUnmount s) : exec .indexUnmount s = .next s.unmountIndex := by
  obtain ⟨hmounted, hunmount, hunused, hstaged, hformed, hwindows, hmerges⟩ := h
  refine congrArg Host.Outcome.next (guardS_of ?_ s _)
  rw [hmounted, hunmount, hunused, hstaged, hformed, hwindows, hmerges]
  rfl

theorem indexUnmount_frees (h : ReadyUnmount s) :
    Runs .indexUnmount s fun u => u.o Od.indexState = 6 ∧ (u.stake 511).used = false ∧ u.o Od.listsCached = 0 := by
  refine ⟨_, exec_indexUnmount h, ?_, ?_, ?_⟩
  · exact State.o_setO_of_lt _ odWidth_indexObjects.1 (by decide)
  · change ((State.setStake _ 511 {}).stake 511).used = false
    rw [State.stake_setStake, if_pos rfl]
  · exact (State.o_setO_ne _ _ (by decide)).trans ((State.o_setO_same _ _ _).trans (Nat.zero_mod _))

theorem exec_checkpoint (hmounted : s.mounted = true) (hdue : s.index.ckpt + s.o Od.checkpointBeats ≤ s.beat) :
    exec .checkpoint s = .next (s.setIndex { s.index with ckpt := s.beat }) :=
  congrArg Host.Outcome.next (guardS_of (by rw [hmounted, decide_eq_true hdue]; rfl) s _)

theorem indexDirectoryRebuilt_ends (hlost : s.index.dirLost = true) (hstate : s.o Od.indexState = 4) (hdies : s.index.deadDies = [])
    (hchannels : s.index.deadCh = []) :
    Runs .indexDirectoryRebuilt s fun u => u.o Od.indexState = 3 ∧ u.index.dirLost = false ∧ u.index.ckpt = s.beat := by
  refine ⟨_, congrArg Host.Outcome.next ((guardS_of hlost s _).trans (if_pos ⟨hstate, hdies, hchannels⟩)), ?_, rfl, rfl⟩
  exact State.o_setO_of_lt _ odWidth_indexObjects.1 (by decide)

end

/-- Settles O25. -/
theorem indexFormatsMountsUnmounts : Obligations.IndexFormatsMountsUnmounts :=
  ⟨fun _ hstate => indexFormat_empties hstate,
    fun _ _ h => indexMount_mounts h,
    fun _ hstate hfailed => exec_indexMount_fails hstate hfailed,
    fun _ h => indexUnmount_frees h,
    fun _ hmounted hdue => exec_checkpoint hmounted hdue,
    fun _ hlost hstate hdies hchannels => indexDirectoryRebuilt_ends hlost hstate hdies hchannels⟩

end Sys2Proof.Machine
end

section
namespace Sys2Proof.Machine

/-! ## Side pages, the text log, compaction and dictionaries (R371 to R381) -/

theorem odWidth_textDictState : ∀ k < 64, odWidth (Od.textDictState k) = 8 := by decide +kernel

section
variable {s : State}

@[simp] theorem State.index_measure (s : State) (slot event digest object info : Nat) :
    (s.measure slot event digest object info).index = s.index := by
  simp [State.measure]

theorem exec_sideFlushTimeout (hmounted : s.mounted = true)
    (hdue : (s.index.staged.any fun a => decide (a.at_ + s.o Od.sideFlushBeats ≤ s.beat)) = true) :
    exec .sideFlushTimeout s = .next (s.formSide s.index.fitCount) :=
  congrArg Host.Outcome.next (guardS_of (by rw [hmounted, hdue]; rfl) s _)

theorem exec_sidePageProgramDone {n core mb : Nat} {p : SidePage} (hformed : (s.index.formed.find? fun p => p.num == n) = some p) :
    exec (.sidePageProgramDone n core mb) s =
      .next (applyAll State.pumpOutcomes (s.sideDone p core mb) (reqsOf p.apps)).pumpStaging := by
  change execSidePageProgramDone n core mb s = _
  simp only [execSidePageProgramDone, hformed]

theorem exec_stripeCloseTimeout {t : Nat} (hstripe : s.index.stripe = some t)
    (hdue : s.index.stripeAt + s.o Od.sideStripeCloseBeats ≤ s.beat) (hnone : (s.index.formed.any fun p => p.stripe == t) = false) :
    exec .stripeCloseTimeout s = .next (s.closeStripe t).pumpStaging := by
  change execStripeCloseTimeout s = _
  simp only [execStripeCloseTimeout, hstripe, decide_eq_false (Nat.not_lt.2 hdue), hnone, Bool.or_self, Bool.false_eq_true, if_false]

theorem exec_textFlushTimeout {b : Nat} (hopen : s.index.textAt = some b) (hdue : b + s.o Od.sideFlushBeats ≤ s.beat) :
    exec .textFlushTimeout s = .next (s.setIndex { s.index with
      inflight := s.index.inflight ++ [s.index.textHead / 1024], textAt := none }) := by
  change execTextFlushTimeout s = _
  simp only [execTextFlushTimeout, hopen, guardS_of (decide_eq_true hdue), Index.closeText, Option.isNone_some, Bool.false_eq_true,
    if_false]

theorem exec_textPageProgramDone {g : Nat} (hinflight : s.index.inflight.contains g = true) : exec (.textPageProgramDone g) s =
    .next (applyAll State.pumpOutcomes (s.textDone g) (((s.index.framesOn g).map fun e => e.2.req).eraseDups)) :=
  congrArg Host.Outcome.next (guardS_of hinflight s _)

theorem exec_compaction {g : Nat} {gs : List Nat} {y : Index} (hmounted : s.mounted = true)
    (hfull : 100 * (12 * s.index.fmtText - s.index.usedSegs.length) < 2 * (12 * s.index.fmtText)) (hpick : s.compactable = g :: gs)
    (hmoved : moveFrames s.beat (s.index.liveFrames g) s.index = some y) :
    exec .compaction s = .next (s.setIndex (y.eraseSeg g).tidyForward).putFill := by
  refine congrArg Host.Outcome.next ((if_neg ?_).trans ?_)
  · rw [hmounted, decide_eq_false (by omega)]
    decide
  · simp only [hpick, hmoved]

/-- An erased segment is not used and holds no frame. -/
theorem Index.eraseSeg_gone (y : Index) (g : Nat) : g ∉ (y.eraseSeg g).tidyForward.usedSegs ∧
    ∀ e ∈ (y.eraseSeg g).tidyForward.text, e.1 / 1024 / 47616 ≠ g :=
  ⟨fun hg => bne_iff_ne.1 (List.mem_filter.1 hg).2 rfl, fun _ he => bne_iff_ne.1 (List.mem_filter.1 he).2⟩

theorem compaction_frees {g : Nat} {gs : List Nat} {y : Index} (hmounted : s.mounted = true)
    (hfull : 100 * (12 * s.index.fmtText - s.index.usedSegs.length) < 2 * (12 * s.index.fmtText)) (hpick : s.compactable = g :: gs)
    (hmoved : moveFrames s.beat (s.index.liveFrames g) s.index = some y) :
    Runs .compaction s fun u => g ∉ u.index.usedSegs ∧ ∀ e ∈ u.index.text, e.1 / 1024 / 47616 ≠ g := by
  refine ⟨_, exec_compaction hmounted hfull hpick hmoved, ?_⟩
  simpa only [State.putFill, State.setO_frame, State.setIndex_index] using y.eraseSeg_gone g

theorem exec_textDictLoad {k : Fin 64} (h : ReadyDict s k.val)
    (hmagic : leAt (s.storeObj (s.o (Od.textDictSource k.val))).bytes 0 4 = 0xEC30A437)
    (hsize : (s.storeObj (s.o (Od.textDictSource k.val))).bytes.length ≤ 131072) :
    exec (.textDictLoad k) s = .next (((s.setIndex { s.index with
      dictPend := s.index.dictPend.filter fun j => j != k.val
      dicts := tIns k.val (s.storeObj (s.o (Od.textDictSource k.val))).bytes s.index.dicts }).setO (Od.textDictState k.val) 1).measure 5 0x09
        (s.storeObj (s.o (Od.textDictSource k.val))).digest (s.o (Od.textDictSource k.val)) k.val) := by
  obtain ⟨hpending, hcommand, hvalid⟩ := h
  have hformed : (leAt (s.storeObj (s.o (Od.textDictSource k.val))).bytes 0 4 != 0xEC30A437 ||
      decide (131072 < (s.storeObj (s.o (Od.textDictSource k.val))).bytes.length)) = false := by
    rw [hmagic, decide_eq_false (Nat.not_lt.2 hsize)]
    rfl
  refine congrArg Host.Outcome.next ((guardS_of (by rw [hpending, hcommand]; rfl) s _).trans ?_)
  refine (if_neg ?_).trans (if_neg ?_)
  · exact ne_true_of_eq_false (congrArg not hvalid)
  · exact ne_true_of_eq_false hformed

theorem textDictLoad_readies {k : Fin 64} (h : ReadyDict s k.val)
    (hmagic : leAt (s.storeObj (s.o (Od.textDictSource k.val))).bytes 0 4 = 0xEC30A437)
    (hsize : (s.storeObj (s.o (Od.textDictSource k.val))).bytes.length ≤ 131072) :
    Runs (.textDictLoad k) s fun u => u.o (Od.textDictState k.val) = 1 ∧
      tGet [] u.index.dicts k.val = (s.storeObj (s.o (Od.textDictSource k.val))).bytes := by
  refine ⟨_, exec_textDictLoad h hmagic hsize, ?_, ?_⟩
  · rw [State.o_measure _ _ _ _ _ _ (by unfold Od.textDictState Od.measurement; omega)
      (by unfold Od.textDictState Od.measurementLogEntries; omega)]
    exact State.o_setO_of_lt _ (odWidth_textDictState k.val k.isLt) (by decide)
  · rw [State.index_measure]
    exact tGet_tIns_same _ _ _ _

theorem textDictRemove_empties {k : Fin 64} (hpending : s.index.dictPend.contains k.val = true)
    (hcommand : s.o (Od.textDictCommand k.val) = 2) :
    Runs (.textDictRemove k) s fun u => u.o (Od.textDictState k.val) = 0 ∧ tHas u.index.dicts k.val = false := by
  refine ⟨_, congrArg Host.Outcome.next (guardS_of (by rw [hpending, hcommand]; rfl) s _), ?_, ?_⟩
  · exact (State.o_setO_same _ _ _).trans (Nat.zero_mod _)
  · exact (tHas_tDel _ _ _).trans (by rw [decide_eq_false (not_not_intro rfl), Bool.false_and])

end

/-- Settles O26. -/
theorem appendsAndTextsAreWritten : Obligations.AppendsAndTextsAreWritten :=
  ⟨fun _ hmounted hdue => exec_sideFlushTimeout hmounted hdue,
    fun _ _ _ _ _ hformed => exec_sidePageProgramDone hformed,
    fun _ _ hstripe hdue hnone => exec_stripeCloseTimeout hstripe hdue hnone,
    fun _ _ hopen hdue => ⟨_, exec_textFlushTimeout hopen hdue, rfl, rfl⟩,
    fun _ _ hinflight => exec_textPageProgramDone hinflight,
    fun _ _ _ _ hmounted hfull hpick hmoved => compaction_frees hmounted hfull hpick hmoved,
    fun _ _ h hmagic hsize => textDictLoad_readies h hmagic hsize,
    fun _ _ hpending hcommand => textDictRemove_empties hpending hcommand⟩

end Sys2Proof.Machine
end

section
namespace Sys2Proof.Machine

/-! ## Failed programs, unreadable pages, dies and channels (R361, R383 to R386) -/

theorem odWidth_spokeState : ∀ c < 32, odWidth (Od.spokeState c) = 8 := by decide +kernel

section
variable {s : State}

/-! ### Failed programs -/

theorem exec_programFailure_side {n core mb t : Nat} {p : SidePage} (hformed : (s.index.formed.find? fun p => p.num == n) = some p)
    (hstripe : s.index.stripe = some t) :
    exec (.programFailure 0 n core mb) s =
      .next ((s.setIndex (s.index.moveSide n t)).programFails (s.index.stripeChan p.per p.stripe p.at_)
        (s.index.stripeDie p.stripe) (s.index.stripeBlock p.stripe) (p.per * (p.stripe % 512) + p.at_) core mb) := by
  refine congrArg Host.Outcome.next ((if_pos rfl).trans ?_)
  simp only [hformed, hstripe]

theorem exec_programFailure_text {n core mb g : Nat} (hinflight : s.index.inflight.contains n = true)
    (hnext : s.index.textAfter s.index.textLast = some g) :
    exec (.programFailure 1 n core mb) s =
      .next ((s.setIndex (s.index.moveText n g)).programFails (s.index.textChan n) (s.index.textDie n) (s.index.textBlock n)
        (n % 47616) core mb) := by
  refine congrArg Host.Outcome.next ((if_neg (by decide)).trans ((if_pos rfl).trans ((if_neg (by rw [hinflight]; decide)).trans ?_)))
  simp only [hnext]

theorem exec_programFailure_main {n core mb : Nat} {m : Merge} (hmerge : (s.index.list n).merge = some m) (hready : m.ready = false)
    (hnothing : m.nothing = false) :
    exec (.programFailure 2 n core mb) s =
      .next (s.programFails (s.index.stripeChan m.per m.first 0) (s.index.stripeDie m.first) (s.index.stripeBlock m.first)
        (m.per * (m.first % 512)) core mb) := by
  refine congrArg Host.Outcome.next ((if_neg (by decide)).trans ((if_neg (by decide)).trans ?_))
  simp only [hmerge, hready, hnothing, Bool.or_self, Bool.false_eq_true, if_false]

/-! ### Unreadable pages -/

@[simp] theorem State.index_spokeEvent (s : State) (core mb ev sp ctx count page : Nat) :
    (s.spokeEvent core mb ev sp ctx count page).index = s.index := by simp [State.spokeEvent]

@[simp] theorem State.index_pageLost (s : State) (c d b q list version core mb : Nat) :
    (s.pageLost c d b q list version core mb).index = s.index := by simp [State.pageLost]

@[simp] theorem State.store_pageLost (s : State) (c d b q list version core mb : Nat) :
    (s.pageLost c d b q list version core mb).store = s.store := by simp [State.pageLost, State.spokeEvent]

theorem exec_readReconstruct_main {n page cw core mb : Nat} {c : Fin 32} {ok : Bool} (h : ReadyMain s n page) :
    exec (.readReconstruct 0 n page c cw ok core mb) s = .next (
      let v := (s.index.list n).cur
      let t := v.first + page / v.per
      if ok then s.readBack (s.index.stripeChan v.per t (page % v.per)) (s.index.stripeDie t) (s.index.stripeBlock t)
        (v.per * (t % 512) + page % v.per) cw core mb
      else ((s.addO (Od.unreadable (s.index.stripeChan v.per t (page % v.per))) cw).mainLostPage n page).pageLost
        (s.index.stripeChan v.per t (page % v.per)) (s.index.stripeDie t) (s.index.stripeBlock t) (v.per * (t % 512) + page % v.per)
        n v.num core mb) := by
  obtain ⟨hvers, hpage, hkept⟩ := h
  refine congrArg Host.Outcome.next ((if_pos rfl).trans (if_neg ?_))
  rw [List.isEmpty_eq_false_iff.2 hvers, decide_eq_false (Nat.not_le.2 hpage), hkept]
  decide

/-- A lost main page damages its list. -/
theorem State.mainLostPage_damages (s : State) {l : Nat} (page : Nat) (hvers : (s.index.list l).vers ≠ []) :
    ((s.mainLostPage l page).index.list l).damaged = true ∧
      ((s.mainLostPage l page).index.list l).cur.lost = page :: (s.index.list l).cur.lost := by
  have hlist : (s.mainLostPage l page).index.list l = { s.index.list l with
      damaged := true
      vers := (s.index.list l).vers.set 0 { (s.index.list l).cur with lost := page :: (s.index.list l).cur.lost } } := by
    simp only [State.mainLostPage, State.addO_frame]
    exact tGet_tSet_same _ _ _ _
  rw [hlist]
  refine ⟨rfl, ?_⟩
  obtain ⟨v, vs, hcons⟩ := List.exists_cons_of_ne_nil hvers
  simp [LList.cur, hcons]

theorem readReconstruct_damages {n page cw core mb : Nat} {c : Fin 32} (h : ReadyMain s n page) :
    Runs (.readReconstruct 0 n page c cw false core mb) s fun u => (u.index.list n).damaged = true ∧
      (u.index.list n).cur.lost = page :: (s.index.list n).cur.lost := by
  refine ⟨_, exec_readReconstruct_main h, ?_⟩
  simp only [Bool.false_eq_true, if_false, State.index_pageLost]
  simpa only [State.addO_frame] using State.mainLostPage_damages (s.addO _ cw) page (by simpa only [State.addO_frame] using h.1)

theorem exec_readReconstruct_staged {n page cw core mb : Nat} {c : Fin 32} {ok : Bool} {p : SidePage}
    (hpage : (s.index.sidePages.find? fun p => p.num == n && !p.lost) = some p) (hopen : s.index.stripe = some p.stripe) :
    exec (.readReconstruct 1 n page c cw ok core mb) s =
      .next (s.addO (Od.unreadable (s.index.stripeChan p.per p.stripe p.at_)) cw) := by
  refine congrArg Host.Outcome.next ((if_neg (by decide)).trans ((if_pos rfl).trans ?_))
  simp only [hpage, hopen, beq_self_eq_true, Bool.true_or, if_true]

theorem readReconstruct_losesTexts {n page cw core mb : Nat} {c : Fin 32}
    (htext : (s.index.text.any fun e => e.1 / 1024 == n && e.2.done) = true) :
    Runs (.readReconstruct 2 n page c cw false core mb) s fun u => ∀ e ∈ u.index.text, e.1 / 1024 = n → e.2.lost = true := by
  refine ⟨_, congrArg Host.Outcome.next ((if_neg (by decide)).trans ((if_neg (by decide)).trans ((if_pos rfl).trans
    ((if_neg (by rw [htext]; decide)).trans (if_neg (by decide)))))), ?_⟩
  beta_reduce
  rw [State.index_pageLost]
  intro e he hpage
  obtain ⟨f, -, hf⟩ := List.mem_map.1 he
  by_cases hlost : f.1 / 1024 = n
  · rw [if_pos (beq_iff_eq.2 hlost)] at hf
    rw [← hf]
  · rw [if_neg (by simpa using hlost)] at hf
    rw [← hf] at hpage
    exact absurd hpage hlost

theorem readReconstruct_marksObject {n page cw core mb : Nat} {c : Fin 32} (hvalid : (s.storeObj n).state = 2) :
    Runs (.readReconstruct 3 n page c cw false core mb) s fun u => (u.storeObj n).bad = true := by
  refine ⟨_, congrArg Host.Outcome.next ((if_neg (by decide)).trans ((if_neg (by decide)).trans ((if_neg (by decide)).trans
    ((if_neg (by rw [hvalid]; decide)).trans (if_neg (by decide)))))), ?_⟩
  beta_reduce
  rw [State.storeObj, State.store_pageLost]
  exact congrArg StoreObj.bad (tGet_tSet_same _ _ _ _)

/-! ### Failed dies and channels -/

/-- The objects a rebuild writes. -/
def rebuildObjects : List Nat := [Od.rebuildState, Od.rebuildDone, Od.rebuildTotal]

theorem State.o_queueRebuild (s : State) (st : Nat) (ks : List Nat) {k : Nat} (hk : k ∉ rebuildObjects) :
    (s.queueRebuild st ks).o k = s.o k := by
  simp only [rebuildObjects, List.mem_cons, List.not_mem_nil, or_false, not_or] at hk
  obtain ⟨hstate, hdone, htotal⟩ := hk
  simp only [State.queueRebuild]
  split
  · rfl
  · rw [State.o_setO_ne _ _ hstate, State.o_addO, if_neg htotal]
    split
    · rw [State.o_setO_ne _ _ htotal, State.o_setO_ne _ _ hdone]
      exact State.o_congr rfl k
    · exact State.o_congr rfl k

theorem State.dead_queueRebuild (s : State) (st : Nat) (ks : List Nat) :
    (s.queueRebuild st ks).index.deadDies = s.index.deadDies ∧ (s.queueRebuild st ks).index.deadCh = s.index.deadCh := by
  simp only [State.queueRebuild]
  split
  · exact ⟨rfl, rfl⟩
  · simp [apply_ite State.index]

/-- An index with something out is not MOUNTED. -/
theorem State.indexDegraded_notMounted (s : State) : s.indexDegraded.o Od.indexState ≠ 3 := by
  rw [State.indexDegraded]
  split
  · rw [State.o_setO_of_lt _ odWidth_indexObjects.1 (by decide)]
    decide
  next hother => exact hother

theorem State.o_indexDegraded (s : State) {k : Nat} (hk : k ≠ Od.indexState) : s.indexDegraded.o k = s.o k := by
  rw [State.indexDegraded]
  split
  · exact State.o_setO_ne _ _ hk
  · rfl

@[simp] theorem State.index_indexDegraded (s : State) : s.indexDegraded.index = s.index := by
  simp only [State.indexDegraded, apply_ite State.index, State.setO_frame, ite_self]

theorem State.o_spokeEvent (s : State) (core mb ev sp ctx count page : Nat) {k : Nat} (h : k ≠ Od.mirrorLag)
    (h1 : k ≠ Od.mailboxOverflowCount) : (s.spokeEvent core mb ev sp ctx count page).o k = s.o k := State.o_post _ _ _ _ _ h h1

/-- SPOKE_STATE lies apart from the objects that a fault, an event and a rebuild write. -/
theorem spokeState_ne : ∀ c < 32, Od.spokeState c ≠ Od.mirrorLag ∧ Od.spokeState c ≠ Od.mailboxOverflowCount ∧
    Od.spokeState c ≠ Od.singleFaults ∧ Od.spokeState c ≠ Od.lastFault ∧ Od.spokeState c ≠ Od.longestInterruptionNs ∧
    Od.spokeState c ≠ Od.indexState ∧ Od.spokeState c ∉ rebuildObjects := by decide +kernel

/-- A channel that fails. -/
theorem State.channelFails_out (s : State) {c : Nat} (core mb : Nat) (hc : c < 32) (hworks : s.index.deadCh.contains c = false) :
    c ∈ (s.channelFails c core mb).index.deadCh ∧ (s.channelFails c core mb).o Od.indexState ≠ 3 ∧
      (s.channelFails c core mb).o (Od.spokeState c) = 3 ∧ (s.channelFails c core mb).index.deadDies = s.index.deadDies := by
  simp only [State.channelFails, hworks, Bool.false_eq_true, if_false]
  refine ⟨?_, ?_, ?_, ?_⟩
  · simp [State.dead_queueRebuild]
  · rw [State.o_spokeEvent _ _ _ _ _ _ _ _ (by decide) (by decide),
      State.o_fault1 _ _ _ _ _ _ _ _ (by decide) (by decide) (by decide) (by decide),
      State.o_queueRebuild _ _ _ (by decide)]
    exact State.indexDegraded_notMounted _
  · obtain ⟨hlag, hoverflow, hsingle, hlast, hlongest, hindex, hrebuild⟩ := spokeState_ne c hc
    rw [State.o_spokeEvent _ _ _ _ _ _ _ _ hlag hoverflow, State.o_fault1 _ _ _ _ _ _ _ _ hlag hsingle hlast hlongest,
      State.o_queueRebuild _ _ _ hrebuild, State.o_indexDegraded _ hindex,
      State.o_setO_of_lt _ (odWidth_spokeState c hc) (by decide)]
  · simp [State.dead_queueRebuild]

/-- A die that fails, before its blocks are queued. -/
def State.dieOut (s : State) (c d core mb : Nat) : State :=
  let s := s.setIndex { s.index with deadDies := (12 * c + d) :: s.index.deadDies }
  let left := s.index.sparesLeft c
  let s := s.setO (Od.dieState c) (octSet (s.o (Od.dieState c)) 12 1 d 1)
  let s := (s.setO (Od.spokeState c) 2).indexDegraded
  let s := s.fault1 0x2D 10 (16 * c + d) 2 0 0 [(16, sat 16 left)]
  s.spokeEvent core mb 7 c 0 0 (pageField d 0 0)

/-- A failed die takes its channel with it, or its blocks are queued for a rebuild. -/
theorem State.dieFails_cases (s : State) {c d : Nat} (ms core mb : Nat) (hdie : s.index.deadDies.contains (12 * c + d) = false)
    (hchannel : s.index.deadCh.contains c = false) :
    s.dieFails c d ms core mb = (s.dieOut c d core mb).channelFails c core mb ∨
      ∃ ks, s.dieFails c d ms core mb = (s.dieOut c d core mb).queueRebuild 1 ks := by
  rw [State.dieFails, if_neg (by rw [hdie, hchannel]; decide)]
  exact (ite_eq_or_eq _ _ _).imp id fun hqueued => ⟨_, hqueued⟩

theorem State.dieOut_out (s : State) (c d core mb : Nat) : 12 * c + d ∈ (s.dieOut c d core mb).index.deadDies ∧
    (s.dieOut c d core mb).o Od.indexState ≠ 3 ∧ (s.dieOut c d core mb).index.deadCh = s.index.deadCh := by
  refine ⟨by simp [State.dieOut], ?_, by simp [State.dieOut]⟩
  simp only [State.dieOut]
  rw [State.o_spokeEvent _ _ _ _ _ _ _ _ (by decide) (by decide),
    State.o_fault1 _ _ _ _ _ _ _ _ (by decide) (by decide) (by decide) (by decide)]
  exact State.indexDegraded_notMounted _

theorem dieFailure_takesOut {c : Fin 32} {d : Fin 12} {ms core mb : Nat}
    (hdie : s.index.deadDies.contains (12 * c.val + d.val) = false) (hchannel : s.index.deadCh.contains c.val = false) :
    Runs (.dieFailure c d ms core mb) s fun u => 12 * c.val + d.val ∈ u.index.deadDies ∧ u.o Od.indexState ≠ 3 := by
  refine ⟨s.dieFails c.val d.val ms core mb, rfl, ?_⟩
  obtain ⟨hout, hnot, hchannels⟩ := s.dieOut_out c.val d.val core mb
  rcases s.dieFails_cases ms core mb hdie hchannel with hfails | ⟨ks, hqueued⟩
  · rw [hfails]
    obtain ⟨-, hnotMounted, -, hdies⟩ := (s.dieOut c.val d.val core mb).channelFails_out core mb c.isLt (by rwa [hchannels])
    exact ⟨by rwa [hdies], hnotMounted⟩
  · rw [hqueued, (State.dead_queueRebuild _ _ _).1, State.o_queueRebuild _ _ _ (by decide)]
    exact ⟨hout, hnot⟩

theorem channelFailure_takesOut {c : Fin 32} {core mb : Nat} (hworks : s.index.deadCh.contains c.val = false) :
    Runs (.channelFailure c core mb) s fun u => c.val ∈ u.index.deadCh ∧ u.o Od.indexState ≠ 3 ∧ u.o (Od.spokeState c.val) = 3 := by
  obtain ⟨hout, hnot, hspoke, -⟩ := s.channelFails_out core mb c.isLt hworks
  exact ⟨_, rfl, hout, hnot, hspoke⟩

/-! ### Rebuilds -/

theorem State.rebuild_remapBlock (s : State) (c d b : Nat) : (s.remapBlock c d b).index.rebuild = s.index.rebuild := by
  simp [State.remapBlock]

theorem State.rebuild_blockRebuilt (s : State) (k : Nat) (rest : List Nat) : (s.blockRebuilt k rest).index.rebuild = s.index.rebuild := by
  simp only [State.blockRebuilt]
  split
  · simp [State.rebuild_remapBlock]
  · exact State.rebuild_remapBlock _ _ _ _

theorem State.rebuild_narrowed (s : State) : s.narrowed.index.rebuild = s.index.rebuild := by
  simp [State.narrowed, State.putFill]

theorem State.index_rebuildGoesOn (s : State) (rest : List Nat) : (s.rebuildGoesOn rest).index = s.index := by
  simp only [State.rebuildGoesOn, apply_ite State.index, State.setO_frame, ite_self]

theorem rebuildBlockDone_takesNext {k : Nat} {rest : List Nat} (hqueue : s.index.rebuild = k :: rest) :
    Runs .rebuildBlockDone s fun u => u.index.rebuild = rest ∧ (rest = [] → u.o Od.rebuildState = 0) := by
  change ∃ u, execRebuildBlockDone s = .next u ∧ _
  simp only [execRebuildBlockDone, hqueue]
  refine ⟨_, rfl, ?_, fun hlast => ?_⟩
  · rw [State.index_rebuildGoesOn]
    split
    · split
      · simp [State.rebuild_narrowed]
      · simp
    · simp [State.rebuild_blockRebuilt]
  · rw [State.rebuildGoesOn, if_pos (by rw [hlast]; rfl), State.o_setO_same, Nat.zero_mod]

end

/-- Settles O27. -/
theorem flashFailuresAreContained : Obligations.FlashFailuresAreContained :=
  ⟨fun _ _ _ _ _ _ hformed hstripe => exec_programFailure_side hformed hstripe,
    fun _ _ _ _ _ hinflight hnext => exec_programFailure_text hinflight hnext,
    fun _ _ _ _ _ hmerge hready hnothing => exec_programFailure_main hmerge hready hnothing,
    fun _ _ _ _ _ _ _ h => exec_readReconstruct_main h,
    fun _ _ _ _ _ _ _ h => readReconstruct_damages h,
    fun _ _ _ _ _ _ _ _ _ hpage hopen => exec_readReconstruct_staged hpage hopen,
    fun _ _ _ _ _ _ _ htext => readReconstruct_losesTexts htext,
    fun _ _ _ _ _ _ _ hvalid => readReconstruct_marksObject hvalid,
    fun _ _ _ _ _ _ hdie hchannel => dieFailure_takesOut hdie hchannel,
    fun _ _ _ _ hworks => channelFailure_takesOut hworks,
    fun _ _ _ hqueue => rebuildBlockDone_takesNext hqueue⟩

end Sys2Proof.Machine
end
